-- ==== Sys2Proof/Word.lean ====
section
/-!
DEFINITION. The word types of the ZF6240 (R4: registers are 32 bits; stamps are a 64-bit nanosecond part and a 16-bit
fraction, R47) and the two descriptors the register map is written in.
-/

namespace Sys2Proof

/-- A register word (R4). -/
abbrev Word := BitVec 32

/-- One byte. -/
abbrev Byte := BitVec 8

/-- A window entry: at most 256 bits, carried in DATA0 to DATA7 (R43). -/
abbrev Entry := BitVec 256

/-- A field of a register or of a window entry: the page offset of its register (0 for an entry field), its lowest bit
and its width. -/
structure Fld where
  off : Nat
  lo : Nat
  w : Nat
deriving DecidableEq, Repr

/-- The field of instance `i` of a register with the given stride. -/
def Fld.at (f : Fld) (stride i : Nat) : Fld := { f with off := f.off + stride * i }

/-- A register of a block: offset of instance 0, stride, number of instances, reset word, and the masks of its RW, W1C,
W1S, WO and RC bits (R6). All other bits are RO or reserved. -/
structure RegDef where
  off : Nat
  stride : Nat
  count : Nat
  rst : Nat
  rw : Nat
  w1c : Nat
  w1s : Nat
  wo : Nat
  rc : Nat
deriving DecidableEq, Repr

/-- A sparse store: key and value pairs, keys strictly rising, no pair equal to what an unlisted key reads as. -/
abbrev SMap (α : Type) := List (Nat × α)

end Sys2Proof
end

