-- ==== Sys2Proof/Syntax.lean ====
section
/-!
DEFINITION. The commands of the block: one constructor of `Instr` per row of spec/opcode_table.json, with the operands
the row's rule gives it. Every command carries `t`, the FRC value (units of 2^-16 ns, R47) of the cycle in which it is
accepted or happens; the other stamps are stamp64 values of the events they name (R17).
-/

namespace Sys2Proof

/-! ### Operands of the CAN commands -/

/-- A CAN frame: FORMAT (0 CBFF, 1 CEFF, 2 FBFF, 3 FEFF, 4 XLFF), RTR, identifier, LENGTH, BRS, ESI, payload bytes, and
the CAN XL fields VCID, SDT, SEC and AF (Tables 4 and 10 of *CAN, CAN FD and CAN XL Controllers*). -/
structure CanFrame where
  fmt : Nat := 0
  rtr : Bool := false
  id : Nat := 0
  len : Nat := 0
  brs : Bool := false
  esi : Bool := false
  data : List Nat := []
  vcid : Nat := 0
  sdt : Nat := 0
  sec : Bool := false
  af : Nat := 0
deriving DecidableEq, Repr

/-- The kinds of bus error (R108): the LEC codes. -/
inductive CanErr where
  | stuff | form | ack | bit1 | bit0 | crc
deriving DecidableEq, Repr

/-- A bus error as the protocol engine of a channel reports it: its kind, whether the channel was transmitting, whether
arbitration had been won and the error lies in the control, data or CRC field (R109), and what ISO 11898-1:2024 adds to
TEC and REC for it. -/
structure CanFault where
  kind : CanErr
  tx : Bool
  afterArb : Bool
  tecInc : Nat
  recInc : Nat
deriving DecidableEq, Repr

/-! ### LIN and serial -/

/-- The end of a LIN response: data bytes, whether the checksum is right, whether a bit read back differs (R120), and the
end of the checksum stop bit as the channel sees it. -/
structure LinEnd where
  data : List Nat
  csumOk : Bool
  bitErr : Bool
  fin : Nat
deriving DecidableEq, Repr

/-- A serial character: its bits, falling edge of the start bit, end of the last stop bit, parity and framing error. -/
structure SerChar where
  data : Nat
  start : Nat
  fin : Nat
  parityErr : Bool
  framingErr : Bool
deriving DecidableEq, Repr

/-! ### Ethernet frames -/

/-- A frame at a MAC's receive side (R177, R185, R188): its bytes from DA to FCS, the FRC value (units of 2^-16 ns) at which the
first bit after the SFD or SMD crossed the MAC's internal interface, the stamp of its end, a receive error, and how the MAC
merge sublayer passed it: 0 express, 1 reassembled, 2 assembly error, 3 SMD error, with its additional fragments. -/
structure EthRx where
  bytes : List Nat
  start : Nat
  fin : Nat
  err : Bool := false
  mm : Nat := 0
  frags : Nat := 0
deriving DecidableEq, Repr

/-! ### gPTP messages -/

/-- A two-step Sync and its Follow_Up (R71): sequenceId, ingress stamp in FRC units of 2^-16 ns, preciseOriginTimestamp and
correctionField in units of 2^-16 ns, and cumulativeScaledRateOffset (the rate ratio minus 1 in units of 2^-41). -/
structure SyncMsg where
  seq : Nat
  ingress : Nat
  origin : Nat
  corr : Int
  csro : Int
deriving DecidableEq, Repr

/-- A pdelay response and its follow-up (R75): request receipt t2 and response origin t3 as the peer gives them, response
receipt t4 as the port stamps it, in units of 2^-16 ns. -/
structure PdelayResp where
  t2 : Nat
  t3 : Nat
  t4 : Nat
deriving DecidableEq, Repr

/-! ### The commands -/

/-- The commands of the block, one per row of the opcode table. -/
inductive Instr where
  /-- REGISTER_WRITE (R555). A 32-bit write to a register that has no row of its own is judged against the ordered checks and then stored or refused as a whole. -/
  | registerWrite (t : Nat) (d a bits v : Nat) (ecc fail : Bool)
  /-- RC_READ (R42). A read of an RC field returns the value and clears it, unless the reader is a non-owner. -/
  | rcRead (t : Nat) (d a bits : Nat) (bad fail ecc : Bool)
  /-- WORD_QUEUE_POP (R97). A read of a word-queue register (CANC_RXQ, LINC_RXQ, SER_RXQ, SRT_EVQ, LOG_FIFO) pops one word or returns the idle word, with the duplicate pointer check. -/
  | wordQueuePop (t : Nat) (d k : Nat) (bad : Bool)
  /-- KEY_MATERIAL_READ (R34). A read of key material returns 0 and raises REG_KEY_READ. -/
  | keyMaterialRead (t : Nat) (d p : Nat)
  /-- ERR_CODE_CLEAR (R34). A W1C of xxx_ERR_CODE.VALID by a domain of the owner's world clears the latched error and its stamps. -/
  | errCodeClear (t : Nat) (d p : Nat)
  /-- IRQ_TEST (R32). A write of xxx_IRQ_TEST sets the same bits in IRQ_STAT. -/
  | irqTest (t : Nat) (d p v : Nat)
  /-- ENABLE (R29). A write of xxx_CTRL.ENABLE starts or stops a block, with the block-specific effects of its chapter. -/
  | ctrlEnable (t : Nat) (d p : Nat) (on : Bool)
  /-- FREEZE (R29). A write of xxx_CTRL.FREEZE makes a block complete its item in progress and hold, or releases it. -/
  | ctrlFreeze (t : Nat) (d p : Nat) (on : Bool)
  /-- SOFT_RESET (R30). A write of xxx_CTRL.SOFT_RESET starts returning the block's functional state and registers to reset values. -/
  | softReset (t : Nat) (d p : Nat)
  /-- SOFT_RESET_DONE (R30). The soft reset completes within 10 µs and SOFT_RESET clears itself. -/
  | softResetDone (t : Nat) (p : Nat)
  /-- COMMIT (R31). A write of xxx_CTRL.COMMIT requests the bank switch of a banked block, refused while draining. -/
  | ctrlCommit (t : Nat) (d p : Nat)
  /-- BANK_SWITCH (R223). The requested commit takes effect at commit stamp C, switching banks, incrementing GEN and raising COMMIT_DONE. -/
  | bankSwitch (t : Nat) (p : Nat)
  /-- DRAIN_DONE (R224). The last event in flight under the previous generation completes, DRAINING clears and DRAIN_DONE is raised. -/
  | drainDone (t : Nat) (p : Nat)
  /-- CLAIM (R35). An xxx_OWNER write of its own domain to an unowned page makes the writer the owner. -/
  | ownerClaim (t : Nat) (d p : Nat)
  /-- TRANSFER (R35). The owner writes another domain into xxx_OWNER and hands the page over. -/
  | ownerTransfer (t : Nat) (d p dst : Nat)
  /-- OWNER_RELEASE (R35). The owner writes UNOWNED = 1, releasing the page and clearing ROUTE_EN. -/
  | ownerRelease (t : Nat) (d p : Nat)
  /-- ADOPTION (R35). The recorded owner writes ADOPT = 1 to an orphaned page, clearing ORPHANED. -/
  | ownerAdoption (t : Nat) (d p : Nat)
  /-- TAKE_OVER (R35). Another domain of the same world claims an orphaned page, keeping its configuration. -/
  | takeOver (t : Nat) (d p : Nat)
  /-- SNAP (R40). A write of xxx_CNT_CTRL.SNAP starts copying every live counter of the page to its snapshot. -/
  | snap (t : Nat) (d p : Nat)
  /-- CNT_CLEAR (R39). A write of xxx_CNT_CTRL.CLEAR clears the live counters, with the snapshot when written together. -/
  | cntClear (t : Nat) (d p : Nat) (snap : Bool)
  /-- SNAPSHOT_DONE (R40). The counter snapshot completes within 1 µs and BUSY clears. -/
  | snapshotDone (t : Nat) (p : Nat)
  /-- READ (R43). Window OP READ copies a table entry into WIN_DATA0-7. -/
  | winRead (t : Nat) (d p : Nat) (ecc fail : Bool)
  /-- WRITE (R43). Window OP WRITE replaces a table entry atomically from WIN_DATA0-7 after the entry checks. -/
  | winWrite (t : Nat) (d p : Nat) (fail : Bool)
  /-- INVALIDATE (R43). Window OP INVALIDATE clears an entry's valid bit only. -/
  | winInvalidate (t : Nat) (d p : Nat)
  /-- FILL (R43). Window OP FILL writes WIN_DATA0-7 into COUNT entries of a standby or unbanked table. -/
  | winFill (t : Nat) (d p cnt : Nat) (fail : Bool)
  /-- COPY (R43). Window OP COPY copies COUNT entries from the active to the standby bank. -/
  | winCopy (t : Nat) (d p cnt : Nat)
  /-- WIN_CMD_DONE (R46). A running window command finishes and sets DONE or ERROR with its code in WIN_CMD_STATUS. -/
  | winCmdDone (t : Nat) (p : Nat)
  /-- READ_CLR (R95). Block-specific window OP 0x8 reads an entry and clears its NEW/LOST flags or zeroes its counters in one access. -/
  | readClr (t : Nat) (d p : Nat) (ecc : Bool)
  /-- FRC_HANDOVER_ENTRY (R50). At the Period acknowledge edge the logic die takes F_h, hands stamping to the line die, sends F_h and writes COARSE_START. -/
  | frcHandoverEntry (t : Nat)
  /-- FRC_HANDOVER_EXIT (R50). At the Period acknowledge toggle the line die sends F_x and the logic die loads the FRC, resumes 2.5 ns steps and writes COARSE_END. -/
  | frcHandoverExit (t : Nat)
  /-- FRC_REALIGN (R52). Once per second in Clause and Comma the logic die re-aligns the line die's copy of the FRC at a 32.768 kHz edge. -/
  | frcRealign (t : Nat)
  /-- ARM (R58). View command ARM permits one step on a freshly enabled view and is journaled. -/
  | viewArm (t : Nat) (d view : Nat)
  /-- STEP (R58). View command STEP starts a new piece offset by DELTA on an armed view, or is refused and journaled. -/
  | viewStep (t : Nat) (d view : Nat)
  /-- UPDATE (R58). View command UPDATE applies a slew-clamped rate or is refused beyond the jump threshold, entering holdover. -/
  | viewUpdate (t : Nat) (d view : Nat)
  /-- REARM (R61). A keyed write of TIME_REARM re-arms a view for one further step, or is refused with REARM_REFUSED. -/
  | viewRearm (t : Nat) (d v : Nat)
  /-- VIEW_ENABLE (R57). TIME_VIEW_CFG.ENABLE = 1 starts the view equal to V0 and journals ENABLE. -/
  | viewEnable (t : Nat) (d view v : Nat)
  /-- VIEW_DISABLE (R57). TIME_VIEW_CFG.ENABLE = 0 ends the view's chain, journals DISABLE and puts bound gate lists in ERROR. -/
  | viewDisable (t : Nat) (d view v : Nat)
  /-- TIME_SNAP (R64). TIME_SNAP_CTRL.GO latches the FRC and all eight views in one cycle. -/
  | timeSnap (t : Nat) (d v : Nat)
  /-- FRC_READ (R78). A read of TIME_FRC_LO returns stamp64 low and latches the high word and fraction. -/
  | frcRead (t : Nat) (d : Nat)
  /-- JOURNAL_COPY (R68). A journal entry is copied to the Transcript through the JNL requester once granted. -/
  | journalCopy (t : Nat)
  /-- SYNC_RECEIVE (R71). A gPTP Sync and its Follow_Up arrive on a slave port, the offset is computed and the servo issues its view command. -/
  | syncReceive (t : Nat) (domain port : Nat) (m : SyncMsg)
  /-- SYNC_RELAY (R71). A received Sync is relayed on each master port within 1 ms of ingress. -/
  | syncRelay (t : Nat) (i port : Nat)
  /-- FOLLOW_UP_RELAY (R71). The Follow_Up is sent within 1 ms of the relayed Sync's egress stamp with the corrected correctionField. -/
  | followUpRelay (t : Nat) (i port : Nat)
  /-- SYNC_ORIGINATE (R71). A grandmaster instance originates Sync on its master ports at the configured interval. -/
  | syncOriginate (t : Nat) (i : Nat)
  /-- GPTP_SYNC_TIMEOUT (R72). 4 µs after the Sync receipt deadline with no counting Sync, relaying and the servo stop and the view enters holdover. -/
  | gptpSyncTimeout (t : Nat) (i : Nat)
  /-- PDELAY_REQUEST (R70). A port with PDELAY_EN sends a pdelay request at its logPdelayReqInterval. -/
  | pdelayRequest (t : Nat) (port : Nat)
  /-- PDELAY_RESPONSE (R75). A pdelay response updates the mean link delay and neighbour rate ratio, or a lost one counts towards loss of asCapable. -/
  | pdelayResponse (t : Nat) (port : Nat) (r : Option PdelayResp)
  /-- CTM_ENQUEUE (R77). At F_0 + k × PERIOD a time-master instance enqueues its reference message or skips it. -/
  | ctmEnqueue (t : Nat) (m : Nat)
  /-- CANC_MODE_REQ (R85). A write of CANC_MODE.REQ checks timing and object range when leaving STOP and starts integration, or is stored while NM holds the channel. -/
  | cancModeReq (t : Nat) (d n v : Nat)
  /-- INTEGRATION_DONE (R89). After 11 consecutive recessive bits the controller enters its requested mode. -/
  | integrationDone (t : Nat) (n : Nat)
  /-- MODE_CHANGE_AT_IDLE (R89). A changed MODE.REQ of an on-bus controller takes effect at the next bus idle. -/
  | modeChangeAtIdle (t : Nat) (n : Nat)
  /-- ARD_DWELL_EXPIRY (R87). A candidate reaches the end of DWELL_MS without a lock and the next is tried, or ARD fails after ROUNDS passes. -/
  | ardDwellExpiry (t : Nat) (n : Nat)
  /-- ARD_LOCK (R88). MATCH consecutive valid frames lock a candidate, whose timing is copied before the controller enters LISTEN or NORMAL. -/
  | ardLock (t : Nat) (n : Nat)
  /-- CAN_FRAME_RECEIVED (R91). A frame valid at its EOF stamp is delivered to the router, Transcript tap, host objects or queue and keep-alive engine as the mode allows. -/
  | canFrameReceived (t : Nat) (n : Nat) (f : CanFrame) (sof eof : Nat)
  /-- PROTOCOL_EXCEPTION (R83). With PEX = 1 a recessive FDF or XLF bit of a disabled format makes the controller leave the frame and re-integrate. -/
  | protocolException (t : Nat) (n : Nat)
  /-- CAN_ERROR_DETECTED (R108). A bus error updates LEC, the counters and the error state in NORMAL and LOOP_EXT. -/
  | canErrorDetected (t : Nat) (n : Nat) (e : CanFault)
  /-- RECOVER (R89). A write of CANC_MODE.RECOVER starts bus-off recovery. -/
  | recover (t : Nat) (d n v : Nat)
  /-- BUS_ON (R89). After 128 occurrences of 11 recessive bits TEC and REC clear and the controller returns to its requested mode. -/
  | busOn (t : Nat) (n : Nat)
  /-- CAN_TXB_REQ (R101). A REQ bit of CANC_TXB_CMD takes a host buffer to PENDING with its enqueue stamp, or is refused. -/
  | canTxbReq (t : Nat) (d n v : Nat)
  /-- CAN_TXB_CANCEL (R107). A CANCEL bit of CANC_TXB_CMD cancels a host buffer, settled by stamps against its start and success points. -/
  | canTxbCancel (t : Nat) (d n v : Nat)
  /-- RTQ_ENTRY (R103). The router or time master enters a frame into a channel's router transmit queue, or it is refused back. -/
  | rtqEntry (t : Nat) (n : Nat) (f : CanFrame)
  /-- TX_ARBITRATION (R104). At bus idle the controller chooses between the host candidate and the router-queue head and starts a transmission attempt. -/
  | txArbitration (t : Nat) (n phase : Nat)
  /-- CAN_TX_SUCCESS (R107). A transmitted frame reaches its EOF, ending SENT or SENT_ABORT_LATE with TX echo and router confirmation. -/
  | canTxSuccess (t : Nat) (n sof eof tdcv : Nat)
  /-- CAN_DOMINANT_TIMEOUT (R542). A transceiver whose TXD stays dominant beyond the time-out releases the bus. -/
  | canDominantTimeout (t : Nat) (n : Nat)
  /-- DRIVER_THERMAL_SHUTDOWN (R546). A CAN or LIN driver switches off at its local thermal limit and back on 15 °C lower. -/
  | driverThermalShutdown (t : Nat) (lin : Bool) (n : Nat) (off : Bool)
  /-- SCHEDULE_SLOT (R122). At each schedule slot boundary a LIN master acts on the entry's type, applying a pending table switch first. -/
  | scheduleSlot (t : Nat) (n : Nat)
  /-- SCHED_SWITCH (R123). A write of LINC_SCHED.SWITCH requests the other schedule table at the next slot boundary. -/
  | schedSwitch (t : Nat) (d n v : Nat)
  /-- SCHED_GO (R123). A write of LINC_SCHED.GO starts or stops the schedule, refused when entry 0 is invalid. -/
  | schedGo (t : Nat) (d n v : Nat)
  /-- LIN_HEADER_RECEIVED (R118). A LIN header is received and the response is published, subscribed or ignored per its response entry. -/
  | linHeaderReceived (t : Nat) (n id start dev : Nat)
  /-- LIN_FRAME_END (R121). A LIN frame completes and goes to the router, tap and queue with its status. -/
  | linFrameEnd (t : Nat) (n : Nat) (e : LinEnd)
  /-- LIN_RESPONSE_TIMEOUT (R120). A response not complete within RESP_PCT % of the frame time closes with NO_RESP or FRAMING. -/
  | linResponseTimeout (t : Nat) (n : Nat) (got : List Nat)
  /-- LIN_WAKE (R124). LINC_MODE.WAKE sends a dominant wake pulse from SLEEP. -/
  | linWake (t : Nat) (d n v : Nat)
  /-- LIN_WAKE_RECEIVED (R124). A dominant level over 150 µs in SLEEP ends SLEEP and writes WAKE_RX, or wakes the device via the line die. -/
  | linWakeReceived (t : Nat) (n dur : Nat)
  /-- LIN_IDLE_SLEEP (R124). A slave with IDLE_SLEEP enters SLEEP after 4 s of bus inactivity. -/
  | linIdleSleep (t : Nat) (n : Nat)
  /-- LIN_WAKE_HOLDOFF_END (R124). 100 ms after a wake the master may send headers again. -/
  | linWakeHoldoffEnd (t : Nat) (n : Nat)
  /-- LIN_DOMINANT_TIMEOUT (R543). A LIN driver held dominant beyond its time-out releases the bus. -/
  | linDominantTimeout (t : Nat) (n : Nat)
  /-- LINC_MODE_REQ (R133). A write of LINC_MODE.REQ moves the channel between STOP and RUN after the rate check. -/
  | lincModeReq (t : Nat) (d n v : Nat)
  /-- SER_MODE_REQ (R133). A write of SER_MODE.REQ moves the line between STOP, RUN and LISTEN at the end of the frame in progress. -/
  | serModeReq (t : Nat) (d k v : Nat)
  /-- SER_CHARACTER_RECEIVED (R126). A serial character is received and may end a LENGTH or DELIM frame, which is delivered to router, tap and queue. -/
  | serCharacterReceived (t : Nat) (k : Nat) (c : SerChar)
  /-- SER_GAP_EXPIRY (R126). In GAP mode the line stays idle for GAP half-character times and the frame ends. -/
  | serGapExpiry (t : Nat) (k : Nat)
  /-- SER_TX_REQ (R128). SER_TXB.REQ makes the host buffer pending. -/
  | serTxReq (t : Nat) (d k v : Nat)
  /-- SER_TX_CANCEL (R130). SER_TXB.CANCEL cancels the host buffer, settled against its start stamp. -/
  | serTxCancel (t : Nat) (d k v : Nat)
  /-- SER_RTQ_ENTRY (R128). The router enters a frame into a serial line's router queue, or it is refused back. -/
  | serRtqEntry (t : Nat) (k : Nat) (chars : List Nat)
  /-- SER_TX_START (R128). After TURN_US idle the line asserts DE and starts the pending frame with the earlier enqueue stamp. -/
  | serTxStart (t : Nat) (k : Nat)
  /-- SER_TX_DONE (R129). The last stop bit of a transmitted frame leaves and DE is released after DE_LAG. -/
  | serTxDone (t : Nat) (k : Nat)
  /-- ROUTER_INPUT (R144). A held field-bus input or tunnel message is matched and processed: policy, verification, arrival, maps and destinations. -/
  | routerInput (t : Nat)
  /-- TUNNEL_PDU_RECEIVED (R169). An AVTP PDU arriving on port 34 is accepted by a receive stream or discarded as ACF_BAD, with the sequence check. -/
  | tunnelPduReceived (t : Nat)
  /-- SRT_TIMEOUT (R155). 4 to 20 µs after a route deadline with no counting arrival, the route times out and substitutes its map values. -/
  | srtTimeout (t : Nat) (route : Nat)
  /-- REDUNDANCY_WINDOW_END (R161). 4 to 20 µs after a redundancy set's window end the router decides its delivery. -/
  | redundancyWindowEnd (t : Nat) (route : Nat)
  /-- CYCLIC_TICK (R152). An image route's cyclic tick falls at activation plus k × TX_PERIOD. -/
  | cyclicTick (t : Nat) (route : Nat)
  /-- IMAGE_SEND (R152). A pending image route sends its image once MIN_GAP has passed, clearing the recorded update bits. -/
  | imageSend (t : Nat) (route : Nat)
  /-- PDU_WINDOW_END (R166). 1 µs after a transmit stream's window end the open PDU closes and is handed to port 34. -/
  | pduWindowEnd (t : Nat) (i : Nat)
  /-- SRT_RELEASE (R160). A write of SRT_RELEASE ends a route's hold and names its owner channel. -/
  | srtRelease (t : Nat) (d v : Nat)
  /-- SUPERVISE_ENABLE (R154). SRT_CFG.SUPERVISE going 0 to 1 restarts the deadline of every supervised route that is not TIMED_OUT. -/
  | superviseEnable (t : Nat) (d v : Nat)
  /-- ETH_FRAME_RECEIVED (R177). A frame is received by a MAC, checked for length and FCS, stamped, MACsec-validated and passed to the switch. -/
  | ethFrameReceived (t : Nat) (p : Nat) (f : EthRx) (secEcc : List (Nat × Nat))
  /-- ETH_FRAME_TRANSMITTED (R185). The last bit or fragment of a frame leaves the MAC, giving its transmit stamp. -/
  | ethFrameTransmitted (t : Nat) (p start coll late : Nat)
  /-- ETH_LINK_DOWN (R192). A port reports loss of link, stamps D and enters HOLD. -/
  | ethLinkDown (t : Nat) (p stamp : Nat)
  /-- LINK_UP (R193). A port reports link up, ending a hold in order or entering UP with LATE_LINKUP after a flush. -/
  | linkUp (t : Nat) (p stamp : Nat)
  /-- ETH_HOLD_FLUSH (R194). At X + 4 µs without a counting link-up the port flushes its queues and enters DOWN. -/
  | ethHoldFlush (t : Nat) (p : Nat)
  /-- AGE_CHECK (R197). In HOLD or FROZEN every 100 µs the head frames of the port's queues are checked against their age limits. -/
  | ageCheck (t : Nat) (p : Nat)
  /-- AN_CODE_WORD (R179). An in-band auto-negotiation code word sets speed and duplex or leaves the link down with ETH_AN_FAIL. -/
  | anCodeWord (t : Nat) (p speed : Nat) (full : Bool)
  /-- SQI_REFRESH (R180). Every 1 ms while linked a 100BASE-T1 port refreshes its SQI. -/
  | sqiRefresh (t : Nat) (p sqi : Nat)
  /-- PLCA_STATUS_CHANGE (R183). A 10BASE-T1S port's PLCA status falls to CSMA/CD or returns to PLCA. -/
  | plcaStatusChange (t : Nat) (p : Nat) (ok : Bool)
  /-- MM_VERIFY (R187). A MAC merge verify exchange succeeds or fails, setting preemption ACTIVE or raising VERIFY. -/
  | mmVerify (t : Nat) (p : Nat) (ok : Bool)
  /-- SLEEP_REQ (R189). EPRT_TC10.SLEEP_REQ or the keep-alive engine sends the TC10 sleep request. -/
  | sleepReq (t : Nat) (d p : Nat)
  /-- WAKE_REQ (R189). EPRT_TC10.WAKE_REQ or the keep-alive engine sends the TC10 wake-up pulse and starts training. -/
  | wakeReq (t : Nat) (d p : Nat)
  /-- TC10_SLEEP_RECEIVED (R189). The partner's sleep request is accepted, completing sleep, or ignored and counted. -/
  | tc10SleepReceived (t : Nat) (p : Nat)
  /-- TC10_NACK (R189). 64 ms in SLEEP_PENDING without the partner's reply returns the port to NORMAL. -/
  | tc10Nack (t : Nat) (p : Nat)
  /-- TC10_WAKE (R189). A TC10 wake-up pulse or live-link wake-up request is detected and reported as a wake. -/
  | tc10Wake (t : Nat) (p stamp : Nat)
  /-- TC10_WAKING_TIMEOUT (R189). 200 ms in WAKING without link returns the port to SLEEP. -/
  | tc10WakingTimeout (t : Nat) (p : Nat)
  /-- PIPELINE_ENTRY (R200). A packet is admitted to a pipeline, parsed, matched by Predicates, policed and given its forwarding decision. -/
  | pipelineEntry (t : Nat) (i : Nat) (ecc : List (Nat × Nat)) (corr : Nat) (fdbEcc : List Nat)
  /-- LEARN_APPLY (R241). A queued learn request is applied within 2 µs of the frame's end, relocating entries or stashing when needed. -/
  | learnApply (t : Nat) (i : Nat)
  /-- XLEARN_OFFER_APPLY (R243). An offer from the other database inserts or updates an XLRN entry. -/
  | xlearnOfferApply (t : Nat) (i : Nat)
  /-- AGING_SWEEP_STEP (R248). A sweep step reads and writes back one entry, clearing HIT, removing idle entries or moving stash entries. -/
  | agingSweepStep (t : Nat) (i : Nat)
  /-- SEARCH (R254). FDB window OP SEARCH finds a key. -/
  | search (t : Nat) (d i : Nat)
  /-- NEXT (R254). FDB window OP NEXT finds the first valid entry at or after INDEX passing the filter. -/
  | fdbNext (t : Nat) (d i : Nat)
  /-- INSERT (R254). FDB window OP INSERT inserts a key under R244. -/
  | insert (t : Nat) (d i : Nat)
  /-- DELETE (R254). FDB window OP DELETE removes a key. -/
  | delete (t : Nat) (d i : Nat)
  /-- FLUSH_PORT (R254). FDB window OP FLUSH_PORT removes entries of a port or of all ports. -/
  | flushPort (t : Nat) (d i : Nat)
  /-- REHASH (R252). FDB window OP REHASH clears the standby bank and rebuilds it under the standby seeds with mirroring on. -/
  | rehash (t : Nat) (d i : Nat)
  /-- REHASH_DONE (R252). The rebuild places every entry and sets REBUILT, or ends with FULL. -/
  | rehashDone (t : Nat) (i : Nat)
  /-- HASH (R254). FDB window OP HASH computes both buckets of a key into FDB_WIN_HASH. -/
  | fdbHash (t : Nat) (d i : Nat)
  /-- COPY_ENQUEUE (R266). Each copy of a packet passes admission into its queue, with push-out, cut-through, mirror and sample copies and FRER recovery. -/
  | copyEnqueue (t : Nat) (ecc : List (Nat × Nat)) (corr : Nat)
  /-- SPILL_WRITE_DONE (R273). The last DRAM write of a spilled packet is acknowledged and it moves from T to M. -/
  | spillWriteDone (t : Nat)
  /-- REFILL_DONE (R273). The last cell of a refilled packet is written on chip and it moves from M to H. -/
  | refillDone (t : Nat) (k : Nat) (ecc : Bool)
  /-- FLUSH_RELEASE_DONE (R276). Cells of a flushed queue return to the pool and its spill blocks are freed. -/
  | flushReleaseDone (t : Nat) (k : Nat)
  /-- TRANSMISSION_SELECTION (R291). At a transmission opportunity the port selects an eligible queue's head copy by TSA, gate, guard band and preemption. -/
  | transmissionSelection (t : Nat) (p : Nat) (ecc : Option (Nat × Nat)) (corr : Nat) (secEcc : List (Nat × Nat))
  /-- GATE_EVENT (R297). A gate control list entry starts and applies its GATES and OP. -/
  | gateEvent (t : Nat) (p : Nat) (ecc : Option Nat)
  /-- MAC_HOLD_ASSERT (R302). HOLD_ADV before a Set-And-Hold-MAC entry the MAC merge hold is asserted. -/
  | macHoldAssert (t : Nat) (p : Nat)
  /-- GCL_COMMIT (R303). EGR_GCL_CMD OP COMMIT fixes the change time and change point and makes the port PENDING. -/
  | gclCommit (t : Nat) (d p : Nat)
  /-- GCL_CANCEL (R306). EGR_GCL_CMD OP CANCEL drops a pending list change. -/
  | gclCancel (t : Nat) (d p : Nat)
  /-- GCL_CHANGED (R305). At change point S the banks exchange roles and the new list joins its phase. -/
  | gclChanged (t : Nat) (p : Nat)
  /-- FRER_WINDOW_END (R313). 4 to 20 µs after a set's window end the held members are delivered or discarded. -/
  | frerWindowEnd (t : Nat)
  /-- FRER_RESET (R312). No packet accepted for RESET_MS resets a recovery function to TAKE_ANY. -/
  | frerReset (t : Nat) (f : Nat)
  /-- HOST_TX_FETCH (R429). A RUNNING transmit ring's descriptor and frame are fetched into port 32 or 33 while free cells allow. -/
  | hostTxFetch (t : Nat) (e : Nat) (desc frame : List Nat) (busErr : Bool)
  /-- HOST_RX_DELIVERY (R431). A copy queued to port 32, 33 or 35 is written into a qualifying receive ring, or discarded. -/
  | hostRxDelivery (t : Nat) (p : Nat) (desc : List Nat) (busErr : Bool)
  /-- TX_COMPLETION (R430). A transmit descriptor completes with OK, DROPPED or LEN_ERR, with its stamp when requested. -/
  | txCompletion (t : Nat) (d r : Nat)
  /-- NO_STAMP (R430). No external transmission of a stamped frame within 10 ms completes its descriptor with NO_STAMP. -/
  | noStamp (t : Nat) (d r : Nat)
  /-- DOORBELL (R428). A BAR2 doorbell write sets a RUNNING ring's TAIL. -/
  | doorbell (t : Nat) (d tab r v : Nat)
  /-- COAL_TIMER (R434). COAL_US after the first unsignalled completion the ring sets its vector's latch. -/
  | coalTimer (t : Nat) (d tab r : Nat)
  /-- VEC_EOI (R426). A write of HDOM_VEC_EOI clears ring latches and re-arms vectors, sending a further message if still pending. -/
  | vecEoi (t : Nat) (d v : Nat)
  /-- MSIX_UNMASK (R426). Unmasking an MSI-X entry sends the message its PBA bit held back. -/
  | msixUnmask (t : Nat) (d : Nat) (en : Bool) (mask : Nat)
  /-- BAR4_ACCESS (R454). A BAR4 access reads or writes the host region through HOST0 or HOST1. -/
  | bar4Access (t : Nat) (d o : Nat) (w : Option (List Nat)) (n : Nat) (ecc : Option Nat)
  /-- SPI_READ (R421). SPI READ sends a 24-bit address, waits and returns a token and words. -/
  | spiRead (t : Nat) (d a n : Nat) (early bad fail ecc : Bool)
  /-- QREAD (R421). SPI QREAD is READ on four lines. -/
  | qread (t : Nat) (d a n : Nat) (early bad fail ecc : Bool)
  /-- SPI_WRITE (R422). SPI WRITE places words in the target's 64-word buffer. -/
  | spiWrite (t : Nat) (d a : Nat) (ws : List Nat) (part : Bool)
  /-- QWRITE (R422). SPI QWRITE is WRITE on four lines. -/
  | qwrite (t : Nat) (d a : Nat) (ws : List Nat) (part : Bool)
  /-- SPI_WRITE_WORD (R422). A buffered SPI word is carried out as a 32-bit register write. -/
  | spiWriteWord (t : Nat) (d : Nat) (ecc fail : Bool)
  /-- SPI_STATUS (R423). SPI STATUS returns the status byte and clears ERR. -/
  | spiStatus (t : Nat) (d n : Nat)
  /-- SPI_ID (R420). SPI ID returns GLB_DEVICE. -/
  | spiId (t : Nat) (d : Nat)
  /-- RESET_ENABLE (R420). SPI RESET_ENABLE arms the following RESET. -/
  | resetEnable (t : Nat) (d : Nat)
  /-- SPI_RESET (R438). SPI RESET after RESET_ENABLE resets domain D4 or D5. -/
  | spiReset (t : Nat) (d : Nat)
  /-- FLR (R438). A function-level reset resets the function's domain. -/
  | flr (t : Nat) (d : Nat)
  /-- HOT_RESET (R438). A hot reset of an endpoint resets both its domains. -/
  | hotReset (t : Nat) (e : Nat)
  /-- HDOM_LINK_DOWN (R438). An endpoint link going down resets both its domains and they enter DOWN. -/
  | hdomLinkDown (t : Nat) (e : Nat)
  /-- PCIE_LINK_UP (R443). An endpoint link returns and its DOWN domains become ACTIVE. -/
  | pcieLinkUp (t : Nat) (e : Nat)
  /-- PERST_DEASSERT (R473). PCIEx_PERST_N rising lets the endpoint's link training start. -/
  | perstDeassert (t : Nat) (e : Nat)
  /-- RESET_DONE (R440). RESETTING ends when the domain's outstanding requests settle, raising RESET_DONE and PEER_RESET. -/
  | resetDone (t : Nat) (d : Nat)
  /-- HDOM_WDOG_KICK (R441). A keyed write of HDOM_WDOG_KICK restarts the domain watchdog deadline. -/
  | hdomWdogKick (t : Nat) (d v : Nat)
  /-- HDOM_WDOG (R441). 4 µs after the domain watchdog deadline with no kick the domain resets with CAUSE 3. -/
  | hdomWdog (t : Nat) (d : Nat)
  /-- ACQUIRE (R435). BRK_LOCK OP ACQUIRE grants a free or broken Bracket to the writer or counts contention. -/
  | acquire (t : Nat) (d n : Nat)
  /-- RELEASE (R435). BRK_LOCK OP RELEASE by the holder frees the Bracket, or leaves it BROKEN under a broken grant. -/
  | release (t : Nat) (d n : Nat)
  /-- CLEAR_BROKEN (R436). BRK_LOCK OP CLEAR_BROKEN by the holder clears the broken grant so guarded writes are allowed. -/
  | clearBroken (t : Nat) (d n : Nat)
  /-- RING_WRITE (R326). A record waiting in an input buffer is written into the ring through TRN_W, taking a new segment when needed. -/
  | ringWrite (t : Nat)
  /-- SEGMENT_MAX_AGE (R328). An open segment closes SEG_MAX_MS after it opened. -/
  | segmentMaxAge (t : Nat) (cls : Nat)
  /-- QTRIG (R332). A write of TRN_QTRIG raises a host Quotation trigger, merged or opening a new Quotation. -/
  | qtrig (t : Nat) (d v : Nat)
  /-- HELD_TRIGGER_OFFER (R334). A WAKE_IN quote trigger held from Comma or Period is offered once back in Clause with the Transcript enabled. -/
  | heldTriggerOffer (t : Nat) (input : Nat)
  /-- QUOTATION_WINDOW_CLOSE (R335). At END + 10 ms a Quotation's open segments close and the entry becomes PINNED. -/
  | quotationWindowClose (t : Nat) (entry : Nat)
  /-- CAPSULE_CLOSE (R339). After the window closes the copier writes index, journal, log and header and sets the slot CLOSED. -/
  | capsuleClose (t : Nat)
  /-- QREL (R345). A write of TRN_QREL releases a PINNED Quotation's pins. -/
  | qrel (t : Nat) (d v : Nat)
  /-- XCMD (R343). A write of TRN_XCMD starts exporting a closed segment over PCIe. -/
  | xcmd (t : Nat) (d v : Nat)
  /-- EXPORT_DONE (R343). A segment export finishes and sets DONE or ERROR. -/
  | exportDone (t : Nat) (code : Nat)
  /-- FIND (R331). TRN window OP FIND returns the earliest segment of a class whose LAST is at or after a stamp. -/
  | trnFind (t : Nat) (d : Nat)
  /-- TRN_NEXT (R331). TRN window OP NEXT returns the segment of the same class taken next. -/
  | trnNext (t : Nat) (d : Nat)
  /-- ERASE (R346). MRAM_SLOT.ERASE sets a capsule slot's STATE to EMPTY. -/
  | erase (t : Nat) (d slot : Nat)
  /-- MRAM_WRITE (R340). A write to the MRAM data window is refused and latched in the MRAM control page. -/
  | mramWrite (t : Nat) (d a bits v : Nat)
  /-- NM_CLUSTER_ENABLE (R353). NM_CL_CFG.ENABLE starts a cluster in REPEAT_MESSAGE waking its segments, or stops it. -/
  | nmClusterEnable (t : Nat) (d c v : Nat)
  /-- AWAKE (R353). A write of NM_CL_REQ.AWAKE keeps a cluster awake or releases it towards sleep. -/
  | awake (t : Nat) (d c v : Nat)
  /-- RMR (R353). A write of NM_CL_REQ.RMR puts the cluster in REPEAT_MESSAGE. -/
  | rmr (t : Nat) (d c v : Nat)
  /-- NM_FRAME_SEND (R351). Every NM_CYCLE_MS in REPEAT_MESSAGE and NORMAL the engine queues its NM frame in buffer 2 or skips it. -/
  | nmFrameSend (t : Nat) (c : Nat)
  /-- REPEAT_MESSAGE_END (R353). REPEAT_MS after entry the cluster goes to NORMAL or READY_SLEEP. -/
  | repeatMessageEnd (t : Nat) (c : Nat)
  /-- NM_TIMEOUT (R354). 4 µs after the NM deadline the cluster enters PREPARE_BUS_SLEEP or restarts its deadline. -/
  | nmTimeout (t : Nat) (c : Nat)
  /-- SLEEP_COMMIT (R357). At K + 50 µs every segment of the cluster takes its commit action and the cluster enters COMMITTING. -/
  | sleepCommit (t : Nat) (c : Nat)
  /-- COMMIT_COMPLETE (R358). Every segment is asleep or refused and the cluster enters BUS_SLEEP, waking at once if a wake is latched. -/
  | commitComplete (t : Nat) (c : Nat)
  /-- NM_FALSE_WAKE (R365). 4 µs after the false-wake deadline in CHECK the segments re-arm and the cluster returns to BUS_SLEEP. -/
  | nmFalseWake (t : Nat) (c : Nat)
  /-- NM_OFFENDER (R369). OFF_REPORT_S after an episode start, recent offender entries are marked REPORTED and logged. -/
  | nmOffender (t : Nat) (c : Nat)
  /-- WAKE_IN_EDGE (R366). A filtered WAKE_IN edge wakes its clusters, triggers a Quotation or wakes the device. -/
  | wakeInEdge (t : Nat) (n : Nat) (rising : Bool) (stamp ticks : Nat)
  /-- CAN_WUP (R362). A line-die transceiver in standby detects the wake-up pattern. `stamp`: its wake strobe at the logic die,
  in Period the line die's tick (R360); so too in the two commands below. -/
  | canWup (t : Nat) (n stamp : Nat)
  /-- CAN_WUF (R362). The selective-wake decoder matches a frame against the channel filter. -/
  | canWuf (t : Nat) (n : Nat) (f : CanFrame) (stamp : Nat)
  /-- CAN_ERRCNT (R362). The selective-wake frame error counter exceeds 31 and wakes. -/
  | canErrcnt (t : Nat) (n count stamp : Nat)
  /-- T1S_ACT (R367). COUNT bursts within WINDOW_MS on a sleeping 10BASE-T1S segment wake it. -/
  | t1sAct (t : Nat) (p : Nat) (bursts : List (Nat × Nat))
  /-- GENERATE (R390). Key command GENERATE creates a random key in a slot. -/
  | generate (t : Nat) (d k slot : Nat)
  /-- IMPORT (R390). Key command IMPORT stores a key from the staging table. -/
  | keyImport (t : Nat) (d k slot : Nat)
  /-- DERIVE (R391). Key command DERIVE derives a key from a parent under SP 800-108. -/
  | derive (t : Nat) (d k slot : Nat)
  /-- DESTROY (R393). Key command DESTROY invalidates a slot and zeroises it after earlier uses end. -/
  | destroy (t : Nat) (d k slot : Nat)
  /-- RESTRICT (R390). Key command RESTRICT narrows a key's attributes under a new handle. -/
  | restrict (t : Nat) (d k slot : Nat)
  /-- ATTEST (R395). Key command ATTEST writes a signed statement about a key. -/
  | attest (t : Nat) (d k slot : Nat)
  /-- SIGN (R390). Key command SIGN signs a SHA-256 digest with a P-256 key. -/
  | keySign (t : Nat) (d k slot : Nat)
  /-- PUBKEY (R390). Key command PUBKEY returns a P-256 key's public point. -/
  | pubkey (t : Nat) (d k slot : Nat)
  /-- KEY_CMD_DONE (R388). The shared key engine finishes a command and sets DONE or ERROR in its port. -/
  | keyCmdDone (t : Nat)
  /-- RNG_HEALTH_FAIL (R392). A noise-source health test fails and random-data commands are refused until the next passing test. -/
  | rngHealthFail (t : Nat)
  /-- PROGRAM (R373). OTP_CMD OP PROGRAM burns and verifies one OTP word. -/
  | program (t : Nat) (d : Nat)
  /-- LC_ADVANCE (R377). OTP_CMD OP LC_ADVANCE requests a life-cycle transition taking effect at the next reset. -/
  | lcAdvance (t : Nat) (d target : Nat)
  /-- RETIRE (R383). OTP_CMD OP RETIRE burns the retire byte of a boot configuration generation. -/
  | retire (t : Nat) (d gen : Nat)
  /-- OTP_CMD_DONE (R373). An OTP command completes and sets DONE or ERROR. -/
  | otpCmdDone (t : Nat) (lost : Nat)
  /-- UNLOCK_CHAL (R379). Debug instruction UNLOCK_CHAL reads a 128-bit challenge. -/
  | unlockChal (t : Nat)
  /-- UNLOCK_RESP (R380). Debug instruction UNLOCK_RESP checks an unlock response and on success sets the debug request and resets the device. -/
  | unlockResp (t : Nat) (resp : Nat)
  /-- RETURN_RESP (R380). Debug instruction RETURN_RESP checks a RETURN response and requests the RETURN transition. -/
  | returnResp (t : Nat) (resp : Nat)
  /-- UNLOCK_STAT (R379). Debug instruction UNLOCK_STAT reads the debug, lock-out and life-cycle status. -/
  | unlockStat (t : Nat)
  /-- DEBUG_LC_REQUEST (R377). The debug port requests a life-cycle transition of Table 3. -/
  | debugLcRequest (t : Nat) (target : Nat)
  /-- FRESHNESS_SAVE (R406). Once per second in Clause the PERSIST freshness slots are saved to MRAM. -/
  | freshnessSave (t : Nat)
  /-- TRAINING_DONE (R449). LPDDR5 training ends, setting READY or FAIL with the failing step. -/
  | trainingDone (t : Nat) (step ranks density : Nat)
  /-- RETRAIN (R449). EMC_CFG.RETRAIN repeats training at the current rate. -/
  | retrain (t : Nat) (d : Nat)
  /-- ARBITER_GRANT (R458). When the holder drops its request the arbiter grants the oldest pending request. -/
  | arbiterGrant (t : Nat) (clocks : Nat) (raised : List (Nat × Nat)) (withdrawn : List Nat) (bytes : Nat) (ecc : List Nat) (corr : Nat)
  /-- EMC_HOG (R460). A grant held HOG_LIMIT clocks is cut off after its burst. -/
  | emcHog (t : Nat) (clocks bytes : Nat) (again : Bool)
  /-- REFRESH (R459). At the postponement limit REFRESH takes the bus from the holder for at most 16 clocks. -/
  | refresh (t : Nat) (clocks rate : Nat)
  /-- SCRUB_LINE (R451). In an idle memory clock the scrubber reads a line and writes back a corrected one. -/
  | scrubLine (t : Nat) (line err : Nat)
  /-- EMC_TEMP (R459). The DRAM reports a temperature beyond the four-times refresh rate. -/
  | emcTemp (t : Nat) (rate : Nat)
  /-- LINE_DIE_POR (R469). VBAT rises through the power-on threshold and the line die starts a cold start with the FRC at 0. -/
  | lineDiePor (t : Nat)
  /-- SYS_RESET_N (R551). SYS_RESET_N held low for 1 µs starts cause 4. -/
  | sysResetN (t : Nat) (ns : Nat)
  /-- GLB_RESET (R467). A keyed write of GLB_RESET by a secure owner hands over the FRC and resets the logic die with cause 5. -/
  | glbReset (t : Nat) (d v : Nat)
  /-- PG_ALL_GOOD (R488). All three power-good inputs rise within budget and the logic-die reset is released. -/
  | pgAllGood (t : Nat)
  /-- LOGIC_DIE_RESET_RELEASE (R470). Step 4 checks the reference, locks the fabric PLL, loads OTP and selects the boot generation. -/
  | logicDieResetRelease (t : Nat) (ref pll : Bool) (bad : List Nat) (corr lost crg : Nat)
  /-- REF_CHECK (R470). Every 1 ms while the 25 MHz reference is invalid at power-good it is checked again. -/
  | refCheck (t : Nat) (ref pll : Bool) (bad : List Nat) (corr lost crg : Nat)
  /-- SELF_TEST_DONE (R471). The self-test phases end, entering completion and READY or the Interjection state. -/
  | selfTestDone (t : Nat) (found rows : Nat)
  /-- INTERJECTION_STATUS_FRAME (R482). Every 100 ms in the Interjection state a status frame of the failure bitmap is queued on the diagnostic channel. -/
  | interjectionStatusFrame (t : Nat)
  /-- PG_TIMEOUT (R488). 5 ms after PMIC_EN without all power-good inputs, PMIC_EN is deasserted and a retry or FAULT follows. -/
  | pgTimeout (t : Nat)
  /-- PMIC_OFF_ELAPSED (R488). PMIC_OFF_MS after deassertion PMIC_EN is asserted again if a start is pending. -/
  | pmicOffElapsed (t : Nat)
  /-- PG_LOST (R488). A power-good input falls outside a commanded power-down, holding the logic die in reset and starting cause 3. -/
  | pgLost (t : Nat)
  /-- VCC5_UV (R489). VCC5 falls below 4.5 V and the transceivers of channels 0-15 stop driving dominant. -/
  | vcc5Uv (t : Nat)
  /-- VCC5_RECOVERY (R489). VCC5 stays at or above 4.6 V for 1 ms and normal drive resumes. -/
  | vcc5Recovery (t : Nat)
  /-- VBAT_SAMPLE (R490). Every 1 ms the line die measures VBAT and VBAT_SNS and acts on the thresholds. -/
  | vbatSample (t : Nat) (vbat sns : Nat)
  /-- CRG_REF_LOST (R492). Loss of the 25 MHz reference or of a PLL lock power-cycles the logic die. -/
  | crgRefLost (t : Nat) (pll : Bool)
  /-- CRG_X32K_FAIL (R493). The 32.768 kHz crystal stops and the line die switches to the internal RC. -/
  | crgX32kFail (t : Nat)
  /-- COMMA_REQUEST (R496). A PWR_REQ for Comma is accepted, fixing commit point M, or refused. -/
  | commaRequest (t : Nat) (d : Nat)
  /-- PERIOD_REQUEST (R497). A PWR_REQ for Period is accepted and the entry sequence runs to the FRC handover, or is refused. -/
  | periodRequest (t : Nat) (d : Nat) (force : Bool)
  /-- AUTO_POWER_REQUEST (R495). LOW_POWER_OK held for AUTO_DELAY_MS makes the device request Comma or Period itself. -/
  | autoPowerRequest (t : Nat)
  /-- COMMA_ENTRY (R496). At M + 50 µs controllers stop, ports flush, DRAM enters self-refresh and PLLs stop. -/
  | commaEntry (t : Nat)
  /-- PERIOD_ENTRY (R497). After the handover the logic die asserts reset and the line die deasserts PMIC_EN. -/
  | periodEntry (t : Nat)
  /-- COMMA_EXIT (R479). An exit source ends Comma: PLL relock, DRAM recalibration and resumption within 2 ms. -/
  | commaExit (t : Nat)
  /-- PERIOD_EXIT (R478). A wake or timer in Period starts the logic die with cause 2. -/
  | periodExit (t : Nat)
  /-- HOST_ACCESS_WAKE (R498). A PCIe L1 exit or SPI chip-select in Comma ends Comma or aborts its entry. -/
  | hostAccessWake (t : Nat) (src stamp : Nat)
  /-- WAKE_TIMER (R498). PWR_TIMER fires SECONDS after the commit point and wakes the device. -/
  | wakeTimer (t : Nat)
  /-- POWER_FAIL (R500). VBAT or VBAT_SNS below THR_MV for FILT_US declares power-fail at P and starts the last gasp. -/
  | powerFail (t : Nat) (P : Nat)
  /-- LAST_GASP_COMPLETE (R502). The capsule and freshness commits end, the FRC is handed over and PMIC_EN falls into PF_HOLD. -/
  | lastGaspComplete (t : Nat)
  /-- VBAT_RECOVERY (R501). Both supplies above THR_MV + 1 V for RESTART × 10 ms restart the logic die from PF_HOLD. -/
  | vbatRecovery (t : Nat)
  /-- FAULT_REPORT (R505). A block's report is accepted into the log, merged or stored, and sent to FIFO, interrupt, pin, Transcript and Quotation. -/
  | faultReport (t : Nat) (page : Nat)
  /-- LOG_PARITY (R514). A configuration register parity error reloads the register's reset value. -/
  | logParity (t : Nat) (page off : Nat)
  /-- CLEAR (R509). LOG_CLEAR.CLEAR removes the entries accepted at or before the write. -/
  | logClear (t : Nat) (d : Nat)
  /-- PIN_ACK (R511). LOG_CLEAR.PIN_ACK releases FAULT_N outside the Interjection state. -/
  | pinAck (t : Nat) (d : Nat)
  /-- LOG_WDOG_KICK (R516). A keyed write of LOG_WDOG_KICK restarts the device watchdog. -/
  | logWdogKick (t : Nat) (d v : Nat)
  /-- LOG_WDOG_WARN (R515). 4 µs after D1 with no kick the watchdog enters WARNED. -/
  | logWdogWarn (t : Nat)
  /-- LOG_WDOG_RESET (R515). 4 µs after D2 with no kick the device records LOG_WDOG_RESET and starts cause 5. -/
  | logWdogReset (t : Nat)
  /-- PDELAY_REQ_RECEIVED (R70). A peer's pdelay request arrives on a port with link delay measurement on, and the engine answers it as the peer-to-peer mean link delay service requires. -/
  | pdelayReqReceived (t : Nat) (port seq ingress : Nat)
  /-- RNG_HEALTH_RECOVERY (R392). A noise-source health test passes again after a failure, and commands needing random data and the unlock challenge work again. -/
  | rngHealthRecovery (t : Nat)
  /-- DEBUG_MEMORY_ACCESS (R459). While debug is enabled, a memory access by the debug port takes the LPDDR5 bus from the holder for at most 8 clocks and counts in DEBUG_PREEMPT. -/
  | debugMemoryAccess (t : Nat) (a : Nat) (w : Option (List Nat)) (n : Nat)
  /-- BUS_MASTER_ENABLE (R419). A PCIe configuration write of a function's Bus Master Enable stops its rings from fetching when cleared, and lets them fetch again when set, without a domain reset. -/
  | busMasterEnable (t : Nat) (d : Nat) (on : Bool)
  /-- X32K_START (R548). After a line-die power-on reset the 32.768 kHz crystal begins to oscillate, and the line die moves from the internal RC to the crystal. -/
  | x32kStart (t : Nat)
deriving DecidableEq, Repr

end Sys2Proof
end

