-- ==== Sys2Proof/Machine/RegMap.lean ====
section
/-!
DEFINITION. The register map of the ZF6240 as its chapters print it: for every block-specific register its page offset,
instance stride and count, reset word and access masks (R6, R28, and the register table of each chapter), and one field
descriptor for every field that has a name. A reset column that reads "From start", "From OTP", "From MRAM", "From line
die", "From system area" or "—" is 0 here: the start writes it (notes/assumptions/3.md).
-/

namespace Sys2Proof.Machine

/-! ### Common header and window (Tables 2 to 16 of *Register Space and Page Layout*) -/

abbrev Reg.CTRL : Nat := 0x008
abbrev Reg.STATUS : Nat := 0x00C
abbrev Reg.IRQ_RAW : Nat := 0x010
abbrev Reg.IRQ_STAT : Nat := 0x014
abbrev Reg.IRQ_EN : Nat := 0x018
abbrev Reg.IRQ_TEST : Nat := 0x01C
abbrev Reg.IRQ_ROUTE : Nat := 0x020
abbrev Reg.OWNER : Nat := 0x024
abbrev Reg.ERR_CODE : Nat := 0x028
abbrev Reg.ERR_STAMP_LO : Nat := 0x02C
abbrev Reg.ERR_STAMP_HI : Nat := 0x030
abbrev Reg.CNT_CTRL : Nat := 0x034
abbrev Reg.CNT_STAMP_LO : Nat := 0x038
abbrev Reg.CNT_STAMP_HI : Nat := 0x03C
abbrev Reg.WIN_ADDR : Nat := 0xC00
abbrev Reg.WIN_DATA : Nat := 0xC04
abbrev Reg.WIN_CMD : Nat := 0xC24
abbrev Reg.WIN_CMD_STATUS : Nat := 0xC28
abbrev Fd.CTRL_ENABLE : Fld := ⟨0x008, 0, 1⟩
abbrev Fd.CTRL_SOFT_RESET : Fld := ⟨0x008, 1, 1⟩
abbrev Fd.CTRL_FREEZE : Fld := ⟨0x008, 2, 1⟩
abbrev Fd.CTRL_COMMIT : Fld := ⟨0x008, 3, 1⟩
abbrev Fd.STATUS_ENABLED : Fld := ⟨0x00C, 0, 1⟩
abbrev Fd.STATUS_RESET_BUSY : Fld := ⟨0x00C, 1, 1⟩
abbrev Fd.STATUS_FROZEN : Fld := ⟨0x00C, 2, 1⟩
abbrev Fd.STATUS_COMMIT_PENDING : Fld := ⟨0x00C, 3, 1⟩
abbrev Fd.STATUS_DRAINING : Fld := ⟨0x00C, 4, 1⟩
abbrev Fd.STATUS_ORPHANED : Fld := ⟨0x00C, 5, 1⟩
abbrev Fd.STATUS_REHASH_REQ : Fld := ⟨0x00C, 8, 1⟩
abbrev Fd.STATUS_REBUILT : Fld := ⟨0x00C, 9, 1⟩
abbrev Fd.STATUS_REBUILD : Fld := ⟨0x00C, 10, 2⟩
abbrev Fd.IRQ_ROUTE_EN : Fld := ⟨0x020, 31, 1⟩
abbrev Fd.IRQ_ROUTE_VECTOR : Fld := ⟨0x020, 8, 8⟩
abbrev Fd.IRQ_ROUTE_DOMAIN : Fld := ⟨0x020, 0, 3⟩
abbrev Fd.OWNER_DOMAIN : Fld := ⟨0x024, 0, 3⟩
abbrev Fd.OWNER_UNOWNED : Fld := ⟨0x024, 3, 1⟩
abbrev Fd.OWNER_ORPHANED : Fld := ⟨0x024, 5, 1⟩
abbrev Fd.OWNER_LOCKED : Fld := ⟨0x024, 6, 1⟩
abbrev Fd.ERR_VALID : Fld := ⟨0x028, 31, 1⟩
abbrev Fd.ERR_OVERRUN : Fld := ⟨0x028, 30, 1⟩
abbrev Fd.ERR_SRC_DOMAIN : Fld := ⟨0x028, 16, 3⟩
abbrev Fd.ERR_CODE : Fld := ⟨0x028, 0, 16⟩
abbrev Fd.CNT_BUSY : Fld := ⟨0x034, 2, 1⟩
abbrev Fd.WIN_BANK : Fld := ⟨0xC00, 31, 1⟩
abbrev Fd.WIN_TABLE : Fld := ⟨0xC00, 24, 4⟩
abbrev Fd.WIN_INDEX : Fld := ⟨0xC00, 0, 24⟩
abbrev Fd.WIN_ERR : Fld := ⟨0xC28, 8, 8⟩
abbrev Fd.WIN_ERROR : Fld := ⟨0xC28, 2, 1⟩
abbrev Fd.WIN_DONE : Fld := ⟨0xC28, 1, 1⟩
abbrev Fd.WIN_BUSY : Fld := ⟨0xC28, 0, 1⟩

/-! ### Block-specific registers and their fields -/

abbrev Reg.GLB_DEVICE : Nat := 0x040
abbrev Fd.GLB_DEVICE_SILICON : Fld := ⟨0x040, 24, 8⟩
abbrev Fd.GLB_DEVICE_FAMILY : Fld := ⟨0x040, 16, 8⟩
abbrev Fd.GLB_DEVICE_PART : Fld := ⟨0x040, 0, 16⟩
abbrev Reg.GLB_WHOAMI : Nat := 0x044
abbrev Fd.GLB_WHOAMI_WORLD : Fld := ⟨0x044, 3, 1⟩
abbrev Fd.GLB_WHOAMI_DOMAIN : Fld := ⟨0x044, 0, 3⟩
abbrev Reg.GLB_MAP_VER : Nat := 0x048
abbrev Fd.GLB_MAP_VER_MAP : Fld := ⟨0x048, 0, 16⟩
abbrev Reg.TIME_CFG : Nat := 0x040
abbrev Fd.TIME_CFG_JNL_COPY : Fld := ⟨0x040, 1, 1⟩
abbrev Fd.TIME_CFG_REARM_SECURE : Fld := ⟨0x040, 0, 1⟩
abbrev Reg.TIME_FRC_STATE : Nat := 0x044
abbrev Fd.TIME_FRC_STATE_ABRUPT_LAST : Fld := ⟨0x044, 2, 1⟩
abbrev Fd.TIME_FRC_STATE_SRC_RC : Fld := ⟨0x044, 1, 1⟩
abbrev Fd.TIME_FRC_STATE_COMMA : Fld := ⟨0x044, 0, 1⟩
abbrev Reg.TIME_FRC_LO : Nat := 0x048
abbrev Fd.TIME_FRC_LO_STAMP_LO : Fld := ⟨0x048, 0, 32⟩
abbrev Reg.TIME_FRC_HI : Nat := 0x04C
abbrev Fd.TIME_FRC_HI_STAMP_HI : Fld := ⟨0x04C, 0, 32⟩
abbrev Reg.TIME_FRC_FRAC : Nat := 0x050
abbrev Fd.TIME_FRC_FRAC_FRAC : Fld := ⟨0x050, 0, 16⟩
abbrev Reg.TIME_EPOCH : Nat := 0x054
abbrev Fd.TIME_EPOCH_EPOCH : Fld := ⟨0x054, 0, 32⟩
abbrev Reg.TIME_SNAP_CTRL : Nat := 0x058
abbrev Fd.TIME_SNAP_CTRL_GO : Fld := ⟨0x058, 0, 1⟩
abbrev Reg.TIME_SNAP_FRC_LO : Nat := 0x05C
abbrev Fd.TIME_SNAP_FRC_LO_STAMP_LO : Fld := ⟨0x05C, 0, 32⟩
abbrev Reg.TIME_SNAP_FRC_HI : Nat := 0x060
abbrev Fd.TIME_SNAP_FRC_HI_STAMP_HI : Fld := ⟨0x060, 0, 32⟩
abbrev Reg.TIME_SNAP_FRC_FRAC : Nat := 0x064
abbrev Fd.TIME_SNAP_FRC_FRAC_FRAC : Fld := ⟨0x064, 0, 16⟩
abbrev Reg.TIME_REARM : Nat := 0x070
abbrev Fd.TIME_REARM_KEY : Fld := ⟨0x070, 16, 16⟩
abbrev Fd.TIME_REARM_VIEW : Fld := ⟨0x070, 0, 3⟩
abbrev Reg.TIME_JNL_STATUS : Nat := 0x074
abbrev Fd.TIME_JNL_STATUS_SEQ : Fld := ⟨0x074, 16, 16⟩
abbrev Fd.TIME_JNL_STATUS_WRAPPED : Fld := ⟨0x074, 10, 1⟩
abbrev Fd.TIME_JNL_STATUS_HEAD : Fld := ⟨0x074, 0, 10⟩
abbrev Reg.TIME_JNL_COPY : Nat := 0x078
abbrev Fd.TIME_JNL_COPY_NEXT : Fld := ⟨0x078, 0, 10⟩
abbrev Reg.TIME_CTM_CFG : Nat := 0x080
abbrev Fd.TIME_CTM_CFG_IDE : Fld := ⟨0x080, 10, 1⟩
abbrev Fd.TIME_CTM_CFG_VIEW : Fld := ⟨0x080, 7, 3⟩
abbrev Fd.TIME_CTM_CFG_CHANNEL : Fld := ⟨0x080, 2, 5⟩
abbrev Fd.TIME_CTM_CFG_ENABLE : Fld := ⟨0x080, 0, 1⟩
abbrev Reg.TIME_CTM_ID : Nat := 0x084
abbrev Fd.TIME_CTM_ID_ID : Fld := ⟨0x084, 0, 29⟩
abbrev Reg.TIME_CTM_PERIOD : Nat := 0x088
abbrev Fd.TIME_CTM_PERIOD_PERIOD_US : Fld := ⟨0x088, 0, 32⟩
abbrev Reg.TIME_CTM_STATUS : Nat := 0x08C
abbrev Fd.TIME_CTM_STATUS_PENDING : Fld := ⟨0x08C, 4, 1⟩
abbrev Fd.TIME_CTM_STATUS_SEQ : Fld := ⟨0x08C, 0, 4⟩
abbrev Reg.TIME_VIEW_CFG : Nat := 0x100
abbrev Fd.TIME_VIEW_CFG_SLEW : Fld := ⟨0x100, 16, 16⟩
abbrev Fd.TIME_VIEW_CFG_SOURCE : Fld := ⟨0x100, 1, 1⟩
abbrev Fd.TIME_VIEW_CFG_ENABLE : Fld := ⟨0x100, 0, 1⟩
abbrev Reg.TIME_VIEW_STATE : Nat := 0x104
abbrev Fd.TIME_VIEW_STATE_HOLDOVER : Fld := ⟨0x104, 3, 1⟩
abbrev Fd.TIME_VIEW_STATE_STEPPED : Fld := ⟨0x104, 2, 1⟩
abbrev Fd.TIME_VIEW_STATE_ARMED : Fld := ⟨0x104, 1, 1⟩
abbrev Fd.TIME_VIEW_STATE_ENABLED : Fld := ⟨0x104, 0, 1⟩
abbrev Reg.TIME_VIEW_RATE : Nat := 0x108
abbrev Fd.TIME_VIEW_RATE_PPB : Fld := ⟨0x108, 0, 32⟩
abbrev Reg.TIME_VIEW_RATE_HI : Nat := 0x10C
abbrev Fd.TIME_VIEW_RATE_HI_PPB_HI : Fld := ⟨0x10C, 0, 8⟩
abbrev Reg.TIME_VIEW_DELTA_LO : Nat := 0x110
abbrev Fd.TIME_VIEW_DELTA_LO_NS_LO : Fld := ⟨0x110, 0, 32⟩
abbrev Reg.TIME_VIEW_DELTA_HI : Nat := 0x114
abbrev Fd.TIME_VIEW_DELTA_HI_NS_HI : Fld := ⟨0x114, 0, 32⟩
abbrev Reg.TIME_VIEW_DELTA_FRAC : Nat := 0x118
abbrev Fd.TIME_VIEW_DELTA_FRAC_FRAC : Fld := ⟨0x118, 0, 16⟩
abbrev Reg.TIME_VIEW_CMD : Nat := 0x11C
abbrev Fd.TIME_VIEW_CMD_OP : Fld := ⟨0x11C, 0, 4⟩
abbrev Reg.TIME_VIEW_JUMP_THR : Nat := 0x120
abbrev Fd.TIME_VIEW_JUMP_THR_NS : Fld := ⟨0x120, 0, 32⟩
abbrev Reg.TIME_VIEW_APPLIED : Nat := 0x124
abbrev Fd.TIME_VIEW_APPLIED_PPB : Fld := ⟨0x124, 0, 32⟩
abbrev Reg.TIME_VIEW_APPLIED_HI : Nat := 0x128
abbrev Fd.TIME_VIEW_APPLIED_HI_PPB_HI : Fld := ⟨0x128, 0, 8⟩
abbrev Reg.TIME_VIEW_SNAP_LO : Nat := 0x130
abbrev Fd.TIME_VIEW_SNAP_LO_NS_LO : Fld := ⟨0x130, 0, 32⟩
abbrev Reg.TIME_VIEW_SNAP_HI : Nat := 0x134
abbrev Fd.TIME_VIEW_SNAP_HI_NS_HI : Fld := ⟨0x134, 0, 32⟩
abbrev Reg.TIME_VIEW_SNAP_FRAC : Nat := 0x138
abbrev Fd.TIME_VIEW_SNAP_FRAC_FRAC : Fld := ⟨0x138, 0, 16⟩
abbrev Reg.GPTP_CFG : Nat := 0x040
abbrev Fd.GPTP_CFG_MIRROR_HW : Fld := ⟨0x040, 1, 1⟩
abbrev Fd.GPTP_CFG_TRAP_PORT : Fld := ⟨0x040, 0, 1⟩
abbrev Reg.GPTP_INST_CFG : Nat := 0x100
abbrev Fd.GPTP_INST_CFG_SYNC_TIMEOUT : Fld := ⟨0x100, 20, 4⟩
abbrev Fd.GPTP_INST_CFG_LOG_SYNC : Fld := ⟨0x100, 16, 4⟩
abbrev Fd.GPTP_INST_CFG_DOMAIN_NUM : Fld := ⟨0x100, 8, 7⟩
abbrev Fd.GPTP_INST_CFG_GM : Fld := ⟨0x100, 1, 1⟩
abbrev Fd.GPTP_INST_CFG_ENABLE : Fld := ⟨0x100, 0, 1⟩
abbrev Reg.GPTP_INST_SERVO : Nat := 0x104
abbrev Fd.GPTP_INST_SERVO_KI_SHIFT : Fld := ⟨0x104, 8, 8⟩
abbrev Fd.GPTP_INST_SERVO_KP_SHIFT : Fld := ⟨0x104, 0, 8⟩
abbrev Reg.GPTP_INST_STATE : Nat := 0x108
abbrev Fd.GPTP_INST_STATE_SLAVE_PORT : Fld := ⟨0x108, 8, 5⟩
abbrev Fd.GPTP_INST_STATE_HOLDOVER : Fld := ⟨0x108, 1, 1⟩
abbrev Fd.GPTP_INST_STATE_SYNC_TIMEOUT : Fld := ⟨0x108, 0, 1⟩
abbrev Reg.GPTP_INST_OFFSET : Nat := 0x10C
abbrev Fd.GPTP_INST_OFFSET_NS : Fld := ⟨0x10C, 0, 32⟩
abbrev Reg.GPTP_INST_RATIO : Nat := 0x110
abbrev Fd.GPTP_INST_RATIO_PPB : Fld := ⟨0x110, 0, 32⟩
abbrev Reg.CANC_CFG : Nat := 0x040
abbrev Fd.CANC_CFG_TX_RETRY : Fld := ⟨0x040, 28, 4⟩
abbrev Fd.CANC_CFG_TX_ECHO : Fld := ⟨0x040, 15, 1⟩
abbrev Fd.CANC_CFG_TO_ROUTER : Fld := ⟨0x040, 14, 1⟩
abbrev Fd.CANC_CFG_RXQ_UNMATCHED : Fld := ⟨0x040, 13, 1⟩
abbrev Fd.CANC_CFG_TX_ORDER : Fld := ⟨0x040, 12, 1⟩
abbrev Fd.CANC_CFG_BOFF_ABORT : Fld := ⟨0x040, 11, 1⟩
abbrev Fd.CANC_CFG_AUTO_RECOVER : Fld := ⟨0x040, 10, 1⟩
abbrev Fd.CANC_CFG_PEX : Fld := ⟨0x040, 9, 1⟩
abbrev Fd.CANC_CFG_XL_EN : Fld := ⟨0x040, 8, 1⟩
abbrev Fd.CANC_CFG_FD_EN : Fld := ⟨0x040, 7, 1⟩
abbrev Reg.CANC_MODE : Nat := 0x044
abbrev Fd.CANC_MODE_NM_HELD : Fld := ⟨0x044, 15, 1⟩
abbrev Fd.CANC_MODE_RECOVER : Fld := ⟨0x044, 12, 1⟩
abbrev Fd.CANC_MODE_CUR : Fld := ⟨0x044, 8, 4⟩
abbrev Fd.CANC_MODE_REQ : Fld := ⟨0x044, 0, 4⟩
abbrev Reg.CANC_NBTIM : Nat := 0x048
abbrev Fd.CANC_NBTIM_NBRP : Fld := ⟨0x048, 24, 8⟩
abbrev Fd.CANC_NBTIM_NTSEG1 : Fld := ⟨0x048, 16, 8⟩
abbrev Fd.CANC_NBTIM_NTSEG2 : Fld := ⟨0x048, 9, 7⟩
abbrev Fd.CANC_NBTIM_NSJW : Fld := ⟨0x048, 2, 7⟩
abbrev Reg.CANC_DBTIM : Nat := 0x04C
abbrev Fd.CANC_DBTIM_DBRP : Fld := ⟨0x04C, 27, 5⟩
abbrev Fd.CANC_DBTIM_DTSEG1 : Fld := ⟨0x04C, 21, 6⟩
abbrev Fd.CANC_DBTIM_DTSEG2 : Fld := ⟨0x04C, 16, 5⟩
abbrev Fd.CANC_DBTIM_DSJW : Fld := ⟨0x04C, 11, 5⟩
abbrev Reg.CANC_XBTIM : Nat := 0x050
abbrev Fd.CANC_XBTIM_DBRP : Fld := ⟨0x050, 27, 5⟩
abbrev Fd.CANC_XBTIM_DTSEG1 : Fld := ⟨0x050, 21, 6⟩
abbrev Fd.CANC_XBTIM_DTSEG2 : Fld := ⟨0x050, 16, 5⟩
abbrev Fd.CANC_XBTIM_DSJW : Fld := ⟨0x050, 11, 5⟩
abbrev Reg.CANC_TDC : Nat := 0x054
abbrev Fd.CANC_TDC_XTDC_EN : Fld := ⟨0x054, 31, 1⟩
abbrev Fd.CANC_TDC_XTDCO : Fld := ⟨0x054, 24, 7⟩
abbrev Fd.CANC_TDC_TDC_EN : Fld := ⟨0x054, 15, 1⟩
abbrev Fd.CANC_TDC_TDCO : Fld := ⟨0x054, 8, 7⟩
abbrev Reg.CANC_TDC_STAT : Nat := 0x058
abbrev Fd.CANC_TDC_STAT_TDC_SAT : Fld := ⟨0x058, 15, 1⟩
abbrev Fd.CANC_TDC_STAT_XTDCV : Fld := ⟨0x058, 8, 7⟩
abbrev Fd.CANC_TDC_STAT_TDCV : Fld := ⟨0x058, 0, 7⟩
abbrev Reg.CANC_XLCFG : Nat := 0x05C
abbrev Fd.CANC_XLCFG_PWMO : Fld := ⟨0x05C, 18, 6⟩
abbrev Fd.CANC_XLCFG_PWML : Fld := ⟨0x05C, 12, 6⟩
abbrev Fd.CANC_XLCFG_PWMS : Fld := ⟨0x05C, 6, 6⟩
abbrev Fd.CANC_XLCFG_ERR_SIG : Fld := ⟨0x05C, 1, 1⟩
abbrev Fd.CANC_XLCFG_FAST_EN : Fld := ⟨0x05C, 0, 1⟩
abbrev Reg.CANC_ERR : Nat := 0x060
abbrev Fd.CANC_ERR_LEC : Fld := ⟨0x060, 24, 3⟩
abbrev Fd.CANC_ERR_STATE : Fld := ⟨0x060, 20, 2⟩
abbrev Fd.CANC_ERR_REC : Fld := ⟨0x060, 8, 8⟩
abbrev Fd.CANC_ERR_TEC : Fld := ⟨0x060, 0, 8⟩
abbrev Reg.CANC_EWL : Nat := 0x064
abbrev Fd.CANC_EWL_REC_WARN : Fld := ⟨0x064, 8, 8⟩
abbrev Fd.CANC_EWL_TEC_WARN : Fld := ⟨0x064, 0, 8⟩
abbrev Reg.CANC_OBJ_RANGE : Nat := 0x068
abbrev Fd.CANC_OBJ_RANGE_COUNT : Fld := ⟨0x068, 16, 14⟩
abbrev Fd.CANC_OBJ_RANGE_BASE : Fld := ⟨0x068, 0, 13⟩
abbrev Reg.CANC_RXQ : Nat := 0x06C
abbrev Fd.CANC_RXQ_WORD : Fld := ⟨0x06C, 0, 32⟩
abbrev Reg.CANC_RXQ_STAT : Nat := 0x070
abbrev Fd.CANC_RXQ_STAT_LEVEL : Fld := ⟨0x070, 0, 8⟩
abbrev Reg.CANC_TXB_CMD : Nat := 0x074
abbrev Fd.CANC_TXB_CMD_CANCEL : Fld := ⟨0x074, 8, 3⟩
abbrev Fd.CANC_TXB_CMD_REQ : Fld := ⟨0x074, 0, 3⟩
abbrev Reg.CANC_TXB_STAT : Nat := 0x078
abbrev Fd.CANC_TXB_STAT_STATE2 : Fld := ⟨0x078, 8, 4⟩
abbrev Fd.CANC_TXB_STAT_STATE1 : Fld := ⟨0x078, 4, 4⟩
abbrev Fd.CANC_TXB_STAT_STATE0 : Fld := ⟨0x078, 0, 4⟩
abbrev Reg.CANC_RTQ_STAT : Nat := 0x07C
abbrev Fd.CANC_RTQ_STAT_FULL : Fld := ⟨0x07C, 8, 1⟩
abbrev Fd.CANC_RTQ_STAT_LEVEL : Fld := ⟨0x07C, 0, 6⟩
abbrev Reg.CANC_CLASH_ID : Nat := 0x080
abbrev Fd.CANC_CLASH_ID_VALID : Fld := ⟨0x080, 31, 1⟩
abbrev Fd.CANC_CLASH_ID_IDE : Fld := ⟨0x080, 30, 1⟩
abbrev Fd.CANC_CLASH_ID_ID : Fld := ⟨0x080, 0, 29⟩
abbrev Reg.CANC_CLASH_STAMP_LO : Nat := 0x084
abbrev Fd.CANC_CLASH_STAMP_LO_STAMP_LO : Fld := ⟨0x084, 0, 32⟩
abbrev Reg.CANC_CLASH_STAMP_HI : Nat := 0x088
abbrev Fd.CANC_CLASH_STAMP_HI_STAMP_HI : Fld := ⟨0x088, 0, 32⟩
abbrev Reg.CANC_ARD_CFG : Nat := 0x08C
abbrev Fd.CANC_ARD_CFG_DWELL_MS : Fld := ⟨0x08C, 16, 10⟩
abbrev Fd.CANC_ARD_CFG_MATCH : Fld := ⟨0x08C, 12, 4⟩
abbrev Fd.CANC_ARD_CFG_ROUNDS : Fld := ⟨0x08C, 8, 4⟩
abbrev Fd.CANC_ARD_CFG_THEN : Fld := ⟨0x08C, 4, 1⟩
abbrev Fd.CANC_ARD_CFG_LAST : Fld := ⟨0x08C, 0, 3⟩
abbrev Reg.CANC_ARD_STATUS : Nat := 0x090
abbrev Fd.CANC_ARD_STATUS_FAIL : Fld := ⟨0x090, 8, 1⟩
abbrev Fd.CANC_ARD_STATUS_LOCKED : Fld := ⟨0x090, 7, 1⟩
abbrev Fd.CANC_ARD_STATUS_INDEX : Fld := ⟨0x090, 0, 3⟩
abbrev Reg.LINC_CFG : Nat := 0x040
abbrev Fd.LINC_CFG_AUTO_SYNC : Fld := ⟨0x040, 8, 1⟩
abbrev Fd.LINC_CFG_TO_ROUTER : Fld := ⟨0x040, 7, 1⟩
abbrev Fd.LINC_CFG_IDLE_SLEEP : Fld := ⟨0x040, 6, 1⟩
abbrev Fd.LINC_CFG_ROLE : Fld := ⟨0x040, 0, 2⟩
abbrev Reg.LINC_BAUD : Nat := 0x044
abbrev Fd.LINC_BAUD_DIV : Fld := ⟨0x044, 4, 17⟩
abbrev Fd.LINC_BAUD_FRAC : Fld := ⟨0x044, 0, 4⟩
abbrev Reg.LINC_TIMING : Nat := 0x048
abbrev Fd.LINC_TIMING_BREAK : Fld := ⟨0x048, 24, 5⟩
abbrev Fd.LINC_TIMING_RESP_PCT : Fld := ⟨0x048, 16, 8⟩
abbrev Fd.LINC_TIMING_WAKE_US : Fld := ⟨0x048, 0, 16⟩
abbrev Reg.LINC_MODE : Nat := 0x04C
abbrev Fd.LINC_MODE_WAKE : Fld := ⟨0x04C, 12, 1⟩
abbrev Fd.LINC_MODE_CUR : Fld := ⟨0x04C, 8, 4⟩
abbrev Fd.LINC_MODE_REQ : Fld := ⟨0x04C, 0, 4⟩
abbrev Reg.LINC_SCHED : Nat := 0x050
abbrev Fd.LINC_SCHED_CUR : Fld := ⟨0x050, 16, 1⟩
abbrev Fd.LINC_SCHED_POS : Fld := ⟨0x050, 4, 6⟩
abbrev Fd.LINC_SCHED_SWITCH : Fld := ⟨0x050, 1, 1⟩
abbrev Fd.LINC_SCHED_GO : Fld := ⟨0x050, 0, 1⟩
abbrev Reg.LINC_RXQ : Nat := 0x054
abbrev Fd.LINC_RXQ_WORD : Fld := ⟨0x054, 0, 32⟩
abbrev Reg.LINC_RXQ_STAT : Nat := 0x058
abbrev Fd.LINC_RXQ_STAT_LEVEL : Fld := ⟨0x058, 0, 8⟩
abbrev Reg.SER_CFG : Nat := 0x040
abbrev Fd.SER_CFG_TO_ROUTER : Fld := ⟨0x040, 23, 1⟩
abbrev Fd.SER_CFG_ECHO_SUPPRESS : Fld := ⟨0x040, 22, 1⟩
abbrev Fd.SER_CFG_FRAMING : Fld := ⟨0x040, 20, 2⟩
abbrev Fd.SER_CFG_STOP2 : Fld := ⟨0x040, 16, 1⟩
abbrev Fd.SER_CFG_PARITY : Fld := ⟨0x040, 14, 2⟩
abbrev Fd.SER_CFG_DATA : Fld := ⟨0x040, 12, 2⟩
abbrev Reg.SER_BAUD : Nat := 0x044
abbrev Fd.SER_BAUD_DIV : Fld := ⟨0x044, 4, 20⟩
abbrev Fd.SER_BAUD_FRAC : Fld := ⟨0x044, 0, 4⟩
abbrev Reg.SER_FRAME : Nat := 0x048
abbrev Fd.SER_FRAME_GAP : Fld := ⟨0x048, 24, 8⟩
abbrev Fd.SER_FRAME_MAXLEN : Fld := ⟨0x048, 0, 11⟩
abbrev Reg.SER_LENFMT : Nat := 0x04C
abbrev Fd.SER_LENFMT_ADJ : Fld := ⟨0x04C, 16, 8⟩
abbrev Fd.SER_LENFMT_OFS : Fld := ⟨0x04C, 8, 8⟩
abbrev Fd.SER_LENFMT_W16 : Fld := ⟨0x04C, 0, 1⟩
abbrev Reg.SER_DELIM : Nat := 0x050
abbrev Fd.SER_DELIM_ESC : Fld := ⟨0x050, 24, 8⟩
abbrev Fd.SER_DELIM_END : Fld := ⟨0x050, 16, 8⟩
abbrev Fd.SER_DELIM_START : Fld := ⟨0x050, 8, 8⟩
abbrev Fd.SER_DELIM_ESC_EN : Fld := ⟨0x050, 1, 1⟩
abbrev Fd.SER_DELIM_START_EN : Fld := ⟨0x050, 0, 1⟩
abbrev Reg.SER_TURN : Nat := 0x054
abbrev Fd.SER_TURN_TURN_US : Fld := ⟨0x054, 16, 16⟩
abbrev Fd.SER_TURN_DE_LEAD : Fld := ⟨0x054, 8, 8⟩
abbrev Fd.SER_TURN_DE_LAG : Fld := ⟨0x054, 0, 8⟩
abbrev Reg.SER_MODE : Nat := 0x058
abbrev Fd.SER_MODE_CUR : Fld := ⟨0x058, 8, 4⟩
abbrev Fd.SER_MODE_REQ : Fld := ⟨0x058, 0, 4⟩
abbrev Reg.SER_TXB : Nat := 0x05C
abbrev Fd.SER_TXB_STATE : Fld := ⟨0x05C, 16, 3⟩
abbrev Fd.SER_TXB_REQ : Fld := ⟨0x05C, 15, 1⟩
abbrev Fd.SER_TXB_CANCEL : Fld := ⟨0x05C, 14, 1⟩
abbrev Fd.SER_TXB_LEN : Fld := ⟨0x05C, 0, 11⟩
abbrev Reg.SER_RTQ_STAT : Nat := 0x060
abbrev Fd.SER_RTQ_STAT_LEVEL : Fld := ⟨0x060, 0, 4⟩
abbrev Reg.SER_RXQ : Nat := 0x064
abbrev Fd.SER_RXQ_WORD : Fld := ⟨0x064, 0, 32⟩
abbrev Reg.SER_RXQ_STAT : Nat := 0x068
abbrev Fd.SER_RXQ_STAT_LEVEL : Fld := ⟨0x068, 0, 8⟩
abbrev Reg.SRT_CFG : Nat := 0x040
abbrev Fd.SRT_CFG_TS_VIEW : Fld := ⟨0x040, 1, 3⟩
abbrev Fd.SRT_CFG_SUPERVISE : Fld := ⟨0x040, 0, 1⟩
abbrev Reg.SRT_GEN : Nat := 0x044
abbrev Fd.SRT_GEN_GEN : Fld := ⟨0x044, 16, 16⟩
abbrev Fd.SRT_GEN_BANK : Fld := ⟨0x044, 0, 1⟩
abbrev Reg.SRT_INQ_STAT : Nat := 0x048
abbrev Fd.SRT_INQ_STAT_PEAK : Fld := ⟨0x048, 16, 11⟩
abbrev Fd.SRT_INQ_STAT_LEVEL : Fld := ⟨0x048, 0, 11⟩
abbrev Reg.SRT_EVQ : Nat := 0x04C
abbrev Fd.SRT_EVQ_WORD : Fld := ⟨0x04C, 0, 32⟩
abbrev Reg.SRT_EVQ_STAT : Nat := 0x050
abbrev Fd.SRT_EVQ_STAT_LEVEL : Fld := ⟨0x050, 0, 8⟩
abbrev Reg.SRT_RELEASE : Nat := 0x054
abbrev Fd.SRT_RELEASE_GO : Fld := ⟨0x054, 31, 1⟩
abbrev Fd.SRT_RELEASE_OWNER : Fld := ⟨0x054, 16, 5⟩
abbrev Fd.SRT_RELEASE_ROUTE : Fld := ⟨0x054, 0, 13⟩
abbrev Reg.SRT_MAC_LO : Nat := 0x058
abbrev Fd.SRT_MAC_LO_MAC_LO : Fld := ⟨0x058, 0, 32⟩
abbrev Reg.SRT_MAC_HI : Nat := 0x05C
abbrev Fd.SRT_MAC_HI_MAC_HI : Fld := ⟨0x05C, 0, 16⟩
abbrev Reg.EPRT_CFG : Nat := 0x040
abbrev Fd.EPRT_CFG_MAX_LEN : Fld := ⟨0x040, 16, 16⟩
abbrev Fd.EPRT_CFG_LOOP : Fld := ⟨0x040, 6, 2⟩
abbrev Fd.EPRT_CFG_TX_EN : Fld := ⟨0x040, 1, 1⟩
abbrev Fd.EPRT_CFG_RX_EN : Fld := ⟨0x040, 0, 1⟩
abbrev Reg.EPRT_PCS : Nat := 0x044
abbrev Fd.EPRT_PCS_TX_INV : Fld := ⟨0x044, 15, 1⟩
abbrev Fd.EPRT_PCS_RX_INV : Fld := ⟨0x044, 14, 1⟩
abbrev Fd.EPRT_PCS_AN_EN : Fld := ⟨0x044, 11, 1⟩
abbrev Fd.EPRT_PCS_SPEED : Fld := ⟨0x044, 8, 3⟩
abbrev Fd.EPRT_PCS_MODE : Fld := ⟨0x044, 0, 4⟩
abbrev Reg.EPRT_SERDES : Nat := 0x048
abbrev Fd.EPRT_SERDES_POST : Fld := ⟨0x048, 9, 5⟩
abbrev Fd.EPRT_SERDES_PRE : Fld := ⟨0x048, 5, 4⟩
abbrev Fd.EPRT_SERDES_AMP : Fld := ⟨0x048, 0, 5⟩
abbrev Reg.EPRT_T1 : Nat := 0x04C
abbrev Fd.EPRT_T1_TEST_MODE : Fld := ⟨0x04C, 4, 3⟩
abbrev Fd.EPRT_T1_MASTER : Fld := ⟨0x04C, 0, 1⟩
abbrev Reg.EPRT_PLCA : Nat := 0x050
abbrev Fd.EPRT_PLCA_BURST_TMR : Fld := ⟨0x050, 24, 8⟩
abbrev Fd.EPRT_PLCA_BURST_CNT : Fld := ⟨0x050, 16, 8⟩
abbrev Fd.EPRT_PLCA_NODE_CNT : Fld := ⟨0x050, 8, 8⟩
abbrev Fd.EPRT_PLCA_NODE_ID : Fld := ⟨0x050, 0, 8⟩
abbrev Reg.EPRT_PLCA_CTRL : Nat := 0x054
abbrev Fd.EPRT_PLCA_CTRL_STATUS : Fld := ⟨0x054, 9, 1⟩
abbrev Fd.EPRT_PLCA_CTRL_EN : Fld := ⟨0x054, 8, 1⟩
abbrev Fd.EPRT_PLCA_CTRL_TO_TMR : Fld := ⟨0x054, 0, 8⟩
abbrev Reg.EPRT_RX_LAT : Nat := 0x058
abbrev Fd.EPRT_RX_LAT_LAT : Fld := ⟨0x058, 0, 20⟩
abbrev Reg.EPRT_TX_LAT : Nat := 0x05C
abbrev Fd.EPRT_TX_LAT_LAT : Fld := ⟨0x05C, 0, 20⟩
abbrev Reg.EPRT_HOLD : Nat := 0x060
abbrev Fd.EPRT_HOLD_HOLD_MS : Fld := ⟨0x060, 0, 6⟩
abbrev Reg.EPRT_STATE : Nat := 0x064
abbrev Fd.EPRT_STATE_SQI : Fld := ⟨0x064, 12, 3⟩
abbrev Fd.EPRT_STATE_AN_DONE : Fld := ⟨0x064, 11, 1⟩
abbrev Fd.EPRT_STATE_FULL : Fld := ⟨0x064, 10, 1⟩
abbrev Fd.EPRT_STATE_SPEED : Fld := ⟨0x064, 7, 3⟩
abbrev Fd.EPRT_STATE_LINK : Fld := ⟨0x064, 6, 1⟩
abbrev Fd.EPRT_STATE_FROZEN : Fld := ⟨0x064, 3, 1⟩
abbrev Fd.EPRT_STATE_STATE : Fld := ⟨0x064, 0, 3⟩
abbrev Reg.EPRT_DOWN_STAMP_LO : Nat := 0x068
abbrev Fd.EPRT_DOWN_STAMP_LO_STAMP_LO : Fld := ⟨0x068, 0, 32⟩
abbrev Reg.EPRT_DOWN_STAMP_HI : Nat := 0x06C
abbrev Fd.EPRT_DOWN_STAMP_HI_STAMP_HI : Fld := ⟨0x06C, 0, 32⟩
abbrev Reg.EPRT_UP_STAMP_LO : Nat := 0x070
abbrev Fd.EPRT_UP_STAMP_LO_STAMP_LO : Fld := ⟨0x070, 0, 32⟩
abbrev Reg.EPRT_UP_STAMP_HI : Nat := 0x074
abbrev Fd.EPRT_UP_STAMP_HI_STAMP_HI : Fld := ⟨0x074, 0, 32⟩
abbrev Reg.EPRT_PMAC : Nat := 0x078
abbrev Fd.EPRT_PMAC_PMASK : Fld := ⟨0x078, 16, 8⟩
abbrev Fd.EPRT_PMAC_VERIFY_MS : Fld := ⟨0x078, 8, 8⟩
abbrev Fd.EPRT_PMAC_ADD_FRAG : Fld := ⟨0x078, 4, 2⟩
abbrev Fd.EPRT_PMAC_VERIFY_DIS : Fld := ⟨0x078, 1, 1⟩
abbrev Fd.EPRT_PMAC_PREEMPT_EN : Fld := ⟨0x078, 0, 1⟩
abbrev Reg.EPRT_PMAC_STAT : Nat := 0x07C
abbrev Fd.EPRT_PMAC_STAT_ACTIVE : Fld := ⟨0x07C, 3, 1⟩
abbrev Fd.EPRT_PMAC_STAT_VERIFY : Fld := ⟨0x07C, 0, 3⟩
abbrev Reg.EPRT_TC10 : Nat := 0x080
abbrev Fd.EPRT_TC10_TSTATE : Fld := ⟨0x080, 8, 3⟩
abbrev Fd.EPRT_TC10_NM_CTL : Fld := ⟨0x080, 3, 1⟩
abbrev Fd.EPRT_TC10_ACCEPT_REMOTE : Fld := ⟨0x080, 2, 1⟩
abbrev Fd.EPRT_TC10_WAKE_REQ : Fld := ⟨0x080, 1, 1⟩
abbrev Fd.EPRT_TC10_SLEEP_REQ : Fld := ⟨0x080, 0, 1⟩
abbrev Reg.EPRT_AGE : Nat := 0x0A0
abbrev Fd.EPRT_AGE_LIMIT : Fld := ⟨0x0A0, 0, 16⟩
abbrev Reg.PIPE_CFG : Nat := 0x040
abbrev Fd.PIPE_CFG_RECIRC_MAX_US : Fld := ⟨0x040, 16, 10⟩
abbrev Fd.PIPE_CFG_V6_SEL : Fld := ⟨0x040, 0, 2⟩
abbrev Reg.PIPE_TPID : Nat := 0x044
abbrev Fd.PIPE_TPID_ALT_KIND : Fld := ⟨0x044, 17, 1⟩
abbrev Fd.PIPE_TPID_ALT_EN : Fld := ⟨0x044, 16, 1⟩
abbrev Fd.PIPE_TPID_TPID_ALT : Fld := ⟨0x044, 0, 16⟩
abbrev Reg.PIPE_TUNNEL : Nat := 0x048
abbrev Fd.PIPE_TUNNEL_GRE_EN : Fld := ⟨0x048, 17, 1⟩
abbrev Fd.PIPE_TUNNEL_VXLAN_EN : Fld := ⟨0x048, 16, 1⟩
abbrev Fd.PIPE_TUNNEL_VXLAN_PORT : Fld := ⟨0x048, 0, 16⟩
abbrev Reg.PIPE_GEN : Nat := 0x04C
abbrev Fd.PIPE_GEN_GEN : Fld := ⟨0x04C, 16, 16⟩
abbrev Fd.PIPE_GEN_BANK : Fld := ⟨0x04C, 0, 1⟩
abbrev Reg.PIPE_INFLIGHT_CUR : Nat := 0x050
abbrev Fd.PIPE_INFLIGHT_CUR_COUNT : Fld := ⟨0x050, 0, 17⟩
abbrev Reg.PIPE_INFLIGHT_PREV : Nat := 0x054
abbrev Fd.PIPE_INFLIGHT_PREV_COUNT : Fld := ⟨0x054, 0, 17⟩
abbrev Reg.PIPE_COMMIT_STAMP_LO : Nat := 0x058
abbrev Fd.PIPE_COMMIT_STAMP_LO_STAMP_LO : Fld := ⟨0x058, 0, 32⟩
abbrev Reg.PIPE_COMMIT_STAMP_HI : Nat := 0x05C
abbrev Fd.PIPE_COMMIT_STAMP_HI_STAMP_HI : Fld := ⟨0x05C, 0, 32⟩
abbrev Reg.PIPE_ECC_LOC : Nat := 0x060
abbrev Fd.PIPE_ECC_LOC_VALID : Fld := ⟨0x060, 31, 1⟩
abbrev Fd.PIPE_ECC_LOC_TABLE : Fld := ⟨0x060, 24, 4⟩
abbrev Fd.PIPE_ECC_LOC_INDEX : Fld := ⟨0x060, 0, 11⟩
abbrev Reg.FDB_CFG : Nat := 0x040
abbrev Fd.FDB_CFG_XLEARN_IN : Fld := ⟨0x040, 4, 1⟩
abbrev Fd.FDB_CFG_XLEARN_OUT : Fld := ⟨0x040, 3, 1⟩
abbrev Fd.FDB_CFG_LEARN_PASS2 : Fld := ⟨0x040, 2, 1⟩
abbrev Fd.FDB_CFG_INGRESS_FILTER : Fld := ⟨0x040, 1, 1⟩
abbrev Fd.FDB_CFG_LEARN_EN : Fld := ⟨0x040, 0, 1⟩
abbrev Reg.FDB_AGE : Nat := 0x044
abbrev Fd.FDB_AGE_AGE_SEC : Fld := ⟨0x044, 0, 16⟩
abbrev Reg.FDB_SEED0_LO : Nat := 0x048
abbrev Fd.FDB_SEED0_LO_SEED : Fld := ⟨0x048, 0, 32⟩
abbrev Reg.FDB_SEED0_HI : Nat := 0x04C
abbrev Fd.FDB_SEED0_HI_SEED : Fld := ⟨0x04C, 0, 32⟩
abbrev Reg.FDB_SEED1_LO : Nat := 0x050
abbrev Fd.FDB_SEED1_LO_SEED : Fld := ⟨0x050, 0, 32⟩
abbrev Reg.FDB_SEED1_HI : Nat := 0x054
abbrev Fd.FDB_SEED1_HI_SEED : Fld := ⟨0x054, 0, 32⟩
abbrev Reg.FDB_SB_SEED0_LO : Nat := 0x058
abbrev Fd.FDB_SB_SEED0_LO_SEED : Fld := ⟨0x058, 0, 32⟩
abbrev Reg.FDB_SB_SEED0_HI : Nat := 0x05C
abbrev Fd.FDB_SB_SEED0_HI_SEED : Fld := ⟨0x05C, 0, 32⟩
abbrev Reg.FDB_SB_SEED1_LO : Nat := 0x060
abbrev Fd.FDB_SB_SEED1_LO_SEED : Fld := ⟨0x060, 0, 32⟩
abbrev Reg.FDB_SB_SEED1_HI : Nat := 0x064
abbrev Fd.FDB_SB_SEED1_HI_SEED : Fld := ⟨0x064, 0, 32⟩
abbrev Reg.FDB_GEN : Nat := 0x068
abbrev Fd.FDB_GEN_GEN : Fld := ⟨0x068, 16, 16⟩
abbrev Fd.FDB_GEN_BANK : Fld := ⟨0x068, 0, 1⟩
abbrev Reg.FDB_COUNT : Nat := 0x06C
abbrev Fd.FDB_COUNT_STASH : Fld := ⟨0x06C, 16, 7⟩
abbrev Fd.FDB_COUNT_ENTRIES : Fld := ⟨0x06C, 0, 15⟩
abbrev Reg.FDB_STASH_WARN : Nat := 0x070
abbrev Fd.FDB_STASH_WARN_LEVEL : Fld := ⟨0x070, 0, 7⟩
abbrev Reg.FDB_WIN_RESULT : Nat := 0x074
abbrev Fd.FDB_WIN_RESULT_CODE : Fld := ⟨0x074, 28, 4⟩
abbrev Fd.FDB_WIN_RESULT_INDEX : Fld := ⟨0x074, 0, 15⟩
abbrev Reg.FDB_WIN_HASH : Nat := 0x078
abbrev Fd.FDB_WIN_HASH_B1 : Fld := ⟨0x078, 16, 11⟩
abbrev Fd.FDB_WIN_HASH_B0 : Fld := ⟨0x078, 0, 11⟩
abbrev Reg.FDB_NEXT_FILTER : Nat := 0x07C
abbrev Fd.FDB_NEXT_FILTER_FID_EN : Fld := ⟨0x07C, 29, 1⟩
abbrev Fd.FDB_NEXT_FILTER_FID : Fld := ⟨0x07C, 17, 12⟩
abbrev Fd.FDB_NEXT_FILTER_PORT_EN : Fld := ⟨0x07C, 16, 1⟩
abbrev Fd.FDB_NEXT_FILTER_PORT : Fld := ⟨0x07C, 10, 6⟩
abbrev Fd.FDB_NEXT_FILTER_XLRN_ONLY : Fld := ⟨0x07C, 2, 1⟩
abbrev Fd.FDB_NEXT_FILTER_STATIC_ONLY : Fld := ⟨0x07C, 1, 1⟩
abbrev Fd.FDB_NEXT_FILTER_DYN_ONLY : Fld := ⟨0x07C, 0, 1⟩
abbrev Reg.FDB_SWEEP : Nat := 0x080
abbrev Fd.FDB_SWEEP_POS : Fld := ⟨0x080, 0, 15⟩
abbrev Reg.FDB_ECC_LOC : Nat := 0x084
abbrev Fd.FDB_ECC_LOC_VALID : Fld := ⟨0x084, 31, 1⟩
abbrev Fd.FDB_ECC_LOC_TABLE : Fld := ⟨0x084, 24, 4⟩
abbrev Fd.FDB_ECC_LOC_INDEX : Fld := ⟨0x084, 0, 15⟩
abbrev Reg.SWC_CFG : Nat := 0x040
abbrev Fd.SWC_CFG_CT_CELLS : Fld := ⟨0x040, 4, 3⟩
abbrev Fd.SWC_CFG_SPILL_EN : Fld := ⟨0x040, 2, 1⟩
abbrev Fd.SWC_CFG_PUSHOUT_EN : Fld := ⟨0x040, 1, 1⟩
abbrev Fd.SWC_CFG_CT_EN : Fld := ⟨0x040, 0, 1⟩
abbrev Reg.SWC_FREE : Nat := 0x044
abbrev Fd.SWC_FREE_FREE : Fld := ⟨0x044, 0, 17⟩
abbrev Reg.SWC_FREE_MIN : Nat := 0x048
abbrev Fd.SWC_FREE_MIN_MIN : Fld := ⟨0x048, 0, 17⟩
abbrev Reg.SWC_FREE_WARN : Nat := 0x04C
abbrev Fd.SWC_FREE_WARN_LEVEL : Fld := ⟨0x04C, 0, 17⟩
abbrev Reg.SWC_SPILL_ON : Nat := 0x050
abbrev Fd.SWC_SPILL_ON_LEVEL : Fld := ⟨0x050, 0, 17⟩
abbrev Reg.SWC_SPILL_OFF : Nat := 0x054
abbrev Fd.SWC_SPILL_OFF_LEVEL : Fld := ⟨0x054, 0, 17⟩
abbrev Reg.SWC_SPILL_HEAD : Nat := 0x058
abbrev Fd.SWC_SPILL_HEAD_HEAD_LOW : Fld := ⟨0x058, 16, 16⟩
abbrev Fd.SWC_SPILL_HEAD_HEAD_KEEP : Fld := ⟨0x058, 0, 16⟩
abbrev Reg.SWC_SPILL_STAT : Nat := 0x05C
abbrev Fd.SWC_SPILL_STAT_ACTIVE : Fld := ⟨0x05C, 31, 1⟩
abbrev Fd.SWC_SPILL_STAT_NO_SPACE : Fld := ⟨0x05C, 30, 1⟩
abbrev Fd.SWC_SPILL_STAT_USED : Fld := ⟨0x05C, 0, 21⟩
abbrev Reg.SWC_SPILL_BLOCKS : Nat := 0x060
abbrev Fd.SWC_SPILL_BLOCKS_BLOCKS : Fld := ⟨0x060, 0, 21⟩
abbrev Reg.SWC_HOST_FLOOR : Nat := 0x064
abbrev Fd.SWC_HOST_FLOOR_LEVEL : Fld := ⟨0x064, 0, 17⟩
abbrev Reg.SWC_QENTRY_FREE : Nat := 0x068
abbrev Fd.SWC_QENTRY_FREE_FREE : Fld := ⟨0x068, 0, 18⟩
abbrev Reg.SWC_RECIRC_STAT : Nat := 0x06C
abbrev Fd.SWC_RECIRC_STAT_LEVEL : Fld := ⟨0x06C, 0, 10⟩
abbrev Reg.SWC_ECC_LOC : Nat := 0x070
abbrev Fd.SWC_ECC_LOC_VALID : Fld := ⟨0x070, 31, 1⟩
abbrev Fd.SWC_ECC_LOC_MEM : Fld := ⟨0x070, 24, 2⟩
abbrev Fd.SWC_ECC_LOC_INDEX : Fld := ⟨0x070, 0, 18⟩
abbrev Reg.SWC_CLASS_CFG : Nat := 0x080
abbrev Fd.SWC_CLASS_CFG_SPILL_EN : Fld := ⟨0x080, 26, 1⟩
abbrev Fd.SWC_CLASS_CFG_PUSHOUT : Fld := ⟨0x080, 25, 1⟩
abbrev Fd.SWC_CLASS_CFG_RANK : Fld := ⟨0x080, 20, 3⟩
abbrev Fd.SWC_CLASS_CFG_FLOOR : Fld := ⟨0x080, 0, 17⟩
abbrev Reg.SWC_CLASS_QMAX : Nat := 0x084
abbrev Fd.SWC_CLASS_QMAX_QMAX : Fld := ⟨0x084, 0, 26⟩
abbrev Reg.SWC_MIRROR : Nat := 0x0C0
abbrev Fd.SWC_MIRROR_EN : Fld := ⟨0x0C0, 31, 1⟩
abbrev Fd.SWC_MIRROR_TARGET : Fld := ⟨0x0C0, 16, 6⟩
abbrev Fd.SWC_MIRROR_TRUNC : Fld := ⟨0x0C0, 8, 5⟩
abbrev Fd.SWC_MIRROR_TC : Fld := ⟨0x0C0, 0, 3⟩
abbrev Reg.SWC_SAMP_CFG : Nat := 0x0D0
abbrev Fd.SWC_SAMP_CFG_N : Fld := ⟨0x0D0, 16, 16⟩
abbrev Fd.SWC_SAMP_CFG_JITTER : Fld := ⟨0x0D0, 15, 1⟩
abbrev Fd.SWC_SAMP_CFG_EN : Fld := ⟨0x0D0, 14, 1⟩
abbrev Fd.SWC_SAMP_CFG_TARGET : Fld := ⟨0x0D0, 8, 6⟩
abbrev Fd.SWC_SAMP_CFG_TRUNC : Fld := ⟨0x0D0, 3, 5⟩
abbrev Fd.SWC_SAMP_CFG_TC : Fld := ⟨0x0D0, 0, 3⟩
abbrev Reg.SWC_SAMP_POS : Nat := 0x0D4
abbrev Fd.SWC_SAMP_POS_COUNT : Fld := ⟨0x0D4, 0, 16⟩
abbrev Reg.EGR_CFG : Nat := 0x040
abbrev Fd.EGR_CFG_FRER_EN : Fld := ⟨0x040, 0, 1⟩
abbrev Reg.EGR_GCL_CMD : Nat := 0x044
abbrev Fd.EGR_GCL_CMD_GO : Fld := ⟨0x044, 31, 1⟩
abbrev Fd.EGR_GCL_CMD_OP : Fld := ⟨0x044, 8, 2⟩
abbrev Fd.EGR_GCL_CMD_PORT : Fld := ⟨0x044, 0, 5⟩
abbrev Reg.EGR_GCL_PENDING : Nat := 0x048
abbrev Fd.EGR_GCL_PENDING_PORTS : Fld := ⟨0x048, 0, 32⟩
abbrev Reg.EGR_GCL_ERRMAP : Nat := 0x04C
abbrev Fd.EGR_GCL_ERRMAP_PORTS : Fld := ⟨0x04C, 0, 32⟩
abbrev Reg.EGR_FRER_FREE : Nat := 0x050
abbrev Fd.EGR_FRER_FREE_SETS : Fld := ⟨0x050, 16, 11⟩
abbrev Fd.EGR_FRER_FREE_HOLDS : Fld := ⟨0x050, 0, 9⟩
abbrev Reg.EGR_ECC_LOC : Nat := 0x054
abbrev Fd.EGR_ECC_LOC_VALID : Fld := ⟨0x054, 31, 1⟩
abbrev Fd.EGR_ECC_LOC_TABLE : Fld := ⟨0x054, 24, 4⟩
abbrev Fd.EGR_ECC_LOC_INDEX : Fld := ⟨0x054, 0, 13⟩
abbrev Reg.TRN_CFG : Nat := 0x040
abbrev Fd.TRN_CFG_SEG_MAX_MS : Fld := ⟨0x040, 16, 16⟩
abbrev Reg.TRN_RING : Nat := 0x044
abbrev Fd.TRN_RING_SEGS : Fld := ⟨0x044, 0, 14⟩
abbrev Reg.TRN_SEGS : Nat := 0x048
abbrev Fd.TRN_SEGS_PINNED : Fld := ⟨0x048, 16, 14⟩
abbrev Fd.TRN_SEGS_UNPINNED : Fld := ⟨0x048, 0, 14⟩
abbrev Reg.TRN_SUSP : Nat := 0x04C
abbrev Fd.TRN_SUSP_HI_LEVEL : Fld := ⟨0x04C, 16, 14⟩
abbrev Fd.TRN_SUSP_LO_LEVEL : Fld := ⟨0x04C, 0, 14⟩
abbrev Reg.TRN_STATE : Nat := 0x050
abbrev Fd.TRN_STATE_HEAD : Fld := ⟨0x050, 16, 14⟩
abbrev Fd.TRN_STATE_PF : Fld := ⟨0x050, 2, 1⟩
abbrev Fd.TRN_STATE_LO_SUSP : Fld := ⟨0x050, 1, 1⟩
abbrev Fd.TRN_STATE_HI_SUSP : Fld := ⟨0x050, 0, 1⟩
abbrev Reg.TRN_TAP_CAN : Nat := 0x054
abbrev Fd.TRN_TAP_CAN_RX : Fld := ⟨0x054, 0, 24⟩
abbrev Reg.TRN_TAP_CANTX : Nat := 0x058
abbrev Fd.TRN_TAP_CANTX_TX : Fld := ⟨0x058, 0, 24⟩
abbrev Reg.TRN_TAP_MISC : Nat := 0x05C
abbrev Fd.TRN_TAP_MISC_FAULT : Fld := ⟨0x05C, 17, 1⟩
abbrev Fd.TRN_TAP_MISC_DISAGREE : Fld := ⟨0x05C, 16, 1⟩
abbrev Fd.TRN_TAP_MISC_ROUTER : Fld := ⟨0x05C, 15, 1⟩
abbrev Fd.TRN_TAP_MISC_CAN_EVENT : Fld := ⟨0x05C, 14, 1⟩
abbrev Fd.TRN_TAP_MISC_SER : Fld := ⟨0x05C, 8, 4⟩
abbrev Fd.TRN_TAP_MISC_LIN : Fld := ⟨0x05C, 0, 8⟩
abbrev Reg.TRN_QCFG : Nat := 0x060
abbrev Fd.TRN_QCFG_SRC_EN : Fld := ⟨0x060, 24, 7⟩
abbrev Fd.TRN_QCFG_SEV_MIN : Fld := ⟨0x060, 16, 3⟩
abbrev Fd.TRN_QCFG_PRE_PCT : Fld := ⟨0x060, 8, 8⟩
abbrev Reg.TRN_QWIN : Nat := 0x064
abbrev Fd.TRN_QWIN_PRE_S : Fld := ⟨0x064, 16, 16⟩
abbrev Fd.TRN_QWIN_POST_S : Fld := ⟨0x064, 0, 10⟩
abbrev Reg.TRN_QPF : Nat := 0x068
abbrev Fd.TRN_QPF_PF_PRE_S : Fld := ⟨0x068, 16, 16⟩
abbrev Reg.TRN_QTRIG : Nat := 0x06C
abbrev Fd.TRN_QTRIG_GO : Fld := ⟨0x06C, 31, 1⟩
abbrev Fd.TRN_QTRIG_REASON : Fld := ⟨0x06C, 0, 8⟩
abbrev Reg.TRN_QREL : Nat := 0x070
abbrev Fd.TRN_QREL_GO : Fld := ⟨0x070, 31, 1⟩
abbrev Fd.TRN_QREL_ENTRY : Fld := ⟨0x070, 0, 2⟩
abbrev Reg.TRN_QSTAT : Nat := 0x074
abbrev Fd.TRN_QSTAT_BUSY : Fld := ⟨0x074, 0, 4⟩
abbrev Reg.TRN_XADDR_LO : Nat := 0x078
abbrev Fd.TRN_XADDR_LO_ADDR : Fld := ⟨0x078, 0, 32⟩
abbrev Reg.TRN_XADDR_HI : Nat := 0x07C
abbrev Fd.TRN_XADDR_HI_ADDR : Fld := ⟨0x07C, 0, 32⟩
abbrev Reg.TRN_XCMD : Nat := 0x080
abbrev Fd.TRN_XCMD_GO : Fld := ⟨0x080, 31, 1⟩
abbrev Fd.TRN_XCMD_DOMAIN : Fld := ⟨0x080, 16, 3⟩
abbrev Fd.TRN_XCMD_SEG : Fld := ⟨0x080, 0, 14⟩
abbrev Reg.TRN_XSTAT : Nat := 0x084
abbrev Fd.TRN_XSTAT_ERR : Fld := ⟨0x084, 8, 8⟩
abbrev Fd.TRN_XSTAT_ERROR : Fld := ⟨0x084, 2, 1⟩
abbrev Fd.TRN_XSTAT_DONE : Fld := ⟨0x084, 1, 1⟩
abbrev Fd.TRN_XSTAT_BUSY : Fld := ⟨0x084, 0, 1⟩
abbrev Reg.TRN_WIN_RESULT : Nat := 0x088
abbrev Fd.TRN_WIN_RESULT_FOUND : Fld := ⟨0x088, 31, 1⟩
abbrev Fd.TRN_WIN_RESULT_SEG : Fld := ⟨0x088, 0, 14⟩
abbrev Reg.MRAM_STATUS : Nat := 0x040
abbrev Fd.MRAM_STATUS_OPEN : Fld := ⟨0x040, 12, 3⟩
abbrev Fd.MRAM_STATUS_NEXT : Fld := ⟨0x040, 8, 3⟩
abbrev Fd.MRAM_STATUS_LASTGASP : Fld := ⟨0x040, 1, 1⟩
abbrev Fd.MRAM_STATUS_BUSY : Fld := ⟨0x040, 0, 1⟩
abbrev Reg.MRAM_SLOT : Nat := 0x044
abbrev Fd.MRAM_SLOT_WRITES : Fld := ⟨0x044, 8, 24⟩
abbrev Fd.MRAM_SLOT_ERASE : Fld := ⟨0x044, 3, 1⟩
abbrev Fd.MRAM_SLOT_KEEP : Fld := ⟨0x044, 2, 1⟩
abbrev Fd.MRAM_SLOT_STATE : Fld := ⟨0x044, 0, 2⟩
abbrev Reg.MRAM_CFG : Nat := 0x060
abbrev Fd.MRAM_CFG_AUTO_KEEP : Fld := ⟨0x060, 0, 1⟩
abbrev Reg.MRAM_ECC_LOC : Nat := 0x064
abbrev Fd.MRAM_ECC_LOC_VALID : Fld := ⟨0x064, 31, 1⟩
abbrev Fd.MRAM_ECC_LOC_WORD : Fld := ⟨0x064, 0, 20⟩
abbrev Reg.NM_STATUS : Nat := 0x040
abbrev Fd.NM_STATUS_ASLEEP : Fld := ⟨0x040, 16, 8⟩
abbrev Fd.NM_STATUS_LOW_POWER_OK : Fld := ⟨0x040, 0, 1⟩
abbrev Reg.NM_DEV_WAKE : Nat := 0x044
abbrev Fd.NM_DEV_WAKE_VALID : Fld := ⟨0x044, 31, 1⟩
abbrev Fd.NM_DEV_WAKE_COARSE : Fld := ⟨0x044, 30, 1⟩
abbrev Fd.NM_DEV_WAKE_REASON : Fld := ⟨0x044, 16, 8⟩
abbrev Fd.NM_DEV_WAKE_SRC : Fld := ⟨0x044, 0, 5⟩
abbrev Reg.NM_DEV_WAKE_STAMP_LO : Nat := 0x048
abbrev Fd.NM_DEV_WAKE_STAMP_LO_STAMP_LO : Fld := ⟨0x048, 0, 32⟩
abbrev Reg.NM_DEV_WAKE_STAMP_HI : Nat := 0x04C
abbrev Fd.NM_DEV_WAKE_STAMP_HI_STAMP_HI : Fld := ⟨0x04C, 0, 32⟩
abbrev Reg.NM_T1S_ACT : Nat := 0x050
abbrev Fd.NM_T1S_ACT_WINDOW_MS : Fld := ⟨0x050, 16, 8⟩
abbrev Fd.NM_T1S_ACT_COUNT : Fld := ⟨0x050, 8, 4⟩
abbrev Fd.NM_T1S_ACT_BURST_US : Fld := ⟨0x050, 0, 8⟩
abbrev Reg.NM_WAKEIN : Nat := 0x060
abbrev Fd.NM_WAKEIN_CL_MASK : Fld := ⟨0x060, 16, 8⟩
abbrev Fd.NM_WAKEIN_FILT : Fld := ⟨0x060, 8, 8⟩
abbrev Fd.NM_WAKEIN_LEVEL : Fld := ⟨0x060, 7, 1⟩
abbrev Fd.NM_WAKEIN_EDGE : Fld := ⟨0x060, 4, 2⟩
abbrev Fd.NM_WAKEIN_QUOTE : Fld := ⟨0x060, 3, 1⟩
abbrev Fd.NM_WAKEIN_WAKE : Fld := ⟨0x060, 2, 1⟩
abbrev Fd.NM_WAKEIN_EN : Fld := ⟨0x060, 0, 1⟩
abbrev Reg.NM_CL_CFG : Nat := 0x100
abbrev Fd.NM_CL_CFG_NODE_ID : Fld := ⟨0x100, 24, 8⟩
abbrev Fd.NM_CL_CFG_PN_EN : Fld := ⟨0x100, 3, 1⟩
abbrev Fd.NM_CL_CFG_PASSIVE : Fld := ⟨0x100, 2, 1⟩
abbrev Fd.NM_CL_CFG_ENABLE : Fld := ⟨0x100, 0, 1⟩
abbrev Reg.NM_CL_ID : Nat := 0x104
abbrev Fd.NM_CL_ID_IDE : Fld := ⟨0x104, 31, 1⟩
abbrev Fd.NM_CL_ID_BASE : Fld := ⟨0x104, 0, 29⟩
abbrev Reg.NM_CL_IDMASK : Nat := 0x108
abbrev Fd.NM_CL_IDMASK_MASK : Fld := ⟨0x108, 0, 29⟩
abbrev Reg.NM_CL_TIME1 : Nat := 0x10C
abbrev Fd.NM_CL_TIME1_NM_TIMEOUT_MS : Fld := ⟨0x10C, 16, 16⟩
abbrev Fd.NM_CL_TIME1_NM_CYCLE_MS : Fld := ⟨0x10C, 0, 16⟩
abbrev Reg.NM_CL_TIME2 : Nat := 0x110
abbrev Fd.NM_CL_TIME2_REPEAT_MS : Fld := ⟨0x110, 16, 16⟩
abbrev Fd.NM_CL_TIME2_WBS_MS : Fld := ⟨0x110, 0, 16⟩
abbrev Reg.NM_CL_TIME3 : Nat := 0x114
abbrev Fd.NM_CL_TIME3_FW_IDLE_MS : Fld := ⟨0x114, 16, 16⟩
abbrev Fd.NM_CL_TIME3_OFF_REPORT_S : Fld := ⟨0x114, 0, 16⟩
abbrev Reg.NM_CL_CAN : Nat := 0x118
abbrev Fd.NM_CL_CAN_CH : Fld := ⟨0x118, 0, 24⟩
abbrev Reg.NM_CL_SEG : Nat := 0x11C
abbrev Fd.NM_CL_SEG_T1S : Fld := ⟨0x11C, 24, 8⟩
abbrev Fd.NM_CL_SEG_TC10 : Fld := ⟨0x11C, 12, 12⟩
abbrev Fd.NM_CL_SEG_LIN : Fld := ⟨0x11C, 0, 8⟩
abbrev Reg.NM_CL_PNMASK_LO : Nat := 0x120
abbrev Fd.NM_CL_PNMASK_LO_PN : Fld := ⟨0x120, 0, 32⟩
abbrev Reg.NM_CL_PNMASK_HI : Nat := 0x124
abbrev Fd.NM_CL_PNMASK_HI_PN : Fld := ⟨0x124, 0, 16⟩
abbrev Reg.NM_CL_TXPN_LO : Nat := 0x128
abbrev Fd.NM_CL_TXPN_LO_PN : Fld := ⟨0x128, 0, 32⟩
abbrev Reg.NM_CL_TXPN_HI : Nat := 0x12C
abbrev Fd.NM_CL_TXPN_HI_PN : Fld := ⟨0x12C, 0, 16⟩
abbrev Reg.NM_CL_REQ : Nat := 0x130
abbrev Fd.NM_CL_REQ_RMR : Fld := ⟨0x130, 1, 1⟩
abbrev Fd.NM_CL_REQ_AWAKE : Fld := ⟨0x130, 0, 1⟩
abbrev Reg.NM_CL_STATE : Nat := 0x134
abbrev Fd.NM_CL_STATE_REASON : Fld := ⟨0x134, 16, 8⟩
abbrev Fd.NM_CL_STATE_SRC : Fld := ⟨0x134, 8, 5⟩
abbrev Fd.NM_CL_STATE_LATE : Fld := ⟨0x134, 5, 1⟩
abbrev Fd.NM_CL_STATE_AFTER_COMMIT : Fld := ⟨0x134, 4, 1⟩
abbrev Fd.NM_CL_STATE_SEG_AWAKE : Fld := ⟨0x134, 3, 1⟩
abbrev Fd.NM_CL_STATE_STATE : Fld := ⟨0x134, 0, 3⟩
abbrev Reg.NM_CL_WAKE_STAMP_LO : Nat := 0x138
abbrev Fd.NM_CL_WAKE_STAMP_LO_STAMP_LO : Fld := ⟨0x138, 0, 32⟩
abbrev Reg.NM_CL_WAKE_STAMP_HI : Nat := 0x13C
abbrev Fd.NM_CL_WAKE_STAMP_HI_STAMP_HI : Fld := ⟨0x13C, 0, 32⟩
abbrev Reg.KEY_CMD : Nat := 0x040
abbrev Fd.KEY_CMD_GO : Fld := ⟨0x040, 31, 1⟩
abbrev Fd.KEY_CMD_OP : Fld := ⟨0x040, 24, 4⟩
abbrev Fd.KEY_CMD_SLOT : Fld := ⟨0x040, 0, 8⟩
abbrev Reg.KEY_ATTR : Nat := 0x044
abbrev Fd.KEY_ATTR_LC_MASK : Fld := ⟨0x044, 24, 6⟩
abbrev Fd.KEY_ATTR_DOMAINS : Fld := ⟨0x044, 16, 8⟩
abbrev Fd.KEY_ATTR_WORLD : Fld := ⟨0x044, 12, 1⟩
abbrev Fd.KEY_ATTR_USES : Fld := ⟨0x044, 8, 4⟩
abbrev Fd.KEY_ATTR_TYPE : Fld := ⟨0x044, 4, 4⟩
abbrev Reg.KEY_SUBJ : Nat := 0x048
abbrev Fd.KEY_SUBJ_HANDLE : Fld := ⟨0x048, 0, 32⟩
abbrev Reg.KEY_RESULT : Nat := 0x04C
abbrev Fd.KEY_RESULT_HANDLE : Fld := ⟨0x04C, 0, 32⟩
abbrev Reg.KEY_CMD_STATUS : Nat := 0x050
abbrev Fd.KEY_CMD_STATUS_ERR : Fld := ⟨0x050, 8, 8⟩
abbrev Fd.KEY_CMD_STATUS_ERROR : Fld := ⟨0x050, 2, 1⟩
abbrev Fd.KEY_CMD_STATUS_DONE : Fld := ⟨0x050, 1, 1⟩
abbrev Fd.KEY_CMD_STATUS_BUSY : Fld := ⟨0x050, 0, 1⟩
abbrev Reg.KEY_FREE : Nat := 0x054
abbrev Fd.KEY_FREE_FREE : Fld := ⟨0x054, 0, 9⟩
abbrev Reg.OTP_STATUS : Nat := 0x040
abbrev Fd.OTP_STATUS_TEST_ROOT : Fld := ⟨0x040, 13, 1⟩
abbrev Fd.OTP_STATUS_DEBUG : Fld := ⟨0x040, 12, 1⟩
abbrev Fd.OTP_STATUS_ROOT_OK : Fld := ⟨0x040, 11, 1⟩
abbrev Fd.OTP_STATUS_BCR_VALID : Fld := ⟨0x040, 10, 1⟩
abbrev Fd.OTP_STATUS_BCR_GEN : Fld := ⟨0x040, 8, 2⟩
abbrev Fd.OTP_STATUS_LC_PENDING : Fld := ⟨0x040, 4, 3⟩
abbrev Fd.OTP_STATUS_LC : Fld := ⟨0x040, 0, 3⟩
abbrev Reg.OTP_PROG_ADDR : Nat := 0x044
abbrev Fd.OTP_PROG_ADDR_WORD : Fld := ⟨0x044, 0, 12⟩
abbrev Reg.OTP_PROG_DATA : Nat := 0x048
abbrev Fd.OTP_PROG_DATA_DATA : Fld := ⟨0x048, 0, 32⟩
abbrev Reg.OTP_CMD : Nat := 0x04C
abbrev Fd.OTP_CMD_GO : Fld := ⟨0x04C, 31, 1⟩
abbrev Fd.OTP_CMD_TARGET : Fld := ⟨0x04C, 16, 3⟩
abbrev Fd.OTP_CMD_GEN : Fld := ⟨0x04C, 8, 2⟩
abbrev Fd.OTP_CMD_OP : Fld := ⟨0x04C, 0, 4⟩
abbrev Reg.OTP_CMD_STATUS : Nat := 0x050
abbrev Fd.OTP_CMD_STATUS_ERR : Fld := ⟨0x050, 8, 8⟩
abbrev Fd.OTP_CMD_STATUS_ERROR : Fld := ⟨0x050, 2, 1⟩
abbrev Fd.OTP_CMD_STATUS_DONE : Fld := ⟨0x050, 1, 1⟩
abbrev Fd.OTP_CMD_STATUS_BUSY : Fld := ⟨0x050, 0, 1⟩
abbrev Reg.OTP_ECC_LOC : Nat := 0x054
abbrev Fd.OTP_ECC_LOC_VALID : Fld := ⟨0x054, 31, 1⟩
abbrev Fd.OTP_ECC_LOC_WORD : Fld := ⟨0x054, 0, 12⟩
abbrev Reg.MSEC_CFG : Nat := 0x040
abbrev Fd.MSEC_CFG_RG_SHIFT : Fld := ⟨0x040, 0, 5⟩
abbrev Reg.MSEC_PN_WARN : Nat := 0x044
abbrev Fd.MSEC_PN_WARN_PN : Fld := ⟨0x044, 0, 32⟩
abbrev Reg.MSEC_XPN_WARN_HI : Nat := 0x048
abbrev Fd.MSEC_XPN_WARN_HI_PN_HI : Fld := ⟨0x048, 0, 32⟩
abbrev Reg.MSEC_ECC_LOC : Nat := 0x04C
abbrev Fd.MSEC_ECC_LOC_VALID : Fld := ⟨0x04C, 31, 1⟩
abbrev Fd.MSEC_ECC_LOC_TABLE : Fld := ⟨0x04C, 24, 4⟩
abbrev Fd.MSEC_ECC_LOC_INDEX : Fld := ⟨0x04C, 0, 12⟩
abbrev Reg.HDOM_STATE : Nat := 0x040
abbrev Fd.HDOM_STATE_CAUSE : Fld := ⟨0x040, 8, 4⟩
abbrev Fd.HDOM_STATE_WORLD : Fld := ⟨0x040, 3, 1⟩
abbrev Fd.HDOM_STATE_LINK : Fld := ⟨0x040, 2, 1⟩
abbrev Fd.HDOM_STATE_STATE : Fld := ⟨0x040, 0, 2⟩
abbrev Reg.HDOM_RESET_STAMP_LO : Nat := 0x044
abbrev Fd.HDOM_RESET_STAMP_LO_STAMP_LO : Fld := ⟨0x044, 0, 32⟩
abbrev Reg.HDOM_RESET_STAMP_HI : Nat := 0x048
abbrev Fd.HDOM_RESET_STAMP_HI_STAMP_HI : Fld := ⟨0x048, 0, 32⟩
abbrev Reg.HDOM_WDOG : Nat := 0x04C
abbrev Fd.HDOM_WDOG_TIMEOUT_MS : Fld := ⟨0x04C, 0, 16⟩
abbrev Reg.HDOM_WDOG_KICK : Nat := 0x050
abbrev Fd.HDOM_WDOG_KICK_KEY : Fld := ⟨0x050, 16, 16⟩
abbrev Reg.HDOM_VEC_PEND : Nat := 0x054
abbrev Fd.HDOM_VEC_PEND_PEND : Fld := ⟨0x054, 0, 32⟩
abbrev Reg.HDOM_VEC_MASK : Nat := 0x058
abbrev Fd.HDOM_VEC_MASK_MASK : Fld := ⟨0x058, 0, 32⟩
abbrev Reg.HDOM_VEC_EOI : Nat := 0x05C
abbrev Fd.HDOM_VEC_EOI_EOI : Fld := ⟨0x05C, 0, 32⟩
abbrev Reg.BRK_LAST_BREAK : Nat := 0x040
abbrev Fd.BRK_LAST_BREAK_VALID : Fld := ⟨0x040, 31, 1⟩
abbrev Fd.BRK_LAST_BREAK_DOMAIN : Fld := ⟨0x040, 16, 3⟩
abbrev Fd.BRK_LAST_BREAK_LOCK : Fld := ⟨0x040, 0, 6⟩
abbrev Reg.BRK_LAST_BREAK_STAMP_LO : Nat := 0x044
abbrev Fd.BRK_LAST_BREAK_STAMP_LO_STAMP_LO : Fld := ⟨0x044, 0, 32⟩
abbrev Reg.BRK_LAST_BREAK_STAMP_HI : Nat := 0x048
abbrev Fd.BRK_LAST_BREAK_STAMP_HI_STAMP_HI : Fld := ⟨0x048, 0, 32⟩
abbrev Reg.BRK_LAST_RESET : Nat := 0x04C
abbrev Fd.BRK_LAST_RESET_VALID : Fld := ⟨0x04C, 31, 1⟩
abbrev Fd.BRK_LAST_RESET_DOMAIN : Fld := ⟨0x04C, 8, 3⟩
abbrev Fd.BRK_LAST_RESET_CAUSE : Fld := ⟨0x04C, 0, 4⟩
abbrev Reg.BRK_LAST_RESET_STAMP_LO : Nat := 0x050
abbrev Fd.BRK_LAST_RESET_STAMP_LO_STAMP_LO : Fld := ⟨0x050, 0, 32⟩
abbrev Reg.BRK_LAST_RESET_STAMP_HI : Nat := 0x054
abbrev Fd.BRK_LAST_RESET_STAMP_HI_STAMP_HI : Fld := ⟨0x054, 0, 32⟩
abbrev Reg.BRK_LOCK : Nat := 0x100
abbrev Fd.BRK_LOCK_SEQ : Fld := ⟨0x100, 24, 8⟩
abbrev Fd.BRK_LOCK_HOLDER : Fld := ⟨0x100, 16, 3⟩
abbrev Fd.BRK_LOCK_BROKEN_GRANT : Fld := ⟨0x100, 5, 1⟩
abbrev Fd.BRK_LOCK_STATE : Fld := ⟨0x100, 2, 2⟩
abbrev Fd.BRK_LOCK_OP : Fld := ⟨0x100, 0, 2⟩
abbrev Reg.BRK_ALLOW : Nat := 0x200
abbrev Fd.BRK_ALLOW_DOMAINS : Fld := ⟨0x200, 0, 8⟩
abbrev Reg.BRK_GUARD : Nat := 0x300
abbrev Fd.BRK_GUARD_EN : Fld := ⟨0x300, 31, 1⟩
abbrev Fd.BRK_GUARD_SCOPE : Fld := ⟨0x300, 24, 2⟩
abbrev Fd.BRK_GUARD_PAGE : Fld := ⟨0x300, 12, 12⟩
abbrev Reg.EMC_CFG : Nat := 0x040
abbrev Fd.EMC_CFG_RATE : Fld := ⟨0x040, 8, 3⟩
abbrev Fd.EMC_CFG_RETRAIN : Fld := ⟨0x040, 1, 1⟩
abbrev Fd.EMC_CFG_SCRUB_EN : Fld := ⟨0x040, 0, 1⟩
abbrev Reg.EMC_DRAM : Nat := 0x044
abbrev Fd.EMC_DRAM_READY : Fld := ⟨0x044, 31, 1⟩
abbrev Fd.EMC_DRAM_FAIL : Fld := ⟨0x044, 30, 1⟩
abbrev Fd.EMC_DRAM_STEP : Fld := ⟨0x044, 12, 4⟩
abbrev Fd.EMC_DRAM_DENSITY : Fld := ⟨0x044, 4, 4⟩
abbrev Fd.EMC_DRAM_RANKS : Fld := ⟨0x044, 0, 2⟩
abbrev Reg.EMC_USABLE : Nat := 0x048
abbrev Fd.EMC_USABLE_MIB : Fld := ⟨0x048, 0, 15⟩
abbrev Reg.EMC_SPILL : Nat := 0x04C
abbrev Fd.EMC_SPILL_MIB : Fld := ⟨0x04C, 0, 12⟩
abbrev Reg.EMC_TRN : Nat := 0x050
abbrev Fd.EMC_TRN_SEGS : Fld := ⟨0x050, 0, 14⟩
abbrev Reg.EMC_HOST : Nat := 0x054
abbrev Fd.EMC_HOST_ACTIVE_LOG2 : Fld := ⟨0x054, 16, 4⟩
abbrev Fd.EMC_HOST_LOG2 : Fld := ⟨0x054, 0, 4⟩
abbrev Reg.EMC_HOG_LIMIT : Nat := 0x058
abbrev Fd.EMC_HOG_LIMIT_CLOCKS : Fld := ⟨0x058, 0, 16⟩
abbrev Reg.EMC_HOG_STAT : Nat := 0x05C
abbrev Fd.EMC_HOG_STAT_REQ : Fld := ⟨0x05C, 0, 8⟩
abbrev Reg.EMC_ARB : Nat := 0x060
abbrev Fd.EMC_ARB_PENDING : Fld := ⟨0x060, 16, 8⟩
abbrev Fd.EMC_ARB_HOLDER : Fld := ⟨0x060, 0, 4⟩
abbrev Reg.EMC_ECC_LOC : Nat := 0x064
abbrev Fd.EMC_ECC_LOC_VALID : Fld := ⟨0x064, 31, 1⟩
abbrev Fd.EMC_ECC_LOC_REQ : Fld := ⟨0x064, 28, 3⟩
abbrev Fd.EMC_ECC_LOC_LINE : Fld := ⟨0x064, 0, 28⟩
abbrev Reg.EMC_SCRUB : Nat := 0x068
abbrev Fd.EMC_SCRUB_PERIOD_S : Fld := ⟨0x068, 0, 16⟩
abbrev Reg.EMC_TEMP : Nat := 0x06C
abbrev Fd.EMC_TEMP_RATE_CODE : Fld := ⟨0x06C, 0, 4⟩
abbrev Reg.EMC_WAIT_MAX : Nat := 0x080
abbrev Fd.EMC_WAIT_MAX_CLOCKS : Fld := ⟨0x080, 0, 16⟩
abbrev Reg.GLB_RESET : Nat := 0x04C
abbrev Fd.GLB_RESET_KEY : Fld := ⟨0x04C, 16, 16⟩
abbrev Reg.GLB_BOOT : Nat := 0x050
abbrev Fd.GLB_BOOT_CAUSE : Fld := ⟨0x050, 8, 4⟩
abbrev Fd.GLB_BOOT_TEST : Fld := ⟨0x050, 4, 2⟩
abbrev Fd.GLB_BOOT_CLK_LATE : Fld := ⟨0x050, 3, 1⟩
abbrev Fd.GLB_BOOT_INTERJECTION : Fld := ⟨0x050, 2, 1⟩
abbrev Fd.GLB_BOOT_READY : Fld := ⟨0x050, 1, 1⟩
abbrev Reg.GLB_ST_FAIL_LO : Nat := 0x054
abbrev Fd.GLB_ST_FAIL_LO_FAIL : Fld := ⟨0x054, 0, 32⟩
abbrev Reg.GLB_ST_FAIL_HI : Nat := 0x058
abbrev Fd.GLB_ST_FAIL_HI_FAIL : Fld := ⟨0x058, 0, 32⟩
abbrev Reg.GLB_READY_STAMP_LO : Nat := 0x05C
abbrev Fd.GLB_READY_STAMP_LO_STAMP_LO : Fld := ⟨0x05C, 0, 32⟩
abbrev Reg.GLB_READY_STAMP_HI : Nat := 0x060
abbrev Fd.GLB_READY_STAMP_HI_STAMP_HI : Fld := ⟨0x060, 0, 32⟩
abbrev Reg.GLB_REPAIR : Nat := 0x064
abbrev Fd.GLB_REPAIR_ROWS : Fld := ⟨0x064, 0, 8⟩
abbrev Reg.PWR_CFG : Nat := 0x040
abbrev Fd.PWR_CFG_AUTO_DELAY_MS : Fld := ⟨0x040, 16, 16⟩
abbrev Fd.PWR_CFG_COMMIT_US : Fld := ⟨0x040, 4, 12⟩
abbrev Fd.PWR_CFG_AUTO : Fld := ⟨0x040, 0, 2⟩
abbrev Reg.PWR_REQ : Nat := 0x044
abbrev Fd.PWR_REQ_GO : Fld := ⟨0x044, 31, 1⟩
abbrev Fd.PWR_REQ_FORCE : Fld := ⟨0x044, 2, 1⟩
abbrev Fd.PWR_REQ_STATE : Fld := ⟨0x044, 0, 2⟩
abbrev Reg.PWR_STATE : Nat := 0x048
abbrev Fd.PWR_STATE_EXIT_SRC : Fld := ⟨0x048, 16, 3⟩
abbrev Fd.PWR_STATE_REFUSE : Fld := ⟨0x048, 8, 3⟩
abbrev Fd.PWR_STATE_STATE : Fld := ⟨0x048, 0, 3⟩
abbrev Reg.PWR_ENTRY_STAMP_LO : Nat := 0x04C
abbrev Fd.PWR_ENTRY_STAMP_LO_STAMP_LO : Fld := ⟨0x04C, 0, 32⟩
abbrev Reg.PWR_ENTRY_STAMP_HI : Nat := 0x050
abbrev Fd.PWR_ENTRY_STAMP_HI_STAMP_HI : Fld := ⟨0x050, 0, 32⟩
abbrev Reg.PWR_EXIT_STAMP_LO : Nat := 0x054
abbrev Fd.PWR_EXIT_STAMP_LO_STAMP_LO : Fld := ⟨0x054, 0, 32⟩
abbrev Reg.PWR_EXIT_STAMP_HI : Nat := 0x058
abbrev Fd.PWR_EXIT_STAMP_HI_STAMP_HI : Fld := ⟨0x058, 0, 32⟩
abbrev Reg.PWR_PF_STAMP_LO : Nat := 0x05C
abbrev Fd.PWR_PF_STAMP_LO_STAMP_LO : Fld := ⟨0x05C, 0, 32⟩
abbrev Reg.PWR_PF_STAMP_HI : Nat := 0x060
abbrev Fd.PWR_PF_STAMP_HI_STAMP_HI : Fld := ⟨0x060, 0, 32⟩
abbrev Reg.PWR_TIMER : Nat := 0x064
abbrev Fd.PWR_TIMER_SECONDS : Fld := ⟨0x064, 0, 24⟩
abbrev Reg.CRG_STATUS : Nat := 0x040
abbrev Fd.CRG_STATUS_PCIE1_SRIS : Fld := ⟨0x040, 9, 1⟩
abbrev Fd.CRG_STATUS_PCIE0_SRIS : Fld := ⟨0x040, 8, 1⟩
abbrev Fd.CRG_STATUS_T1_LOCK : Fld := ⟨0x040, 7, 1⟩
abbrev Fd.CRG_STATUS_PCIE1_LOCK : Fld := ⟨0x040, 6, 1⟩
abbrev Fd.CRG_STATUS_PCIE0_LOCK : Fld := ⟨0x040, 5, 1⟩
abbrev Fd.CRG_STATUS_SERDES_LOCK : Fld := ⟨0x040, 4, 1⟩
abbrev Fd.CRG_STATUS_MEM_LOCK : Fld := ⟨0x040, 3, 1⟩
abbrev Fd.CRG_STATUS_HOST_LOCK : Fld := ⟨0x040, 2, 1⟩
abbrev Fd.CRG_STATUS_FABRIC_LOCK : Fld := ⟨0x040, 1, 1⟩
abbrev Fd.CRG_STATUS_REF_OK : Fld := ⟨0x040, 0, 1⟩
abbrev Reg.LINE_STATUS : Nat := 0x040
abbrev Fd.LINE_STATUS_SEQ : Fld := ⟨0x040, 9, 3⟩
abbrev Fd.LINE_STATUS_X32K_FAIL : Fld := ⟨0x040, 8, 1⟩
abbrev Fd.LINE_STATUS_PMIC_EN : Fld := ⟨0x040, 7, 1⟩
abbrev Fd.LINE_STATUS_PG_DDR : Fld := ⟨0x040, 6, 1⟩
abbrev Fd.LINE_STATUS_PG_CORE : Fld := ⟨0x040, 5, 1⟩
abbrev Fd.LINE_STATUS_PG_IO : Fld := ⟨0x040, 4, 1⟩
abbrev Fd.LINE_STATUS_VCC5_OK : Fld := ⟨0x040, 3, 1⟩
abbrev Fd.LINE_STATUS_PF_WARN : Fld := ⟨0x040, 2, 1⟩
abbrev Fd.LINE_STATUS_LINK_OK : Fld := ⟨0x040, 0, 1⟩
abbrev Reg.LINE_VBAT : Nat := 0x044
abbrev Fd.LINE_VBAT_SNS_MV : Fld := ⟨0x044, 16, 16⟩
abbrev Fd.LINE_VBAT_VBAT_MV : Fld := ⟨0x044, 0, 16⟩
abbrev Reg.LINE_PF : Nat := 0x048
abbrev Fd.LINE_PF_FILT_US : Fld := ⟨0x048, 24, 8⟩
abbrev Fd.LINE_PF_RESTART : Fld := ⟨0x048, 16, 8⟩
abbrev Fd.LINE_PF_THR_MV : Fld := ⟨0x048, 0, 16⟩
abbrev Reg.LINE_VMON : Nat := 0x04C
abbrev Fd.LINE_VMON_HIGH_MV : Fld := ⟨0x04C, 16, 16⟩
abbrev Fd.LINE_VMON_LOW_MV : Fld := ⟨0x04C, 0, 16⟩
abbrev Reg.LINE_CFG : Nat := 0x050
abbrev Fd.LINE_CFG_X32K_EN : Fld := ⟨0x050, 9, 1⟩
abbrev Fd.LINE_CFG_VCC5_FORCE : Fld := ⟨0x050, 8, 1⟩
abbrev Fd.LINE_CFG_PMIC_OFF_MS : Fld := ⟨0x050, 0, 8⟩
abbrev Reg.LINE_RETAIN : Nat := 0x054
abbrev Fd.LINE_RETAIN_PLL_FAIL : Fld := ⟨0x054, 5, 1⟩
abbrev Fd.LINE_RETAIN_REF_LOST : Fld := ⟨0x054, 4, 1⟩
abbrev Fd.LINE_RETAIN_PG_LOST : Fld := ⟨0x054, 3, 1⟩
abbrev Fd.LINE_RETAIN_PG_TIMEOUT : Fld := ⟨0x054, 2, 1⟩
abbrev Fd.LINE_RETAIN_PF_DONE : Fld := ⟨0x054, 1, 1⟩
abbrev Fd.LINE_RETAIN_PF : Fld := ⟨0x054, 0, 1⟩
abbrev Reg.LOG_CFG : Nat := 0x040
abbrev Fd.LOG_CFG_MERGE_US : Fld := ⟨0x040, 20, 12⟩
abbrev Fd.LOG_CFG_PIN_SEV : Fld := ⟨0x040, 16, 3⟩
abbrev Fd.LOG_CFG_IRQ_SEV : Fld := ⟨0x040, 12, 3⟩
abbrev Fd.LOG_CFG_FIFO_SEV : Fld := ⟨0x040, 8, 3⟩
abbrev Fd.LOG_CFG_OVF_MODE : Fld := ⟨0x040, 0, 1⟩
abbrev Reg.LOG_STATUS : Nat := 0x044
abbrev Fd.LOG_STATUS_COUNT : Fld := ⟨0x044, 16, 11⟩
abbrev Fd.LOG_STATUS_WRAPPED : Fld := ⟨0x044, 15, 1⟩
abbrev Fd.LOG_STATUS_PIN : Fld := ⟨0x044, 14, 1⟩
abbrev Fd.LOG_STATUS_HEAD : Fld := ⟨0x044, 0, 10⟩
abbrev Reg.LOG_SEQ : Nat := 0x048
abbrev Fd.LOG_SEQ_NEXT : Fld := ⟨0x048, 0, 16⟩
abbrev Reg.LOG_FIFO : Nat := 0x04C
abbrev Fd.LOG_FIFO_WORD : Fld := ⟨0x04C, 0, 32⟩
abbrev Reg.LOG_FIFO_STAT : Nat := 0x050
abbrev Fd.LOG_FIFO_STAT_LEVEL : Fld := ⟨0x050, 0, 8⟩
abbrev Reg.LOG_MAXSEV : Nat := 0x054
abbrev Fd.LOG_MAXSEV_SEV : Fld := ⟨0x054, 0, 3⟩
abbrev Reg.LOG_CLEAR : Nat := 0x058
abbrev Fd.LOG_CLEAR_PIN_ACK : Fld := ⟨0x058, 1, 1⟩
abbrev Fd.LOG_CLEAR_CLEAR : Fld := ⟨0x058, 0, 1⟩
abbrev Reg.LOG_WDOG_CFG : Nat := 0x05C
abbrev Fd.LOG_WDOG_CFG_RESET_MS : Fld := ⟨0x05C, 16, 16⟩
abbrev Fd.LOG_WDOG_CFG_WARN_MS : Fld := ⟨0x05C, 0, 16⟩
abbrev Reg.LOG_WDOG_KICK : Nat := 0x060
abbrev Fd.LOG_WDOG_KICK_KEY : Fld := ⟨0x060, 16, 16⟩
abbrev Reg.LOG_WDOG_STAT : Nat := 0x064
abbrev Fd.LOG_WDOG_STAT_STAGE : Fld := ⟨0x064, 0, 2⟩

/-! ### The register table of each block: offset, stride, count, reset word, masks of RW, W1C, W1S, WO and RC bits -/

/-- Register table of GLB. -/
def regsGLB : List RegDef := [
  ⟨Reg.GLB_DEVICE, 0x0, 1, 0xA15A6240, 0x0, 0x0, 0x0, 0x0, 0x0⟩,
  ⟨Reg.GLB_WHOAMI, 0x0, 1, 0x0, 0x0, 0x0, 0x0, 0x0, 0x0⟩,
  ⟨Reg.GLB_MAP_VER, 0x0, 1, 0x1, 0x0, 0x0, 0x0, 0x0, 0x0⟩,
  ⟨Reg.GLB_RESET, 0x0, 1, 0x0, 0x0, 0x0, 0x0, 0xFFFF0000, 0x0⟩,
  ⟨Reg.GLB_BOOT, 0x0, 1, 0x0, 0x0, 0x0, 0x0, 0x0, 0x0⟩,
  ⟨Reg.GLB_ST_FAIL_LO, 0x0, 1, 0x0, 0x0, 0x0, 0x0, 0x0, 0x0⟩,
  ⟨Reg.GLB_ST_FAIL_HI, 0x0, 1, 0x0, 0x0, 0x0, 0x0, 0x0, 0x0⟩,
  ⟨Reg.GLB_READY_STAMP_LO, 0x0, 1, 0x0, 0x0, 0x0, 0x0, 0x0, 0x0⟩,
  ⟨Reg.GLB_READY_STAMP_HI, 0x0, 1, 0x0, 0x0, 0x0, 0x0, 0x0, 0x0⟩,
  ⟨Reg.GLB_REPAIR, 0x0, 1, 0x0, 0x0, 0x0, 0x0, 0x0, 0x0⟩]

/-- Register table of CRG. -/
def regsCRG : List RegDef := [
  ⟨Reg.CRG_STATUS, 0x0, 1, 0x0, 0x0, 0x0, 0x0, 0x0, 0x0⟩]

/-- Register table of PWR. -/
def regsPWR : List RegDef := [
  ⟨Reg.PWR_CFG, 0x0, 1, 0x3E80640, 0xFFFFFFF3, 0x0, 0x0, 0x0, 0x0⟩,
  ⟨Reg.PWR_REQ, 0x0, 1, 0x0, 0x0, 0x0, 0x80000000, 0x7, 0x0⟩,
  ⟨Reg.PWR_STATE, 0x0, 1, 0x0, 0x0, 0x0, 0x0, 0x0, 0x0⟩,
  ⟨Reg.PWR_ENTRY_STAMP_LO, 0x0, 1, 0x0, 0x0, 0x0, 0x0, 0x0, 0x0⟩,
  ⟨Reg.PWR_ENTRY_STAMP_HI, 0x0, 1, 0x0, 0x0, 0x0, 0x0, 0x0, 0x0⟩,
  ⟨Reg.PWR_EXIT_STAMP_LO, 0x0, 1, 0x0, 0x0, 0x0, 0x0, 0x0, 0x0⟩,
  ⟨Reg.PWR_EXIT_STAMP_HI, 0x0, 1, 0x0, 0x0, 0x0, 0x0, 0x0, 0x0⟩,
  ⟨Reg.PWR_PF_STAMP_LO, 0x0, 1, 0x0, 0x0, 0x0, 0x0, 0x0, 0x0⟩,
  ⟨Reg.PWR_PF_STAMP_HI, 0x0, 1, 0x0, 0x0, 0x0, 0x0, 0x0, 0x0⟩,
  ⟨Reg.PWR_TIMER, 0x0, 1, 0x0, 0xFFFFFF, 0x0, 0x0, 0x0, 0x0⟩]

/-- Register table of TIME. -/
def regsTIME : List RegDef := [
  ⟨Reg.TIME_CFG, 0x0, 1, 0x3, 0x3, 0x0, 0x0, 0x0, 0x0⟩,
  ⟨Reg.TIME_FRC_STATE, 0x0, 1, 0x0, 0x0, 0x0, 0x0, 0x0, 0x0⟩,
  ⟨Reg.TIME_FRC_LO, 0x0, 1, 0x0, 0x0, 0x0, 0x0, 0x0, 0x0⟩,
  ⟨Reg.TIME_FRC_HI, 0x0, 1, 0x0, 0x0, 0x0, 0x0, 0x0, 0x0⟩,
  ⟨Reg.TIME_FRC_FRAC, 0x0, 1, 0x0, 0x0, 0x0, 0x0, 0x0, 0x0⟩,
  ⟨Reg.TIME_EPOCH, 0x0, 1, 0x0, 0x0, 0x0, 0x0, 0x0, 0x0⟩,
  ⟨Reg.TIME_SNAP_CTRL, 0x0, 1, 0x0, 0x0, 0x0, 0x1, 0x0, 0x0⟩,
  ⟨Reg.TIME_SNAP_FRC_LO, 0x0, 1, 0x0, 0x0, 0x0, 0x0, 0x0, 0x0⟩,
  ⟨Reg.TIME_SNAP_FRC_HI, 0x0, 1, 0x0, 0x0, 0x0, 0x0, 0x0, 0x0⟩,
  ⟨Reg.TIME_SNAP_FRC_FRAC, 0x0, 1, 0x0, 0x0, 0x0, 0x0, 0x0, 0x0⟩,
  ⟨Reg.TIME_REARM, 0x0, 1, 0x0, 0x0, 0x0, 0x0, 0xFFFF0007, 0x0⟩,
  ⟨Reg.TIME_JNL_STATUS, 0x0, 1, 0x0, 0x0, 0x0, 0x0, 0x0, 0x0⟩,
  ⟨Reg.TIME_JNL_COPY, 0x0, 1, 0x0, 0x0, 0x0, 0x0, 0x0, 0x0⟩,
  ⟨Reg.TIME_CTM_CFG, 0x10, 4, 0x0, 0x7FD, 0x0, 0x0, 0x0, 0x0⟩,
  ⟨Reg.TIME_CTM_ID, 0x10, 4, 0x0, 0x1FFFFFFF, 0x0, 0x0, 0x0, 0x0⟩,
  ⟨Reg.TIME_CTM_PERIOD, 0x10, 4, 0x186A0, 0xFFFFFFFF, 0x0, 0x0, 0x0, 0x0⟩,
  ⟨Reg.TIME_CTM_STATUS, 0x10, 4, 0x0, 0x0, 0x0, 0x0, 0x0, 0x0⟩,
  ⟨Reg.TIME_VIEW_CFG, 0x40, 8, 0x640000, 0xFFFF0003, 0x0, 0x0, 0x0, 0x0⟩,
  ⟨Reg.TIME_VIEW_STATE, 0x40, 8, 0x0, 0x0, 0x0, 0x0, 0x0, 0x0⟩,
  ⟨Reg.TIME_VIEW_RATE, 0x40, 8, 0x0, 0xFFFFFFFF, 0x0, 0x0, 0x0, 0x0⟩,
  ⟨Reg.TIME_VIEW_RATE_HI, 0x40, 8, 0x0, 0xFF, 0x0, 0x0, 0x0, 0x0⟩,
  ⟨Reg.TIME_VIEW_DELTA_LO, 0x40, 8, 0x0, 0xFFFFFFFF, 0x0, 0x0, 0x0, 0x0⟩,
  ⟨Reg.TIME_VIEW_DELTA_HI, 0x40, 8, 0x0, 0xFFFFFFFF, 0x0, 0x0, 0x0, 0x0⟩,
  ⟨Reg.TIME_VIEW_DELTA_FRAC, 0x40, 8, 0x0, 0xFFFF, 0x0, 0x0, 0x0, 0x0⟩,
  ⟨Reg.TIME_VIEW_CMD, 0x40, 8, 0x0, 0x0, 0x0, 0x0, 0xF, 0x0⟩,
  ⟨Reg.TIME_VIEW_JUMP_THR, 0x40, 8, 0xF4240, 0xFFFFFFFF, 0x0, 0x0, 0x0, 0x0⟩,
  ⟨Reg.TIME_VIEW_APPLIED, 0x40, 8, 0x0, 0x0, 0x0, 0x0, 0x0, 0x0⟩,
  ⟨Reg.TIME_VIEW_APPLIED_HI, 0x40, 8, 0x0, 0x0, 0x0, 0x0, 0x0, 0x0⟩,
  ⟨Reg.TIME_VIEW_SNAP_LO, 0x40, 8, 0x0, 0x0, 0x0, 0x0, 0x0, 0x0⟩,
  ⟨Reg.TIME_VIEW_SNAP_HI, 0x40, 8, 0x0, 0x0, 0x0, 0x0, 0x0, 0x0⟩,
  ⟨Reg.TIME_VIEW_SNAP_FRAC, 0x40, 8, 0x0, 0x0, 0x0, 0x0, 0x0, 0x0⟩]

/-- Register table of GPTP. -/
def regsGPTP : List RegDef := [
  ⟨Reg.GPTP_CFG, 0x0, 1, 0x0, 0x3, 0x0, 0x0, 0x0, 0x0⟩,
  ⟨Reg.GPTP_INST_CFG, 0x40, 4, 0x3D0000, 0xFF7F03, 0x0, 0x0, 0x0, 0x0⟩,
  ⟨Reg.GPTP_INST_SERVO, 0x40, 4, 0x502, 0xFFFF, 0x0, 0x0, 0x0, 0x0⟩,
  ⟨Reg.GPTP_INST_STATE, 0x40, 4, 0x1F00, 0x0, 0x0, 0x0, 0x0, 0x0⟩,
  ⟨Reg.GPTP_INST_OFFSET, 0x40, 4, 0x0, 0x0, 0x0, 0x0, 0x0, 0x0⟩,
  ⟨Reg.GPTP_INST_RATIO, 0x40, 4, 0x0, 0x0, 0x0, 0x0, 0x0, 0x0⟩]

/-- Register table of CANC. -/
def regsCANC : List RegDef := [
  ⟨Reg.CANC_CFG, 0x0, 1, 0x6400, 0xF000FF80, 0x0, 0x0, 0x0, 0x0⟩,
  ⟨Reg.CANC_MODE, 0x0, 1, 0xF00, 0xF, 0x0, 0x1000, 0x0, 0x0⟩,
  ⟨Reg.CANC_NBTIM, 0x0, 1, 0x7E3E7C, 0xFFFFFFFC, 0x0, 0x0, 0x0, 0x0⟩,
  ⟨Reg.CANC_DBTIM, 0x0, 1, 0x1A42000, 0xFFFFF800, 0x0, 0x0, 0x0, 0x0⟩,
  ⟨Reg.CANC_XBTIM, 0x0, 1, 0x1A42000, 0xFFFFF800, 0x0, 0x0, 0x0, 0x0⟩,
  ⟨Reg.CANC_TDC, 0x0, 1, 0x0, 0xFF00FF00, 0x0, 0x0, 0x0, 0x0⟩,
  ⟨Reg.CANC_TDC_STAT, 0x0, 1, 0x0, 0x0, 0x0, 0x0, 0x0, 0x0⟩,
  ⟨Reg.CANC_XLCFG, 0x0, 1, 0x1042, 0xFFFFC3, 0x0, 0x0, 0x0, 0x0⟩,
  ⟨Reg.CANC_ERR, 0x0, 1, 0x0, 0x0, 0x0, 0x0, 0x0, 0x0⟩,
  ⟨Reg.CANC_EWL, 0x0, 1, 0x6060, 0xFFFF, 0x0, 0x0, 0x0, 0x0⟩,
  ⟨Reg.CANC_OBJ_RANGE, 0x0, 1, 0x0, 0x3FFF1FFF, 0x0, 0x0, 0x0, 0x0⟩,
  ⟨Reg.CANC_RXQ, 0x0, 1, 0xFFFFFFFF, 0x0, 0x0, 0x0, 0x0, 0xFFFFFFFF⟩,
  ⟨Reg.CANC_RXQ_STAT, 0x0, 1, 0x0, 0x0, 0x0, 0x0, 0x0, 0x0⟩,
  ⟨Reg.CANC_TXB_CMD, 0x0, 1, 0x0, 0x0, 0x0, 0x707, 0x0, 0x0⟩,
  ⟨Reg.CANC_TXB_STAT, 0x0, 1, 0x0, 0x0, 0x0, 0x0, 0x0, 0x0⟩,
  ⟨Reg.CANC_RTQ_STAT, 0x0, 1, 0x0, 0x0, 0x0, 0x0, 0x0, 0x0⟩,
  ⟨Reg.CANC_CLASH_ID, 0x0, 1, 0x0, 0x0, 0x80000000, 0x0, 0x0, 0x0⟩,
  ⟨Reg.CANC_CLASH_STAMP_LO, 0x0, 1, 0x0, 0x0, 0x0, 0x0, 0x0, 0x0⟩,
  ⟨Reg.CANC_CLASH_STAMP_HI, 0x0, 1, 0x0, 0x0, 0x0, 0x0, 0x0, 0x0⟩,
  ⟨Reg.CANC_ARD_CFG, 0x0, 1, 0xC82300, 0x3FFFF17, 0x0, 0x0, 0x0, 0x0⟩,
  ⟨Reg.CANC_ARD_STATUS, 0x0, 1, 0x0, 0x0, 0x0, 0x0, 0x0, 0x0⟩]

/-- Register table of LINC. -/
def regsLINC : List RegDef := [
  ⟨Reg.LINC_CFG, 0x0, 1, 0x1C0, 0x1C3, 0x0, 0x0, 0x0, 0x0⟩,
  ⟨Reg.LINC_BAUD, 0x0, 1, 0x1046B, 0x1FFFFF, 0x0, 0x0, 0x0, 0x0⟩,
  ⟨Reg.LINC_TIMING, 0x0, 1, 0xD8C03E8, 0x1FFFFFFF, 0x0, 0x0, 0x0, 0x0⟩,
  ⟨Reg.LINC_MODE, 0x0, 1, 0xF00, 0xF, 0x0, 0x1000, 0x0, 0x0⟩,
  ⟨Reg.LINC_SCHED, 0x0, 1, 0x0, 0x1, 0x0, 0x2, 0x0, 0x0⟩,
  ⟨Reg.LINC_RXQ, 0x0, 1, 0xFFFFFFFF, 0x0, 0x0, 0x0, 0x0, 0xFFFFFFFF⟩,
  ⟨Reg.LINC_RXQ_STAT, 0x0, 1, 0x0, 0x0, 0x0, 0x0, 0x0, 0x0⟩]

/-- Register table of SER. -/
def regsSER : List RegDef := [
  ⟨Reg.SER_CFG, 0x0, 1, 0xC01000, 0xF1F000, 0x0, 0x0, 0x0, 0x0⟩,
  ⟨Reg.SER_BAUD, 0x0, 1, 0x1B207, 0xFFFFFF, 0x0, 0x0, 0x0, 0x0⟩,
  ⟨Reg.SER_FRAME, 0x0, 1, 0x7000100, 0xFF0007FF, 0x0, 0x0, 0x0, 0x0⟩,
  ⟨Reg.SER_LENFMT, 0x0, 1, 0x0, 0xFFFF01, 0x0, 0x0, 0x0, 0x0⟩,
  ⟨Reg.SER_DELIM, 0x0, 1, 0x0, 0xFFFFFF03, 0x0, 0x0, 0x0, 0x0⟩,
  ⟨Reg.SER_TURN, 0x0, 1, 0x640402, 0xFFFFFFFF, 0x0, 0x0, 0x0, 0x0⟩,
  ⟨Reg.SER_MODE, 0x0, 1, 0xF00, 0xF, 0x0, 0x0, 0x0, 0x0⟩,
  ⟨Reg.SER_TXB, 0x0, 1, 0x0, 0x7FF, 0x0, 0xC000, 0x0, 0x0⟩,
  ⟨Reg.SER_RTQ_STAT, 0x0, 1, 0x0, 0x0, 0x0, 0x0, 0x0, 0x0⟩,
  ⟨Reg.SER_RXQ, 0x0, 1, 0xFFFFFFFF, 0x0, 0x0, 0x0, 0x0, 0xFFFFFFFF⟩,
  ⟨Reg.SER_RXQ_STAT, 0x0, 1, 0x0, 0x0, 0x0, 0x0, 0x0, 0x0⟩]

/-- Register table of SRT. -/
def regsSRT : List RegDef := [
  ⟨Reg.SRT_CFG, 0x0, 1, 0x3, 0xF, 0x0, 0x0, 0x0, 0x0⟩,
  ⟨Reg.SRT_GEN, 0x0, 1, 0x0, 0x0, 0x0, 0x0, 0x0, 0x0⟩,
  ⟨Reg.SRT_INQ_STAT, 0x0, 1, 0x0, 0x0, 0x0, 0x0, 0x0, 0x7FF0000⟩,
  ⟨Reg.SRT_EVQ, 0x0, 1, 0xFFFFFFFF, 0x0, 0x0, 0x0, 0x0, 0xFFFFFFFF⟩,
  ⟨Reg.SRT_EVQ_STAT, 0x0, 1, 0x0, 0x0, 0x0, 0x0, 0x0, 0x0⟩,
  ⟨Reg.SRT_RELEASE, 0x0, 1, 0x0, 0x0, 0x0, 0x80000000, 0x1F1FFF, 0x0⟩,
  ⟨Reg.SRT_MAC_LO, 0x0, 1, 0x0, 0xFFFFFFFF, 0x0, 0x0, 0x0, 0x0⟩,
  ⟨Reg.SRT_MAC_HI, 0x0, 1, 0x0, 0xFFFF, 0x0, 0x0, 0x0, 0x0⟩]

/-- Register table of EPRT. -/
def regsEPRT : List RegDef := [
  ⟨Reg.EPRT_CFG, 0x0, 1, 0x5F20003, 0xFFFF00C3, 0x0, 0x0, 0x0, 0x0⟩,
  ⟨Reg.EPRT_PCS, 0x0, 1, 0xA00, 0xCF0F, 0x0, 0x0, 0x0, 0x0⟩,
  ⟨Reg.EPRT_SERDES, 0x0, 1, 0x10, 0x3FFF, 0x0, 0x0, 0x0, 0x0⟩,
  ⟨Reg.EPRT_T1, 0x0, 1, 0x0, 0x71, 0x0, 0x0, 0x0, 0x0⟩,
  ⟨Reg.EPRT_PLCA, 0x0, 1, 0x800008FF, 0xFFFFFFFF, 0x0, 0x0, 0x0, 0x0⟩,
  ⟨Reg.EPRT_PLCA_CTRL, 0x0, 1, 0x20, 0x1FF, 0x0, 0x0, 0x0, 0x0⟩,
  ⟨Reg.EPRT_RX_LAT, 0x0, 1, 0x0, 0xFFFFF, 0x0, 0x0, 0x0, 0x0⟩,
  ⟨Reg.EPRT_TX_LAT, 0x0, 1, 0x0, 0xFFFFF, 0x0, 0x0, 0x0, 0x0⟩,
  ⟨Reg.EPRT_HOLD, 0x0, 1, 0xA, 0x3F, 0x0, 0x0, 0x0, 0x0⟩,
  ⟨Reg.EPRT_STATE, 0x0, 1, 0x380, 0x0, 0x0, 0x0, 0x0, 0x0⟩,
  ⟨Reg.EPRT_DOWN_STAMP_LO, 0x0, 1, 0x0, 0x0, 0x0, 0x0, 0x0, 0x0⟩,
  ⟨Reg.EPRT_DOWN_STAMP_HI, 0x0, 1, 0x0, 0x0, 0x0, 0x0, 0x0, 0x0⟩,
  ⟨Reg.EPRT_UP_STAMP_LO, 0x0, 1, 0x0, 0x0, 0x0, 0x0, 0x0, 0x0⟩,
  ⟨Reg.EPRT_UP_STAMP_HI, 0x0, 1, 0x0, 0x0, 0x0, 0x0, 0x0, 0x0⟩,
  ⟨Reg.EPRT_PMAC, 0x0, 1, 0xA00, 0xFFFF33, 0x0, 0x0, 0x0, 0x0⟩,
  ⟨Reg.EPRT_PMAC_STAT, 0x0, 1, 0x0, 0x0, 0x0, 0x0, 0x0, 0x0⟩,
  ⟨Reg.EPRT_TC10, 0x0, 1, 0x4, 0x4, 0x0, 0x3, 0x0, 0x0⟩,
  ⟨Reg.EPRT_AGE, 0x4, 8, 0x0, 0xFFFF, 0x0, 0x0, 0x0, 0x0⟩]

/-- Register table of PIPE. -/
def regsPIPE : List RegDef := [
  ⟨Reg.PIPE_CFG, 0x0, 1, 0x640000, 0x3FF0003, 0x0, 0x0, 0x0, 0x0⟩,
  ⟨Reg.PIPE_TPID, 0x0, 1, 0x9100, 0x3FFFF, 0x0, 0x0, 0x0, 0x0⟩,
  ⟨Reg.PIPE_TUNNEL, 0x0, 1, 0x12B5, 0x3FFFF, 0x0, 0x0, 0x0, 0x0⟩,
  ⟨Reg.PIPE_GEN, 0x0, 1, 0x0, 0x0, 0x0, 0x0, 0x0, 0x0⟩,
  ⟨Reg.PIPE_INFLIGHT_CUR, 0x0, 1, 0x0, 0x0, 0x0, 0x0, 0x0, 0x0⟩,
  ⟨Reg.PIPE_INFLIGHT_PREV, 0x0, 1, 0x0, 0x0, 0x0, 0x0, 0x0, 0x0⟩,
  ⟨Reg.PIPE_COMMIT_STAMP_LO, 0x0, 1, 0x0, 0x0, 0x0, 0x0, 0x0, 0x0⟩,
  ⟨Reg.PIPE_COMMIT_STAMP_HI, 0x0, 1, 0x0, 0x0, 0x0, 0x0, 0x0, 0x0⟩,
  ⟨Reg.PIPE_ECC_LOC, 0x0, 1, 0x0, 0x0, 0x80000000, 0x0, 0x0, 0x0⟩]

/-- Register table of FDB. -/
def regsFDB : List RegDef := [
  ⟨Reg.FDB_CFG, 0x0, 1, 0x3, 0x1F, 0x0, 0x0, 0x0, 0x0⟩,
  ⟨Reg.FDB_AGE, 0x0, 1, 0x12C, 0xFFFF, 0x0, 0x0, 0x0, 0x0⟩,
  ⟨Reg.FDB_SEED0_LO, 0x0, 1, 0x9E3779B9, 0x0, 0x0, 0x0, 0x0, 0x0⟩,
  ⟨Reg.FDB_SEED0_HI, 0x0, 1, 0x7F4A7C15, 0x0, 0x0, 0x0, 0x0, 0x0⟩,
  ⟨Reg.FDB_SEED1_LO, 0x0, 1, 0x85EBCA6B, 0x0, 0x0, 0x0, 0x0, 0x0⟩,
  ⟨Reg.FDB_SEED1_HI, 0x0, 1, 0xC2B2AE35, 0x0, 0x0, 0x0, 0x0, 0x0⟩,
  ⟨Reg.FDB_SB_SEED0_LO, 0x0, 1, 0x9E3779B9, 0xFFFFFFFF, 0x0, 0x0, 0x0, 0x0⟩,
  ⟨Reg.FDB_SB_SEED0_HI, 0x0, 1, 0x7F4A7C15, 0xFFFFFFFF, 0x0, 0x0, 0x0, 0x0⟩,
  ⟨Reg.FDB_SB_SEED1_LO, 0x0, 1, 0x85EBCA6B, 0xFFFFFFFF, 0x0, 0x0, 0x0, 0x0⟩,
  ⟨Reg.FDB_SB_SEED1_HI, 0x0, 1, 0xC2B2AE35, 0xFFFFFFFF, 0x0, 0x0, 0x0, 0x0⟩,
  ⟨Reg.FDB_GEN, 0x0, 1, 0x0, 0x0, 0x0, 0x0, 0x0, 0x0⟩,
  ⟨Reg.FDB_COUNT, 0x0, 1, 0x0, 0x0, 0x0, 0x0, 0x0, 0x0⟩,
  ⟨Reg.FDB_STASH_WARN, 0x0, 1, 0x30, 0x7F, 0x0, 0x0, 0x0, 0x0⟩,
  ⟨Reg.FDB_WIN_RESULT, 0x0, 1, 0x0, 0x0, 0x0, 0x0, 0x0, 0x0⟩,
  ⟨Reg.FDB_WIN_HASH, 0x0, 1, 0x0, 0x0, 0x0, 0x0, 0x0, 0x0⟩,
  ⟨Reg.FDB_NEXT_FILTER, 0x0, 1, 0x0, 0x3FFFFC07, 0x0, 0x0, 0x0, 0x0⟩,
  ⟨Reg.FDB_SWEEP, 0x0, 1, 0x0, 0x0, 0x0, 0x0, 0x0, 0x0⟩,
  ⟨Reg.FDB_ECC_LOC, 0x0, 1, 0x0, 0x0, 0x80000000, 0x0, 0x0, 0x0⟩]

/-- Register table of SWC. -/
def regsSWC : List RegDef := [
  ⟨Reg.SWC_CFG, 0x0, 1, 0x22, 0x77, 0x0, 0x0, 0x0, 0x0⟩,
  ⟨Reg.SWC_FREE, 0x0, 1, 0x18000, 0x0, 0x0, 0x0, 0x0, 0x0⟩,
  ⟨Reg.SWC_FREE_MIN, 0x0, 1, 0x18000, 0x0, 0x0, 0x0, 0x0, 0x1FFFF⟩,
  ⟨Reg.SWC_FREE_WARN, 0x0, 1, 0x1000, 0x1FFFF, 0x0, 0x0, 0x0, 0x0⟩,
  ⟨Reg.SWC_SPILL_ON, 0x0, 1, 0x2000, 0x1FFFF, 0x0, 0x0, 0x0, 0x0⟩,
  ⟨Reg.SWC_SPILL_OFF, 0x0, 1, 0x4000, 0x1FFFF, 0x0, 0x0, 0x0, 0x0⟩,
  ⟨Reg.SWC_SPILL_HEAD, 0x0, 1, 0x400080, 0xFFFFFFFF, 0x0, 0x0, 0x0, 0x0⟩,
  ⟨Reg.SWC_SPILL_STAT, 0x0, 1, 0x0, 0x0, 0x0, 0x0, 0x0, 0x0⟩,
  ⟨Reg.SWC_SPILL_BLOCKS, 0x0, 1, 0x0, 0x0, 0x0, 0x0, 0x0, 0x0⟩,
  ⟨Reg.SWC_HOST_FLOOR, 0x0, 1, 0x400, 0x1FFFF, 0x0, 0x0, 0x0, 0x0⟩,
  ⟨Reg.SWC_QENTRY_FREE, 0x0, 1, 0x20000, 0x0, 0x0, 0x0, 0x0, 0x0⟩,
  ⟨Reg.SWC_RECIRC_STAT, 0x0, 1, 0x0, 0x0, 0x0, 0x0, 0x0, 0x0⟩,
  ⟨Reg.SWC_ECC_LOC, 0x0, 1, 0x0, 0x0, 0x80000000, 0x0, 0x0, 0x0⟩,
  ⟨0x080, 0, 1, 0x700, 0x671FFFF, 0, 0, 0, 0⟩,
  ⟨0x088, 0, 1, 0x100600, 0x671FFFF, 0, 0, 0, 0⟩,
  ⟨0x090, 0, 1, 0x200500, 0x671FFFF, 0, 0, 0, 0⟩,
  ⟨0x098, 0, 1, 0x300400, 0x671FFFF, 0, 0, 0, 0⟩,
  ⟨0x0A0, 0, 1, 0x400300, 0x671FFFF, 0, 0, 0, 0⟩,
  ⟨0x0A8, 0, 1, 0x500200, 0x671FFFF, 0, 0, 0, 0⟩,
  ⟨0x0B0, 0, 1, 0x600100, 0x671FFFF, 0, 0, 0, 0⟩,
  ⟨0x0B8, 0, 1, 0x700000, 0x671FFFF, 0, 0, 0, 0⟩,
  ⟨Reg.SWC_CLASS_QMAX, 0x8, 8, 0x2000, 0x3FFFFFF, 0x0, 0x0, 0x0, 0x0⟩,
  ⟨Reg.SWC_MIRROR, 0x4, 4, 0x230000, 0x803F1F07, 0x0, 0x0, 0x0, 0x0⟩,
  ⟨Reg.SWC_SAMP_CFG, 0x8, 4, 0x4002310, 0xFFFFFFFF, 0x0, 0x0, 0x0, 0x0⟩,
  ⟨Reg.SWC_SAMP_POS, 0x8, 4, 0x0, 0x0, 0x0, 0x0, 0x0, 0x0⟩]

/-- Register table of EGR. -/
def regsEGR : List RegDef := [
  ⟨Reg.EGR_CFG, 0x0, 1, 0x1, 0x1, 0x0, 0x0, 0x0, 0x0⟩,
  ⟨Reg.EGR_GCL_CMD, 0x0, 1, 0x0, 0x0, 0x0, 0x80000000, 0x31F, 0x0⟩,
  ⟨Reg.EGR_GCL_PENDING, 0x0, 1, 0x0, 0x0, 0x0, 0x0, 0x0, 0x0⟩,
  ⟨Reg.EGR_GCL_ERRMAP, 0x0, 1, 0x0, 0x0, 0x0, 0x0, 0x0, 0x0⟩,
  ⟨Reg.EGR_FRER_FREE, 0x0, 1, 0x4000100, 0x0, 0x0, 0x0, 0x0, 0x0⟩,
  ⟨Reg.EGR_ECC_LOC, 0x0, 1, 0x0, 0x0, 0x80000000, 0x0, 0x0, 0x0⟩]

/-- Register table of EMC. -/
def regsEMC : List RegDef := [
  ⟨Reg.EMC_CFG, 0x0, 1, 0x1, 0x701, 0x0, 0x2, 0x0, 0x0⟩,
  ⟨Reg.EMC_DRAM, 0x0, 1, 0x0, 0x0, 0x0, 0x0, 0x0, 0x0⟩,
  ⟨Reg.EMC_USABLE, 0x0, 1, 0x0, 0x0, 0x0, 0x0, 0x0, 0x0⟩,
  ⟨Reg.EMC_SPILL, 0x0, 1, 0x0, 0xFFF, 0x0, 0x0, 0x0, 0x0⟩,
  ⟨Reg.EMC_TRN, 0x0, 1, 0x0, 0x3FFF, 0x0, 0x0, 0x0, 0x0⟩,
  ⟨Reg.EMC_HOST, 0x0, 1, 0x0, 0xF, 0x0, 0x0, 0x0, 0x0⟩,
  ⟨Reg.EMC_HOG_LIMIT, 0x0, 1, 0x1000, 0xFFFF, 0x0, 0x0, 0x0, 0x0⟩,
  ⟨Reg.EMC_HOG_STAT, 0x0, 1, 0x0, 0x0, 0xFF, 0x0, 0x0, 0x0⟩,
  ⟨Reg.EMC_ARB, 0x0, 1, 0x8, 0x0, 0x0, 0x0, 0x0, 0x0⟩,
  ⟨Reg.EMC_ECC_LOC, 0x0, 1, 0x0, 0x0, 0x80000000, 0x0, 0x0, 0x0⟩,
  ⟨Reg.EMC_SCRUB, 0x0, 1, 0xE10, 0xFFFF, 0x0, 0x0, 0x0, 0x0⟩,
  ⟨Reg.EMC_TEMP, 0x0, 1, 0x0, 0x0, 0x0, 0x0, 0x0, 0x0⟩,
  ⟨Reg.EMC_WAIT_MAX, 0x4, 8, 0x0, 0x0, 0x0, 0x0, 0x0, 0xFFFF⟩]

/-- Register table of TRN. -/
def regsTRN : List RegDef := [
  ⟨Reg.TRN_CFG, 0x0, 1, 0x3E80000, 0xFFFF0000, 0x0, 0x0, 0x0, 0x0⟩,
  ⟨Reg.TRN_RING, 0x0, 1, 0x0, 0x0, 0x0, 0x0, 0x0, 0x0⟩,
  ⟨Reg.TRN_SEGS, 0x0, 1, 0x0, 0x0, 0x0, 0x0, 0x0, 0x0⟩,
  ⟨Reg.TRN_SUSP, 0x0, 1, 0x4000040, 0x3FFF3FFF, 0x0, 0x0, 0x0, 0x0⟩,
  ⟨Reg.TRN_STATE, 0x0, 1, 0x0, 0x0, 0x0, 0x0, 0x0, 0x0⟩,
  ⟨Reg.TRN_TAP_CAN, 0x0, 1, 0x0, 0xFFFFFF, 0x0, 0x0, 0x0, 0x0⟩,
  ⟨Reg.TRN_TAP_CANTX, 0x0, 1, 0x0, 0xFFFFFF, 0x0, 0x0, 0x0, 0x0⟩,
  ⟨Reg.TRN_TAP_MISC, 0x0, 1, 0x10000, 0x3CFFF, 0x0, 0x0, 0x0, 0x0⟩,
  ⟨Reg.TRN_QCFG, 0x0, 1, 0x7F005000, 0x7F07FF00, 0x0, 0x0, 0x0, 0x0⟩,
  ⟨Reg.TRN_QWIN, 0x0, 1, 0x3C001E, 0xFFFF03FF, 0x0, 0x0, 0x0, 0x0⟩,
  ⟨Reg.TRN_QPF, 0x0, 1, 0x1E0000, 0xFFFF0000, 0x0, 0x0, 0x0, 0x0⟩,
  ⟨Reg.TRN_QTRIG, 0x0, 1, 0x0, 0x0, 0x0, 0x80000000, 0xFF, 0x0⟩,
  ⟨Reg.TRN_QREL, 0x0, 1, 0x0, 0x0, 0x0, 0x80000000, 0x3, 0x0⟩,
  ⟨Reg.TRN_QSTAT, 0x0, 1, 0x0, 0x0, 0x0, 0x0, 0x0, 0x0⟩,
  ⟨Reg.TRN_XADDR_LO, 0x0, 1, 0x0, 0xFFFFFFFF, 0x0, 0x0, 0x0, 0x0⟩,
  ⟨Reg.TRN_XADDR_HI, 0x0, 1, 0x0, 0xFFFFFFFF, 0x0, 0x0, 0x0, 0x0⟩,
  ⟨Reg.TRN_XCMD, 0x0, 1, 0x0, 0x0, 0x0, 0x80000000, 0x73FFF, 0x0⟩,
  ⟨Reg.TRN_XSTAT, 0x0, 1, 0x0, 0x0, 0x6, 0x0, 0x0, 0x0⟩,
  ⟨Reg.TRN_WIN_RESULT, 0x0, 1, 0x0, 0x0, 0x0, 0x0, 0x0, 0x0⟩]

/-- Register table of KEY. -/
def regsKEY : List RegDef := [
  ⟨Reg.KEY_CMD, 0x0, 1, 0x0, 0x0, 0x0, 0x80000000, 0xF0000FF, 0x0⟩,
  ⟨Reg.KEY_ATTR, 0x0, 1, 0x0, 0x3FBF1FF0, 0x0, 0x0, 0x0, 0x0⟩,
  ⟨Reg.KEY_SUBJ, 0x0, 1, 0x0, 0xFFFFFFFF, 0x0, 0x0, 0x0, 0x0⟩,
  ⟨Reg.KEY_RESULT, 0x0, 1, 0x0, 0x0, 0x0, 0x0, 0x0, 0x0⟩,
  ⟨Reg.KEY_CMD_STATUS, 0x0, 1, 0x0, 0x0, 0x6, 0x0, 0x0, 0x0⟩,
  ⟨Reg.KEY_FREE, 0x0, 1, 0xFE, 0x0, 0x0, 0x0, 0x0, 0x0⟩]

/-- Register table of MSEC. -/
def regsMSEC : List RegDef := [
  ⟨Reg.MSEC_CFG, 0x0, 1, 0x14, 0x1F, 0x0, 0x0, 0x0, 0x0⟩,
  ⟨Reg.MSEC_PN_WARN, 0x0, 1, 0xF0000000, 0xFFFFFFFF, 0x0, 0x0, 0x0, 0x0⟩,
  ⟨Reg.MSEC_XPN_WARN_HI, 0x0, 1, 0xF0000000, 0xFFFFFFFF, 0x0, 0x0, 0x0, 0x0⟩,
  ⟨Reg.MSEC_ECC_LOC, 0x0, 1, 0x0, 0x0, 0x80000000, 0x0, 0x0, 0x0⟩]

/-- Register table of HDOM. -/
def regsHDOM : List RegDef := [
  ⟨Reg.HDOM_STATE, 0x0, 1, 0x0, 0x0, 0x0, 0x0, 0x0, 0x0⟩,
  ⟨Reg.HDOM_RESET_STAMP_LO, 0x0, 1, 0x0, 0x0, 0x0, 0x0, 0x0, 0x0⟩,
  ⟨Reg.HDOM_RESET_STAMP_HI, 0x0, 1, 0x0, 0x0, 0x0, 0x0, 0x0, 0x0⟩,
  ⟨Reg.HDOM_WDOG, 0x0, 1, 0x0, 0xFFFF, 0x0, 0x0, 0x0, 0x0⟩,
  ⟨Reg.HDOM_WDOG_KICK, 0x0, 1, 0x0, 0x0, 0x0, 0x0, 0xFFFF0000, 0x0⟩,
  ⟨Reg.HDOM_VEC_PEND, 0x0, 1, 0x0, 0x0, 0x0, 0x0, 0x0, 0x0⟩,
  ⟨Reg.HDOM_VEC_MASK, 0x0, 1, 0xFFFFFFFF, 0xFFFFFFFF, 0x0, 0x0, 0x0, 0x0⟩,
  ⟨Reg.HDOM_VEC_EOI, 0x0, 1, 0x0, 0x0, 0x0, 0x0, 0xFFFFFFFF, 0x0⟩]

/-- Register table of BRK. -/
def regsBRK : List RegDef := [
  ⟨Reg.BRK_LAST_BREAK, 0x0, 1, 0x0, 0x0, 0x80000000, 0x0, 0x0, 0x0⟩,
  ⟨Reg.BRK_LAST_BREAK_STAMP_LO, 0x0, 1, 0x0, 0x0, 0x0, 0x0, 0x0, 0x0⟩,
  ⟨Reg.BRK_LAST_BREAK_STAMP_HI, 0x0, 1, 0x0, 0x0, 0x0, 0x0, 0x0, 0x0⟩,
  ⟨Reg.BRK_LAST_RESET, 0x0, 1, 0x0, 0x0, 0x80000000, 0x0, 0x0, 0x0⟩,
  ⟨Reg.BRK_LAST_RESET_STAMP_LO, 0x0, 1, 0x0, 0x0, 0x0, 0x0, 0x0, 0x0⟩,
  ⟨Reg.BRK_LAST_RESET_STAMP_HI, 0x0, 1, 0x0, 0x0, 0x0, 0x0, 0x0, 0x0⟩,
  ⟨Reg.BRK_LOCK, 0x4, 64, 0x0, 0x0, 0x0, 0x0, 0x3, 0x0⟩,
  ⟨Reg.BRK_ALLOW, 0x4, 64, 0xBF, 0xBF, 0x0, 0x0, 0x0, 0x0⟩,
  ⟨Reg.BRK_GUARD, 0x4, 64, 0x0, 0x83FFF000, 0x0, 0x0, 0x0, 0x0⟩]

/-- Register table of NM. -/
def regsNM : List RegDef := [
  ⟨Reg.NM_STATUS, 0x0, 1, 0x0, 0x0, 0x0, 0x0, 0x0, 0x0⟩,
  ⟨Reg.NM_DEV_WAKE, 0x0, 1, 0x0, 0x0, 0x80000000, 0x0, 0x0, 0x0⟩,
  ⟨Reg.NM_DEV_WAKE_STAMP_LO, 0x0, 1, 0x0, 0x0, 0x0, 0x0, 0x0, 0x0⟩,
  ⟨Reg.NM_DEV_WAKE_STAMP_HI, 0x0, 1, 0x0, 0x0, 0x0, 0x0, 0x0, 0x0⟩,
  ⟨Reg.NM_T1S_ACT, 0x0, 1, 0xA0228, 0xFF0FFF, 0x0, 0x0, 0x0, 0x0⟩,
  ⟨Reg.NM_WAKEIN, 0x4, 8, 0x200, 0xFFFF3D, 0x0, 0x0, 0x0, 0x0⟩,
  ⟨Reg.NM_CL_CFG, 0x40, 8, 0x0, 0xFF00000D, 0x0, 0x0, 0x0, 0x0⟩,
  ⟨Reg.NM_CL_ID, 0x40, 8, 0x500, 0x9FFFFFFF, 0x0, 0x0, 0x0, 0x0⟩,
  ⟨Reg.NM_CL_IDMASK, 0x40, 8, 0x700, 0x1FFFFFFF, 0x0, 0x0, 0x0, 0x0⟩,
  ⟨Reg.NM_CL_TIME1, 0x40, 8, 0x7D00064, 0xFFFFFFFF, 0x0, 0x0, 0x0, 0x0⟩,
  ⟨Reg.NM_CL_TIME2, 0x40, 8, 0x5DC05DC, 0xFFFFFFFF, 0x0, 0x0, 0x0, 0x0⟩,
  ⟨Reg.NM_CL_TIME3, 0x40, 8, 0x3E8003C, 0xFFFFFFFF, 0x0, 0x0, 0x0, 0x0⟩,
  ⟨Reg.NM_CL_CAN, 0x40, 8, 0x0, 0xFFFFFF, 0x0, 0x0, 0x0, 0x0⟩,
  ⟨Reg.NM_CL_SEG, 0x40, 8, 0x0, 0xFFFFF0FF, 0x0, 0x0, 0x0, 0x0⟩,
  ⟨Reg.NM_CL_PNMASK_LO, 0x40, 8, 0x0, 0xFFFFFFFF, 0x0, 0x0, 0x0, 0x0⟩,
  ⟨Reg.NM_CL_PNMASK_HI, 0x40, 8, 0x0, 0xFFFF, 0x0, 0x0, 0x0, 0x0⟩,
  ⟨Reg.NM_CL_TXPN_LO, 0x40, 8, 0x0, 0xFFFFFFFF, 0x0, 0x0, 0x0, 0x0⟩,
  ⟨Reg.NM_CL_TXPN_HI, 0x40, 8, 0x0, 0xFFFF, 0x0, 0x0, 0x0, 0x0⟩,
  ⟨Reg.NM_CL_REQ, 0x40, 8, 0x1, 0x1, 0x0, 0x2, 0x0, 0x0⟩,
  ⟨Reg.NM_CL_STATE, 0x40, 8, 0x0, 0x0, 0x0, 0x0, 0x0, 0x0⟩,
  ⟨Reg.NM_CL_WAKE_STAMP_LO, 0x40, 8, 0x0, 0x0, 0x0, 0x0, 0x0, 0x0⟩,
  ⟨Reg.NM_CL_WAKE_STAMP_HI, 0x40, 8, 0x0, 0x0, 0x0, 0x0, 0x0, 0x0⟩]

/-- Register table of LOG. -/
def regsLOG : List RegDef := [
  ⟨Reg.LOG_CFG, 0x0, 1, 0x3E854100, 0xFFF77701, 0x0, 0x0, 0x0, 0x0⟩,
  ⟨Reg.LOG_STATUS, 0x0, 1, 0x0, 0x0, 0x0, 0x0, 0x0, 0x0⟩,
  ⟨Reg.LOG_SEQ, 0x0, 1, 0x0, 0x0, 0x0, 0x0, 0x0, 0x0⟩,
  ⟨Reg.LOG_FIFO, 0x0, 1, 0xFFFFFFFF, 0x0, 0x0, 0x0, 0x0, 0xFFFFFFFF⟩,
  ⟨Reg.LOG_FIFO_STAT, 0x0, 1, 0x0, 0x0, 0x0, 0x0, 0x0, 0x0⟩,
  ⟨Reg.LOG_MAXSEV, 0x0, 1, 0x0, 0x0, 0x0, 0x0, 0x0, 0x7⟩,
  ⟨Reg.LOG_CLEAR, 0x0, 1, 0x0, 0x0, 0x0, 0x3, 0x0, 0x0⟩,
  ⟨Reg.LOG_WDOG_CFG, 0x0, 1, 0x0, 0xFFFFFFFF, 0x0, 0x0, 0x0, 0x0⟩,
  ⟨Reg.LOG_WDOG_KICK, 0x0, 1, 0x0, 0x0, 0x0, 0x0, 0xFFFF0000, 0x0⟩,
  ⟨Reg.LOG_WDOG_STAT, 0x0, 1, 0x0, 0x0, 0x0, 0x0, 0x0, 0x0⟩]

/-- Register table of LINE. -/
def regsLINE : List RegDef := [
  ⟨Reg.LINE_STATUS, 0x0, 1, 0x1, 0x0, 0x0, 0x0, 0x0, 0x0⟩,
  ⟨Reg.LINE_VBAT, 0x0, 1, 0x0, 0x0, 0x0, 0x0, 0x0, 0x0⟩,
  ⟨Reg.LINE_PF, 0x0, 1, 0x320A2328, 0xFFFFFFFF, 0x0, 0x0, 0x0, 0x0⟩,
  ⟨Reg.LINE_VMON, 0x0, 1, 0x8CA01B58, 0xFFFFFFFF, 0x0, 0x0, 0x0, 0x0⟩,
  ⟨Reg.LINE_CFG, 0x0, 1, 0x20A, 0x3FF, 0x0, 0x0, 0x0, 0x0⟩,
  ⟨Reg.LINE_RETAIN, 0x0, 1, 0x0, 0x0, 0x3F, 0x0, 0x0, 0x0⟩]

/-- Register table of OTP. -/
def regsOTP : List RegDef := [
  ⟨Reg.OTP_STATUS, 0x0, 1, 0x0, 0x0, 0x0, 0x0, 0x0, 0x0⟩,
  ⟨Reg.OTP_PROG_ADDR, 0x0, 1, 0x0, 0xFFF, 0x0, 0x0, 0x0, 0x0⟩,
  ⟨Reg.OTP_PROG_DATA, 0x0, 1, 0x0, 0x0, 0x0, 0x0, 0xFFFFFFFF, 0x0⟩,
  ⟨Reg.OTP_CMD, 0x0, 1, 0x0, 0x0, 0x0, 0x80000000, 0x7030F, 0x0⟩,
  ⟨Reg.OTP_CMD_STATUS, 0x0, 1, 0x0, 0x0, 0x6, 0x0, 0x0, 0x0⟩,
  ⟨Reg.OTP_ECC_LOC, 0x0, 1, 0x0, 0x0, 0x80000000, 0x0, 0x0, 0x0⟩]

/-- Register table of MRAM. -/
def regsMRAM : List RegDef := [
  ⟨Reg.MRAM_STATUS, 0x0, 1, 0x7000, 0x0, 0x0, 0x0, 0x0, 0x0⟩,
  ⟨Reg.MRAM_SLOT, 0x4, 7, 0x0, 0x4, 0x0, 0x8, 0x0, 0x0⟩,
  ⟨Reg.MRAM_CFG, 0x0, 1, 0x1, 0x1, 0x0, 0x0, 0x0, 0x0⟩,
  ⟨Reg.MRAM_ECC_LOC, 0x0, 1, 0x0, 0x0, 0x80000000, 0x0, 0x0, 0x0⟩]

/-! ### Counter offsets -/

abbrev Cn.TIME_JNL_ENTRIES : Nat := 0x800
abbrev Cn.TIME_JNL_LOST : Nat := 0x808
abbrev Cn.TIME_REFUSALS : Nat := 0x810
abbrev Cn.GPTP_PDELAY_FAIL : Nat := 0x840
abbrev Cn.GPTP_TRAPPED : Nat := 0x848
abbrev Cn.CANC_RX_OK : Nat := 0x800
abbrev Cn.CANC_TX_OK : Nat := 0x808
abbrev Cn.CANC_OBJ_OVERWRITE : Nat := 0x810
abbrev Cn.CANC_RXQ_DROP : Nat := 0x818
abbrev Cn.CANC_UNMATCHED : Nat := 0x820
abbrev Cn.CANC_BIT_ERR : Nat := 0x828
abbrev Cn.CANC_STUFF_ERR : Nat := 0x830
abbrev Cn.CANC_FORM_ERR : Nat := 0x838
abbrev Cn.CANC_CRC_ERR : Nat := 0x840
abbrev Cn.CANC_ACK_ERR : Nat := 0x848
abbrev Cn.CANC_ARB_LOST : Nat := 0x850
abbrev Cn.CANC_BUS_OFF : Nat := 0x858
abbrev Cn.CANC_ID_CLASH : Nat := 0x860
abbrev Cn.CANC_ABORT_LATE : Nat := 0x868
abbrev Cn.CANC_RTQ_FLUSH : Nat := 0x870
abbrev Cn.CANC_RTQ_DROP : Nat := 0x878
abbrev Cn.CANC_PEX : Nat := 0x880
abbrev Cn.CANC_ELLIPSIS_ACK : Nat := 0x888
abbrev Cn.LINC_FRAMES_OK : Nat := 0x800
abbrev Cn.LINC_NO_RESP : Nat := 0x808
abbrev Cn.LINC_CSUM : Nat := 0x810
abbrev Cn.LINC_BIT_ERR : Nat := 0x818
abbrev Cn.LINC_SYNC_ERR : Nat := 0x820
abbrev Cn.LINC_FRAMING : Nat := 0x828
abbrev Cn.LINC_EVT_COLL : Nat := 0x830
abbrev Cn.LINC_RXQ_DROP : Nat := 0x838
abbrev Cn.LINC_ROUTER_IGNORED : Nat := 0x840
abbrev Cn.SER_RX_FRAMES : Nat := 0x800
abbrev Cn.SER_TX_FRAMES : Nat := 0x808
abbrev Cn.SER_COLLISION : Nat := 0x810
abbrev Cn.SER_TRUNC : Nat := 0x818
abbrev Cn.SER_PARITY : Nat := 0x820
abbrev Cn.SER_FRAMING : Nat := 0x828
abbrev Cn.SER_RXQ_DROP : Nat := 0x830
abbrev Cn.SER_RTQ_DROP : Nat := 0x838
abbrev Cn.SRT_EVENTS : Nat := 0x800
abbrev Cn.SRT_MATCHED : Nat := 0x808
abbrev Cn.SRT_UNMATCHED : Nat := 0x810
abbrev Cn.SRT_FWD_CAN : Nat := 0x818
abbrev Cn.SRT_FWD_LIN : Nat := 0x820
abbrev Cn.SRT_FWD_SER : Nat := 0x828
abbrev Cn.SRT_FWD_TUNNEL : Nat := 0x830
abbrev Cn.SRT_DST_REFUSED : Nat := 0x838
abbrev Cn.SRT_TIMEOUTS : Nat := 0x840
abbrev Cn.SRT_LATE : Nat := 0x848
abbrev Cn.SRT_SRC_DISCARD : Nat := 0x850
abbrev Cn.SRT_SRC_CLASH : Nat := 0x858
abbrev Cn.SRT_DISAGREE : Nat := 0x860
abbrev Cn.SRT_AUTH_FAIL : Nat := 0x868
abbrev Cn.SRT_INQ_OVF : Nat := 0x870
abbrev Cn.SRT_EVQ_DROP : Nat := 0x878
abbrev Cn.SRT_MAP_SHORT : Nat := 0x880
abbrev Cn.SRT_TRUNC : Nat := 0x888
abbrev Cn.SRT_PDU_TX : Nat := 0x890
abbrev Cn.SRT_PDU_RX : Nat := 0x898
abbrev Cn.SRT_ACF_BAD : Nat := 0x8A0
abbrev Cn.SRT_ACF_SKIPPED : Nat := 0x8A8
abbrev Cn.SRT_SEQ_GAP : Nat := 0x8B0
abbrev Cn.SRT_OVERSIZE : Nat := 0x8B8
abbrev Cn.EPRT_RX_OCTETS : Nat := 0x800
abbrev Cn.EPRT_RX_FRAMES : Nat := 0x808
abbrev Cn.EPRT_RX_UCAST : Nat := 0x810
abbrev Cn.EPRT_RX_MCAST : Nat := 0x818
abbrev Cn.EPRT_RX_BCAST : Nat := 0x820
abbrev Cn.EPRT_RX_FCS_ERR : Nat := 0x828
abbrev Cn.EPRT_RX_UNDERSIZE : Nat := 0x830
abbrev Cn.EPRT_RX_FRAGMENTS : Nat := 0x838
abbrev Cn.EPRT_RX_OVERSIZE : Nat := 0x840
abbrev Cn.EPRT_RX_MACCTL : Nat := 0x848
abbrev Cn.EPRT_RX_DISCARD : Nat := 0x850
abbrev Cn.EPRT_TX_OCTETS : Nat := 0x858
abbrev Cn.EPRT_TX_FRAMES : Nat := 0x860
abbrev Cn.EPRT_TX_UCAST : Nat := 0x868
abbrev Cn.EPRT_TX_MCAST : Nat := 0x870
abbrev Cn.EPRT_TX_BCAST : Nat := 0x878
abbrev Cn.EPRT_TX_ABORT : Nat := 0x880
abbrev Cn.EPRT_AGED : Nat := 0x888
abbrev Cn.EPRT_FLUSHED : Nat := 0x890
abbrev Cn.EPRT_LINKDOWN_DROP : Nat := 0x898
abbrev Cn.EPRT_LINK_DOWNS : Nat := 0x8A0
abbrev Cn.EPRT_COLLISIONS : Nat := 0x8A8
abbrev Cn.EPRT_LATE_COLL : Nat := 0x8B0
abbrev Cn.EPRT_EXCESS_COLL : Nat := 0x8B8
abbrev Cn.EPRT_PLCA_FAIL : Nat := 0x8C0
abbrev Cn.EPRT_MM_FRAG_TX : Nat := 0x8C8
abbrev Cn.EPRT_MM_FRAG_RX : Nat := 0x8D0
abbrev Cn.EPRT_MM_ASSY_OK : Nat := 0x8D8
abbrev Cn.EPRT_MM_ASSY_ERR : Nat := 0x8E0
abbrev Cn.EPRT_MM_SMD_ERR : Nat := 0x8E8
abbrev Cn.EPRT_TC10_NACK : Nat := 0x8F0
abbrev Cn.PIPE_PKTS : Nat := 0x800
abbrev Cn.PIPE_PASS2 : Nat := 0x808
abbrev Cn.PIPE_ENTRY_DROP : Nat := 0x810
abbrev Cn.PIPE_ACCEPT_DROP : Nat := 0x818
abbrev Cn.PIPE_PARSE_ERR : Nat := 0x820
abbrev Cn.PIPE_DEPTH_EXCEEDED : Nat := 0x828
abbrev Cn.PIPE_NO_HIT : Nat := 0x830
abbrev Cn.PIPE_PRED_DROP : Nat := 0x838
abbrev Cn.PIPE_SF_DROP : Nat := 0x840
abbrev Cn.PIPE_METER_RED : Nat := 0x848
abbrev Cn.PIPE_METER_YELLOW_DROP : Nat := 0x850
abbrev Cn.PIPE_RECIRC : Nat := 0x858
abbrev Cn.PIPE_RECIRC_LIMIT : Nat := 0x860
abbrev Cn.PIPE_RECIRC_STALE : Nat := 0x868
abbrev Cn.PIPE_TRAP : Nat := 0x870
abbrev Cn.PIPE_QUOTE : Nat := 0x878
abbrev Cn.PIPE_ECC_CORR : Nat := 0x880
abbrev Cn.PIPE_ECC_UNCORR : Nat := 0x888
abbrev Cn.FDB_LEARNED : Nat := 0x800
abbrev Cn.FDB_MOVES : Nat := 0x808
abbrev Cn.FDB_AGED : Nat := 0x810
abbrev Cn.FDB_FLUSHED : Nat := 0x818
abbrev Cn.FDB_RELOCATIONS : Nat := 0x820
abbrev Cn.FDB_LEARN_DROP : Nat := 0x828
abbrev Cn.FDB_LEARN_FAIL : Nat := 0x830
abbrev Cn.FDB_LIMIT_HIT : Nat := 0x838
abbrev Cn.FDB_XLEARN_DROP : Nat := 0x840
abbrev Cn.FDB_SA_VIOLATION : Nat := 0x848
abbrev Cn.FDB_FLOODED : Nat := 0x850
abbrev Cn.FDB_UNKNOWN_DROP : Nat := 0x858
abbrev Cn.FDB_VLAN_DROP : Nat := 0x860
abbrev Cn.FDB_GROUP_MISS : Nat := 0x868
abbrev Cn.FDB_NO_DEST : Nat := 0x870
abbrev Cn.FDB_FDB_DROP : Nat := 0x878
abbrev Cn.FDB_ECC_CORR : Nat := 0x880
abbrev Cn.FDB_ECC_UNCORR : Nat := 0x888
abbrev Cn.SWC_ENQ : Nat := 0x800
abbrev Cn.SWC_DEQ : Nat := 0x808
abbrev Cn.SWC_CT_FRAMES : Nat := 0x810
abbrev Cn.SWC_CT_STOMP : Nat := 0x818
abbrev Cn.SWC_BUF_FULL : Nat := 0x820
abbrev Cn.SWC_FCS_DROP : Nat := 0x828
abbrev Cn.SWC_FROZEN_DROP : Nat := 0x830
abbrev Cn.SWC_PORT_DROP : Nat := 0x838
abbrev Cn.SWC_EGRESS_OVERSIZE : Nat := 0x840
abbrev Cn.SWC_QENTRY_DROP : Nat := 0x848
abbrev Cn.SWC_TAIL_DROP : Nat := 0x850
abbrev Cn.SWC_FLOOR_DROP : Nat := 0x858
abbrev Cn.SWC_PUSHED_OUT : Nat := 0x860
abbrev Cn.SWC_TUNNEL_DROP : Nat := 0x868
abbrev Cn.SWC_RECIRC_DROP : Nat := 0x870
abbrev Cn.SWC_RING_FULL_DROP : Nat := 0x878
abbrev Cn.SWC_FLUSHED_INT : Nat := 0x880
abbrev Cn.SWC_MIRROR_COPIES : Nat := 0x888
abbrev Cn.SWC_SAMPLE_COPIES : Nat := 0x890
abbrev Cn.SWC_SPILL_OUT : Nat := 0x898
abbrev Cn.SWC_SPILL_IN : Nat := 0x8A0
abbrev Cn.SWC_SPILL_ECC : Nat := 0x8A8
abbrev Cn.SWC_ECC_CORR : Nat := 0x8B0
abbrev Cn.SWC_ECC_UNCORR : Nat := 0x8B8
abbrev Cn.EGR_GATE_OVERSIZE : Nat := 0x800
abbrev Cn.EGR_OVERRUN : Nat := 0x808
abbrev Cn.EGR_GCL_CHANGES : Nat := 0x810
abbrev Cn.EGR_PASSED : Nat := 0x818
abbrev Cn.EGR_DISCARDED : Nat := 0x820
abbrev Cn.EGR_ROGUE : Nat := 0x828
abbrev Cn.EGR_TAGLESS : Nat := 0x830
abbrev Cn.EGR_DISAGREE : Nat := 0x838
abbrev Cn.EGR_HOLD_FULL : Nat := 0x840
abbrev Cn.EGR_SET_FULL : Nat := 0x848
abbrev Cn.EGR_ECC_CORR : Nat := 0x850
abbrev Cn.EGR_ECC_UNCORR : Nat := 0x858
abbrev Cn.TRN_REC_LOW : Nat := 0x800
abbrev Cn.TRN_REC_HIGH : Nat := 0x808
abbrev Cn.TRN_BYTES : Nat := 0x810
abbrev Cn.TRN_LOST_LOW : Nat := 0x818
abbrev Cn.TRN_LOST_HIGH : Nat := 0x820
abbrev Cn.TRN_SEGMENTS : Nat := 0x828
abbrev Cn.TRN_TRIGGERS : Nat := 0x830
abbrev Cn.TRN_MERGED : Nat := 0x838
abbrev Cn.TRN_TRIG_LOST : Nat := 0x840
abbrev Cn.TRN_TRIG_MASKED : Nat := 0x848
abbrev Cn.TRN_QUOTATIONS : Nat := 0x850
abbrev Cn.TRN_CAPSULES : Nat := 0x858
abbrev Cn.TRN_EXPORTED : Nat := 0x860
abbrev Cn.TRN_ECC_CORR : Nat := 0x868
abbrev Cn.TRN_ECC_UNCORR : Nat := 0x870
abbrev Cn.MRAM_COMMITTED_BYTES : Nat := 0x800
abbrev Cn.MRAM_CAPSULES : Nat := 0x808
abbrev Cn.MRAM_ECC_CORR : Nat := 0x810
abbrev Cn.MRAM_ECC_UNCORR : Nat := 0x818
abbrev Cn.MRAM_WRITE_REFUSED : Nat := 0x820
abbrev Cn.NM_WAKES : Nat := 0x800
abbrev Cn.NM_SLEEPS : Nat := 0x808
abbrev Cn.NM_ABORTS : Nat := 0x810
abbrev Cn.NM_LATE_WAKES : Nat := 0x818
abbrev Cn.NM_FALSE_WAKES : Nat := 0x820
abbrev Cn.NM_NM_RX : Nat := 0x828
abbrev Cn.NM_NM_TX : Nat := 0x830
abbrev Cn.NM_TX_SKIP : Nat := 0x838
abbrev Cn.NM_TX_TIMEOUT : Nat := 0x840
abbrev Cn.NM_OFF_OVF : Nat := 0x848
abbrev Cn.KEY_COMMANDS : Nat := 0x800
abbrev Cn.KEY_REFUSED : Nat := 0x808
abbrev Cn.KEY_STALE_USES : Nat := 0x810
abbrev Cn.KEY_RNG_FAIL : Nat := 0x818
abbrev Cn.OTP_WORDS_PROGRAMMED : Nat := 0x800
abbrev Cn.OTP_ECC_CORR : Nat := 0x808
abbrev Cn.OTP_ECC_UNCORR : Nat := 0x810
abbrev Cn.MSEC_TAGS_GEN : Nat := 0x800
abbrev Cn.MSEC_TAGS_OK : Nat := 0x808
abbrev Cn.MSEC_TAGS_FAIL : Nat := 0x810
abbrev Cn.MSEC_GEN_FAIL : Nat := 0x818
abbrev Cn.MSEC_TX_PROTECTED : Nat := 0x820
abbrev Cn.MSEC_RX_OK : Nat := 0x828
abbrev Cn.MSEC_RX_INVALID : Nat := 0x830
abbrev Cn.MSEC_RX_NOT_VALID : Nat := 0x838
abbrev Cn.MSEC_RX_UNTAGGED : Nat := 0x840
abbrev Cn.MSEC_RX_NO_SA : Nat := 0x848
abbrev Cn.MSEC_RX_LATE : Nat := 0x850
abbrev Cn.MSEC_TX_TOO_LONG : Nat := 0x858
abbrev Cn.MSEC_TX_PN_EXHAUSTED : Nat := 0x860
abbrev Cn.MSEC_ECC_CORR : Nat := 0x868
abbrev Cn.MSEC_ECC_UNCORR : Nat := 0x870
abbrev Cn.HDOM_TX_FRAMES : Nat := 0x800
abbrev Cn.HDOM_TX_OCTETS : Nat := 0x808
abbrev Cn.HDOM_RX_FRAMES : Nat := 0x810
abbrev Cn.HDOM_RX_OCTETS : Nat := 0x818
abbrev Cn.HDOM_RX_NO_RING : Nat := 0x820
abbrev Cn.HDOM_RX_RESET_DROP : Nat := 0x828
abbrev Cn.HDOM_RX_TRUNC : Nat := 0x830
abbrev Cn.HDOM_DMA_ERR : Nat := 0x838
abbrev Cn.HDOM_MSGS : Nat := 0x840
abbrev Cn.HDOM_SPI_CMDS : Nat := 0x848
abbrev Cn.HDOM_SPI_ERR : Nat := 0x850
abbrev Cn.HDOM_RESETS : Nat := 0x858
abbrev Cn.BRK_GRANTS : Nat := 0x800
abbrev Cn.BRK_CONTENDED : Nat := 0x808
abbrev Cn.BRK_BREAKS : Nat := 0x810
abbrev Cn.BRK_REFUSED : Nat := 0x818
abbrev Cn.EMC_EMPTY_GRANTS : Nat := 0x880
abbrev Cn.EMC_HOG_CUTS : Nat := 0x888
abbrev Cn.EMC_REFRESH_PREEMPT : Nat := 0x890
abbrev Cn.EMC_DEBUG_PREEMPT : Nat := 0x898
abbrev Cn.EMC_ECC_CORR : Nat := 0x8A0
abbrev Cn.EMC_ECC_UNCORR : Nat := 0x8A8
abbrev Cn.EMC_SCRUB_LINES : Nat := 0x8B0
abbrev Cn.LOG_ENTRIES : Nat := 0x800
abbrev Cn.LOG_MERGED : Nat := 0x808
abbrev Cn.LOG_OVERWRITTEN : Nat := 0x810
abbrev Cn.LOG_DISCARDED : Nat := 0x818
abbrev Cn.LOG_FIFO_DROP : Nat := 0x820
abbrev Cn.LOG_REPORT_LOST : Nat := 0x828
abbrev Cn.LOG_WDOG_WARNS : Nat := 0x858
abbrev Cn.PWR_COMMA_ENTRIES : Nat := 0x800
abbrev Cn.PWR_PERIOD_ENTRIES : Nat := 0x808
abbrev Cn.PWR_ABORTS : Nat := 0x810
abbrev Cn.PWR_POWER_FAILS : Nat := 0x818
abbrev Cn.TIME_CTM_SENT : Nat := 0x818
abbrev Cn.TIME_CTM_SKIP : Nat := 0x838
abbrev Cn.GPTP_SYNC_RX : Nat := 0x800
abbrev Cn.GPTP_SYNC_TX : Nat := 0x820
abbrev Cn.EMC_GRANTS : Nat := 0x800
abbrev Cn.EMC_BYTES : Nat := 0x840
abbrev Cn.LOG_SEV1 : Nat := 0x830

/-! ### Interrupt source bits -/

abbrev Iq.TIME_TIME_JUMP : Nat := 0
abbrev Iq.TIME_RATE_CLAMP : Nat := 1
abbrev Iq.TIME_STEP_REFUSED : Nat := 2
abbrev Iq.TIME_JNL_LAG : Nat := 3
abbrev Iq.TIME_COARSE_END : Nat := 4
abbrev Iq.TIME_CTM_SKIP : Nat := 5
abbrev Iq.GPTP_PDELAY_FAIL : Nat := 4
abbrev Iq.CANC_RX_OBJ : Nat := 0
abbrev Iq.CANC_RXQ_AVAIL : Nat := 1
abbrev Iq.CANC_RXQ_DROP : Nat := 2
abbrev Iq.CANC_TEC_WARN : Nat := 6
abbrev Iq.CANC_REC_WARN : Nat := 7
abbrev Iq.CANC_ERR_PASSIVE : Nat := 8
abbrev Iq.CANC_BUS_OFF : Nat := 9
abbrev Iq.CANC_BUS_ON : Nat := 10
abbrev Iq.CANC_ID_CLASH : Nat := 11
abbrev Iq.CANC_ABORT_LATE : Nat := 12
abbrev Iq.CANC_RTQ_FULL : Nat := 13
abbrev Iq.CANC_ARD_DONE : Nat := 14
abbrev Iq.CANC_PEX : Nat := 15
abbrev Iq.CANC_QPTR : Nat := 16
abbrev Iq.LINC_RXQ_AVAIL : Nat := 0
abbrev Iq.LINC_RXQ_DROP : Nat := 1
abbrev Iq.LINC_RESP_RX : Nat := 2
abbrev Iq.LINC_NO_RESP : Nat := 3
abbrev Iq.LINC_CSUM : Nat := 4
abbrev Iq.LINC_BIT_ERR : Nat := 5
abbrev Iq.LINC_SYNC_ERR : Nat := 6
abbrev Iq.LINC_EVT_COLL : Nat := 7
abbrev Iq.LINC_SLEEP : Nat := 8
abbrev Iq.LINC_WAKE : Nat := 9
abbrev Iq.LINC_SCHED_SWITCH : Nat := 10
abbrev Iq.LINC_QPTR : Nat := 11
abbrev Iq.LINC_FRAMING : Nat := 12
abbrev Iq.SER_RXQ_AVAIL : Nat := 0
abbrev Iq.SER_RXQ_DROP : Nat := 1
abbrev Iq.SER_TXB_DONE : Nat := 2
abbrev Iq.SER_COLLISION : Nat := 3
abbrev Iq.SER_TRUNC : Nat := 4
abbrev Iq.SER_PARITY : Nat := 5
abbrev Iq.SER_FRAMING : Nat := 6
abbrev Iq.SER_QPTR : Nat := 7
abbrev Iq.SRT_EVQ_AVAIL : Nat := 0
abbrev Iq.SRT_EVQ_DROP : Nat := 1
abbrev Iq.SRT_TIMEOUT : Nat := 2
abbrev Iq.SRT_LATE : Nat := 3
abbrev Iq.SRT_SRC_CLASH : Nat := 4
abbrev Iq.SRT_DISAGREE : Nat := 5
abbrev Iq.SRT_AUTH_FAIL : Nat := 6
abbrev Iq.SRT_MATCH : Nat := 7
abbrev Iq.SRT_INQ_OVF : Nat := 8
abbrev Iq.SRT_DST_FULL : Nat := 9
abbrev Iq.SRT_COMMIT_DONE : Nat := 10
abbrev Iq.SRT_QPTR : Nat := 11
abbrev Iq.SRT_SEQ_GAP : Nat := 12
abbrev Iq.EPRT_LINK_DOWN : Nat := 0
abbrev Iq.EPRT_LINK_UP : Nat := 1
abbrev Iq.EPRT_HOLD_FLUSH : Nat := 2
abbrev Iq.EPRT_AGED : Nat := 3
abbrev Iq.EPRT_LATE_LINKUP : Nat := 4
abbrev Iq.EPRT_AN_DONE : Nat := 5
abbrev Iq.EPRT_VERIFY : Nat := 6
abbrev Iq.EPRT_TC10_SLEEP : Nat := 7
abbrev Iq.EPRT_TC10_WAKE : Nat := 8
abbrev Iq.EPRT_PLCA_LOST : Nat := 9
abbrev Iq.EPRT_TX_ABORT : Nat := 10
abbrev Iq.PIPE_COMMIT_DONE : Nat := 0
abbrev Iq.PIPE_DRAIN_DONE : Nat := 1
abbrev Iq.PIPE_PARSE_ERR : Nat := 2
abbrev Iq.PIPE_RECIRC_STALE : Nat := 3
abbrev Iq.PIPE_SF_BLOCKED : Nat := 4
abbrev Iq.PIPE_MARK_RED : Nat := 5
abbrev Iq.PIPE_ECC : Nat := 6
abbrev Iq.FDB_COMMIT_DONE : Nat := 0
abbrev Iq.FDB_REHASH_REQ : Nat := 1
abbrev Iq.FDB_STASH_HI : Nat := 2
abbrev Iq.FDB_REBUILD_DONE : Nat := 3
abbrev Iq.FDB_LIMIT_HIT : Nat := 4
abbrev Iq.FDB_ECC : Nat := 5
abbrev Iq.SWC_BUF_LOW : Nat := 0
abbrev Iq.SWC_SPILL_ON : Nat := 1
abbrev Iq.SWC_SPILL_NOSPACE : Nat := 2
abbrev Iq.SWC_PUSHOUT : Nat := 3
abbrev Iq.SWC_CT_STOMP : Nat := 4
abbrev Iq.SWC_ECC : Nat := 5
abbrev Iq.SWC_QENTRY_LOW : Nat := 6
abbrev Iq.SWC_SPILL_ECC : Nat := 7
abbrev Iq.EGR_GCL_CHANGED : Nat := 0
abbrev Iq.EGR_GCL_ERROR : Nat := 1
abbrev Iq.EGR_OVERRUN : Nat := 2
abbrev Iq.EGR_GATE_OVERSIZE : Nat := 3
abbrev Iq.EGR_DISAGREE : Nat := 4
abbrev Iq.EGR_ROGUE : Nat := 5
abbrev Iq.EGR_HOLD_FULL : Nat := 6
abbrev Iq.EGR_SET_FULL : Nat := 7
abbrev Iq.EGR_ECC : Nat := 8
abbrev Iq.TRN_HI_SUSP : Nat := 0
abbrev Iq.TRN_LO_SUSP : Nat := 1
abbrev Iq.TRN_OVERFLOW : Nat := 2
abbrev Iq.TRN_QUOTE : Nat := 3
abbrev Iq.TRN_Q_CLOSED : Nat := 4
abbrev Iq.TRN_CAPSULE_DONE : Nat := 5
abbrev Iq.TRN_TRIG_LOST : Nat := 6
abbrev Iq.TRN_NO_SLOT : Nat := 7
abbrev Iq.TRN_CAP_FULL : Nat := 8
abbrev Iq.TRN_EXPORT_DONE : Nat := 9
abbrev Iq.TRN_ECC : Nat := 10
abbrev Iq.TRN_PIN_SHORT : Nat := 11
abbrev Iq.MRAM_COMMIT_DONE : Nat := 0
abbrev Iq.MRAM_ECC : Nat := 1
abbrev Iq.MRAM_INCOMPLETE : Nat := 2
abbrev Iq.NM_OFFENDER : Nat := 16
abbrev Iq.NM_FALSE_WAKE : Nat := 17
abbrev Iq.NM_LATE_WAKE : Nat := 18
abbrev Iq.NM_SEG_AWAKE : Nat := 19
abbrev Iq.NM_DEV_WAKE : Nat := 20
abbrev Iq.KEY_CMD_DONE : Nat := 0
abbrev Iq.KEY_STALE_USE : Nat := 1
abbrev Iq.KEY_RNG_FAIL : Nat := 2
abbrev Iq.OTP_CMD_DONE : Nat := 0
abbrev Iq.OTP_ECC : Nat := 1
abbrev Iq.MSEC_AUTH_GEN_FAIL : Nat := 0
abbrev Iq.MSEC_PN_WARN : Nat := 1
abbrev Iq.MSEC_PN_EXHAUSTED : Nat := 2
abbrev Iq.MSEC_RX_INVALID : Nat := 3
abbrev Iq.MSEC_SA_SWITCH : Nat := 4
abbrev Iq.MSEC_ECC : Nat := 5
abbrev Iq.HDOM_DMA_ERR : Nat := 0
abbrev Iq.HDOM_RESET_DONE : Nat := 1
abbrev Iq.BRK_BROKEN : Nat := 0
abbrev Iq.BRK_PEER_RESET : Nat := 1
abbrev Iq.EMC_READY : Nat := 0
abbrev Iq.EMC_HOG : Nat := 1
abbrev Iq.EMC_ECC : Nat := 2
abbrev Iq.EMC_TRAIN_FAIL : Nat := 3
abbrev Iq.EMC_TEMP : Nat := 4
abbrev Iq.LOG_ENTRY : Nat := 0
abbrev Iq.LOG_FIFO_AVAIL : Nat := 1
abbrev Iq.LOG_FIFO_DROP : Nat := 2
abbrev Iq.LOG_OVERFLOW : Nat := 3
abbrev Iq.LOG_WDOG_WARN : Nat := 4
abbrev Iq.LOG_QPTR : Nat := 5
abbrev Iq.LOG_CRITICAL : Nat := 6
abbrev Iq.PWR_COMMA_EXIT : Nat := 0
abbrev Iq.PWR_ENTRY_REFUSED : Nat := 1
abbrev Iq.PWR_ENTRY_ABORTED : Nat := 2
abbrev Iq.LINE_VBAT_LOW : Nat := 0
abbrev Iq.LINE_VBAT_HIGH : Nat := 1
abbrev Iq.LINE_VCC5_UV : Nat := 2
abbrev Iq.LINE_LINK_ERR : Nat := 3
abbrev Iq.CANC_TXB_DONE : Nat := 3
abbrev Iq.GPTP_SYNC_TIMEOUT : Nat := 0
abbrev Iq.NM_WAKE : Nat := 0
abbrev Iq.NM_SLEEP : Nat := 8

/-! ### Error codes and their severities (Table 3 of *Fault Log and Error Handling*) -/

abbrev Er.REG_NOT_OWNER : Nat := 0x0001
abbrev Er.REG_UNMAPPED : Nat := 0x0002
abbrev Er.REG_KEY_READ : Nat := 0x0003
abbrev Er.REG_NO_BRACKET : Nat := 0x0004
abbrev Er.REG_SIZE : Nat := 0x0005
abbrev Er.REG_BAD_VALUE : Nat := 0x0006
abbrev Er.REG_BUSY : Nat := 0x0007
abbrev Er.WIN_BUSY : Nat := 0x0008
abbrev Er.WIN_RANGE : Nat := 0x0009
abbrev Er.WIN_BAD_OP : Nat := 0x000A
abbrev Er.WIN_BANK_DRAINING : Nat := 0x000B
abbrev Er.WIN_ECC : Nat := 0x000C
abbrev Er.TIME_JUMP : Nat := 0x0301
abbrev Er.TIME_STEP_REFUSED : Nat := 0x0302
abbrev Er.TIME_RATE_RANGE : Nat := 0x0303
abbrev Er.TIME_REARM_KEY : Nat := 0x0304
abbrev Er.TIME_SRC_CONFLICT : Nat := 0x0305
abbrev Er.TIME_JNL_LOST : Nat := 0x0306
abbrev Er.TIME_ABRUPT : Nat := 0x0307
abbrev Er.GPTP_SYNC_TIMEOUT : Nat := 0x0311
abbrev Er.GPTP_PDELAY_FAIL : Nat := 0x0312
abbrev Er.GPTP_LATE_SYNC : Nat := 0x0313
abbrev Er.CTM_SKIP : Nat := 0x0321
abbrev Er.CAN_ID_CLASH : Nat := 0x0401
abbrev Er.CAN_BUS_OFF : Nat := 0x0402
abbrev Er.CAN_ERR_PASSIVE : Nat := 0x0403
abbrev Er.CAN_RXQ_DROP : Nat := 0x0404
abbrev Er.CAN_OBJ_OVERLAP : Nat := 0x0405
abbrev Er.CAN_TIMING : Nat := 0x0406
abbrev Er.CAN_ARD_FAIL : Nat := 0x0407
abbrev Er.CAN_TX_FAILED : Nat := 0x0408
abbrev Er.CAN_ABORT_LATE : Nat := 0x0409
abbrev Er.CAN_PEX : Nat := 0x040A
abbrev Er.CAN_RTQ_FLUSH : Nat := 0x040B
abbrev Er.CAN_TXB_LOCKED : Nat := 0x040C
abbrev Er.QPTR_MISMATCH : Nat := 0x0410
abbrev Er.LIN_NO_RESP : Nat := 0x0501
abbrev Er.LIN_CSUM : Nat := 0x0502
abbrev Er.LIN_BIT : Nat := 0x0503
abbrev Er.LIN_SYNC : Nat := 0x0504
abbrev Er.LIN_FRAMING : Nat := 0x0505
abbrev Er.LIN_EVT_COLL : Nat := 0x0506
abbrev Er.LIN_RXQ_DROP : Nat := 0x0507
abbrev Er.LIN_BAUD : Nat := 0x0508
abbrev Er.SER_COLLISION : Nat := 0x0601
abbrev Er.SER_RXQ_DROP : Nat := 0x0602
abbrev Er.SER_TRUNC : Nat := 0x0603
abbrev Er.SER_PARITY : Nat := 0x0604
abbrev Er.SER_FRAMING : Nat := 0x0605
abbrev Er.SER_BAUD : Nat := 0x0606
abbrev Er.SER_TXB_LOCKED : Nat := 0x0607
abbrev Er.SRT_TIMEOUT : Nat := 0x0701
abbrev Er.SRT_LATE_ARRIVAL : Nat := 0x0702
abbrev Er.SRT_SRC_CLASH : Nat := 0x0703
abbrev Er.SRT_DISAGREE : Nat := 0x0704
abbrev Er.SRT_AUTH_FAIL : Nat := 0x0705
abbrev Er.SRT_INQ_OVF : Nat := 0x0706
abbrev Er.SRT_DST_REFUSED : Nat := 0x0707
abbrev Er.SRT_EVQ_DROP : Nat := 0x0708
abbrev Er.SRT_ACF_BAD : Nat := 0x0709
abbrev Er.SRT_SEQ_GAP : Nat := 0x070A
abbrev Er.ETH_LINK_DOWN : Nat := 0x0801
abbrev Er.ETH_HOLD_FLUSH : Nat := 0x0802
abbrev Er.ETH_LATE_LINKUP : Nat := 0x0803
abbrev Er.ETH_AGED : Nat := 0x0804
abbrev Er.ETH_AN_FAIL : Nat := 0x0805
abbrev Er.ETH_VERIFY_FAIL : Nat := 0x0806
abbrev Er.ETH_TC10_NACK : Nat := 0x0807
abbrev Er.ETH_PLCA_STATUS : Nat := 0x0808
abbrev Er.PIPE_PARSE_ERR : Nat := 0x0901
abbrev Er.PIPE_RECIRC_LIMIT : Nat := 0x0902
abbrev Er.PIPE_RECIRC_STALE : Nat := 0x0903
abbrev Er.PIPE_SF_BLOCKED : Nat := 0x0904
abbrev Er.PIPE_MARK_RED : Nat := 0x0905
abbrev Er.PIPE_ECC : Nat := 0x0906
abbrev Er.FDB_REHASH_REQ : Nat := 0x0A01
abbrev Er.FDB_MOVE : Nat := 0x0A02
abbrev Er.FDB_ECC : Nat := 0x0A03
abbrev Er.FDB_LIMIT : Nat := 0x0A04
abbrev Er.SWC_BUF_FULL : Nat := 0x0B01
abbrev Er.SWC_PUSHOUT : Nat := 0x0B02
abbrev Er.SWC_SPILL_NOSPACE : Nat := 0x0B03
abbrev Er.SWC_SPILL_ECC : Nat := 0x0B04
abbrev Er.SWC_CT_STOMP : Nat := 0x0B05
abbrev Er.SWC_ECC : Nat := 0x0B06
abbrev Er.SWC_QENTRY_FULL : Nat := 0x0B07
abbrev Er.EGR_GCL_ERROR : Nat := 0x0C01
abbrev Er.EGR_OVERRUN : Nat := 0x0C02
abbrev Er.EGR_GATE_OVERSIZE : Nat := 0x0C03
abbrev Er.EGR_DISAGREE : Nat := 0x0C04
abbrev Er.EGR_ROGUE : Nat := 0x0C05
abbrev Er.EGR_HOLD_FULL : Nat := 0x0C06
abbrev Er.EGR_SET_FULL : Nat := 0x0C07
abbrev Er.EGR_GCL_REPHASE : Nat := 0x0C08
abbrev Er.EGR_ECC : Nat := 0x0C09
abbrev Er.TRN_HI_SUSPEND : Nat := 0x0D01
abbrev Er.TRN_LO_SUSPEND : Nat := 0x0D02
abbrev Er.TRN_OVERFLOW : Nat := 0x0D03
abbrev Er.TRN_TRIG_LOST : Nat := 0x0D04
abbrev Er.TRN_NO_SLOT : Nat := 0x0D05
abbrev Er.TRN_CAP_FULL : Nat := 0x0D06
abbrev Er.TRN_EXPORT_ERR : Nat := 0x0D07
abbrev Er.TRN_ECC : Nat := 0x0D08
abbrev Er.TRN_PF_DROP : Nat := 0x0D09
abbrev Er.TRN_PIN_SHORT : Nat := 0x0D0A
abbrev Er.MRAM_WRITE : Nat := 0x0E01
abbrev Er.MRAM_ECC : Nat := 0x0E02
abbrev Er.MRAM_INCOMPLETE : Nat := 0x0E03
abbrev Er.NM_OFFENDER : Nat := 0x0F01
abbrev Er.NM_LATE_WAKE : Nat := 0x0F02
abbrev Er.NM_LATE_FRAME : Nat := 0x0F03
abbrev Er.NM_FALSE_WAKE : Nat := 0x0F04
abbrev Er.NM_SEG_AWAKE : Nat := 0x0F05
abbrev Er.NM_TX_TIMEOUT : Nat := 0x0F06
abbrev Er.NM_OFF_OVF : Nat := 0x0F07
abbrev Er.KEY_DENIED : Nat := 0x1001
abbrev Er.KEY_STALE : Nat := 0x1002
abbrev Er.KEY_FULL : Nat := 0x1003
abbrev Er.KEY_SLOT_BUSY : Nat := 0x1004
abbrev Er.KEY_BAD_ATTR : Nat := 0x1005
abbrev Er.KEY_RNG : Nat := 0x1006
abbrev Er.KEY_LC : Nat := 0x1007
abbrev Er.KEY_NO_ROOT : Nat := 0x1008
abbrev Er.KEY_UNLOCK_FAIL : Nat := 0x1009
abbrev Er.KEY_BUSY : Nat := 0x100A
abbrev Er.OTP_LOCKED : Nat := 0x1101
abbrev Er.OTP_PROG_FAIL : Nat := 0x1102
abbrev Er.OTP_NO_BCR : Nat := 0x1103
abbrev Er.OTP_ECC : Nat := 0x1104
abbrev Er.OTP_LC_DENIED : Nat := 0x1105
abbrev Er.MSEC_AUTH_GEN_FAIL : Nat := 0x1201
abbrev Er.MSEC_PN_EXHAUSTED : Nat := 0x1202
abbrev Er.MSEC_ECC : Nat := 0x1203
abbrev Er.HDOM_RESET : Nat := 0x1301
abbrev Er.HDOM_WDOG : Nat := 0x1302
abbrev Er.HDOM_LINK_DOWN : Nat := 0x1303
abbrev Er.DMA_BUS_ERR : Nat := 0x1304
abbrev Er.DMA_DESC_ERR : Nat := 0x1305
abbrev Er.SPI_CMD_ERR : Nat := 0x1306
abbrev Er.BRK_BROKEN : Nat := 0x1307
abbrev Er.BRK_NOT_HOLDER : Nat := 0x1308
abbrev Er.BRK_DENIED : Nat := 0x1309
abbrev Er.EMC_TRAIN_FAIL : Nat := 0x1401
abbrev Er.EMC_HOG : Nat := 0x1402
abbrev Er.EMC_ECC : Nat := 0x1403
abbrev Er.EMC_HOST_RANGE : Nat := 0x1404
abbrev Er.EMC_TEMP : Nat := 0x1405
abbrev Er.BOOT_SELFTEST_FAIL : Nat := 0x1501
abbrev Er.BOOT_MBIST_REPAIR : Nat := 0x1502
abbrev Er.BOOT_CLK_LATE : Nat := 0x1503
abbrev Er.BOOT_PLL_FAIL : Nat := 0x1504
abbrev Er.BOOT_RESET : Nat := 0x1505
abbrev Er.PWR_REFUSED : Nat := 0x1601
abbrev Er.PWR_LATE_WAKE : Nat := 0x1602
abbrev Er.PWR_PF : Nat := 0x1603
abbrev Er.PWR_PG_TIMEOUT : Nat := 0x1604
abbrev Er.PWR_PG_LOST : Nat := 0x1605
abbrev Er.CRG_REF_LOST : Nat := 0x1606
abbrev Er.CRG_X32K_FAIL : Nat := 0x1607
abbrev Er.LINE_LINK_ERR : Nat := 0x1608
abbrev Er.LINE_VCC5_UV : Nat := 0x1609
abbrev Er.LOG_WDOG_WARN : Nat := 0x1701
abbrev Er.LOG_WDOG_RESET : Nat := 0x1702
abbrev Er.LOG_PARITY : Nat := 0x1703
abbrev Er.LOG_ECC : Nat := 0x1704

/-- Severity classes of Table 3 (R510): the codes of severity 1, 2, 3 and 5; every other code is ERROR, 4. -/
def sevCodes1 : List Nat := [
  Er.FDB_MOVE, Er.BOOT_RESET]
def sevCodes2 : List Nat := [
  Er.REG_BAD_VALUE, Er.REG_BUSY, Er.WIN_BUSY, Er.WIN_BANK_DRAINING, Er.GPTP_LATE_SYNC, Er.CTM_SKIP,
  Er.CAN_ABORT_LATE, Er.CAN_PEX, Er.LIN_EVT_COLL, Er.SER_TRUNC, Er.SRT_SEQ_GAP, Er.ETH_TC10_NACK,
  Er.PIPE_PARSE_ERR, Er.TRN_CAP_FULL, Er.TRN_PIN_SHORT, Er.NM_OFFENDER, Er.NM_LATE_FRAME, Er.NM_FALSE_WAKE,
  Er.NM_OFF_OVF, Er.KEY_BUSY, Er.BOOT_MBIST_REPAIR, Er.BOOT_CLK_LATE, Er.PWR_REFUSED]
def sevCodes3 : List Nat := [
  Er.REG_NOT_OWNER, Er.REG_UNMAPPED, Er.REG_KEY_READ, Er.REG_NO_BRACKET, Er.REG_SIZE, Er.WIN_RANGE,
  Er.WIN_BAD_OP, Er.TIME_JUMP, Er.TIME_STEP_REFUSED, Er.TIME_RATE_RANGE, Er.TIME_REARM_KEY, Er.TIME_SRC_CONFLICT,
  Er.GPTP_SYNC_TIMEOUT, Er.GPTP_PDELAY_FAIL, Er.CAN_ID_CLASH, Er.CAN_ERR_PASSIVE, Er.CAN_RXQ_DROP, Er.CAN_OBJ_OVERLAP,
  Er.CAN_TIMING, Er.CAN_ARD_FAIL, Er.CAN_TX_FAILED, Er.CAN_RTQ_FLUSH, Er.CAN_TXB_LOCKED, Er.LIN_NO_RESP,
  Er.LIN_CSUM, Er.LIN_BIT, Er.LIN_SYNC, Er.LIN_FRAMING, Er.LIN_RXQ_DROP, Er.LIN_BAUD,
  Er.SER_COLLISION, Er.SER_RXQ_DROP, Er.SER_PARITY, Er.SER_FRAMING, Er.SER_BAUD, Er.SER_TXB_LOCKED,
  Er.SRT_TIMEOUT, Er.SRT_LATE_ARRIVAL, Er.SRT_DST_REFUSED, Er.SRT_EVQ_DROP, Er.SRT_ACF_BAD, Er.ETH_LINK_DOWN,
  Er.ETH_LATE_LINKUP, Er.ETH_AGED, Er.ETH_AN_FAIL, Er.ETH_VERIFY_FAIL, Er.ETH_PLCA_STATUS, Er.PIPE_RECIRC_LIMIT,
  Er.PIPE_RECIRC_STALE, Er.PIPE_MARK_RED, Er.FDB_LIMIT, Er.SWC_PUSHOUT, Er.SWC_CT_STOMP, Er.EGR_OVERRUN,
  Er.EGR_GATE_OVERSIZE, Er.EGR_ROGUE, Er.EGR_HOLD_FULL, Er.EGR_SET_FULL, Er.EGR_GCL_REPHASE, Er.TRN_HI_SUSPEND,
  Er.TRN_EXPORT_ERR, Er.TRN_PF_DROP, Er.MRAM_WRITE, Er.NM_LATE_WAKE, Er.NM_SEG_AWAKE, Er.NM_TX_TIMEOUT,
  Er.KEY_DENIED, Er.KEY_STALE, Er.KEY_FULL, Er.KEY_SLOT_BUSY, Er.KEY_BAD_ATTR, Er.KEY_LC,
  Er.OTP_LOCKED, Er.OTP_LC_DENIED, Er.HDOM_RESET, Er.HDOM_LINK_DOWN, Er.DMA_DESC_ERR, Er.SPI_CMD_ERR,
  Er.BRK_BROKEN, Er.BRK_NOT_HOLDER, Er.BRK_DENIED, Er.EMC_HOST_RANGE, Er.PWR_LATE_WAKE, Er.CRG_X32K_FAIL]
def sevCodes5 : List Nat := [
  Er.KEY_RNG, Er.KEY_NO_ROOT, Er.EMC_TRAIN_FAIL, Er.BOOT_SELFTEST_FAIL, Er.LOG_WDOG_WARN, Er.LOG_WDOG_RESET]

/-- The fixed severity of an error code (R510). -/
def sevOf (code : Nat) : Nat :=
  if sevCodes1.contains code then 1 else if sevCodes2.contains code then 2
  else if sevCodes3.contains code then 3 else if sevCodes5.contains code then 5 else 4

/-! ### Table entry fields, with each layout's reset entry and writable mask -/

abbrev En.GPORT_DELAY_THRESH : Fld := ⟨0, 96, 32⟩
abbrev En.GPORT_NRR : Fld := ⟨0, 64, 32⟩
abbrev En.GPORT_MEAN_DELAY : Fld := ⟨0, 32, 32⟩
abbrev En.GPORT_AS_CAPABLE : Fld := ⟨0, 16, 1⟩
abbrev En.GPORT_ALLOWED_LOST : Fld := ⟨0, 8, 8⟩
abbrev En.GPORT_LOG_PDELAY : Fld := ⟨0, 1, 4⟩
abbrev En.GPORT_PDELAY_EN : Fld := ⟨0, 0, 1⟩
abbrev En.GPORT_rst : Nat := 0x320000000000000000000000900
abbrev En.GPORT_rw : Nat := 0xFFFFFFFF00000000000000000000FF1F
abbrev En.GROLE_VALID : Fld := ⟨0, 2, 1⟩
abbrev En.GROLE_ROLE : Fld := ⟨0, 0, 2⟩
abbrev En.GROLE_rst : Nat := 0x0
abbrev En.GROLE_rw : Nat := 0x7
abbrev En.OBJ_SEC : Fld := ⟨0, 240, 1⟩
abbrev En.OBJ_AF : Fld := ⟨0, 208, 32⟩
abbrev En.OBJ_VCID : Fld := ⟨0, 200, 8⟩
abbrev En.OBJ_SDT : Fld := ⟨0, 192, 8⟩
abbrev En.OBJ_EOF_STAMP : Fld := ⟨0, 128, 64⟩
abbrev En.OBJ_SOF_STAMP : Fld := ⟨0, 64, 64⟩
abbrev En.OBJ_LENGTH : Fld := ⟨0, 48, 7⟩
abbrev En.OBJ_ESI : Fld := ⟨0, 41, 1⟩
abbrev En.OBJ_BRS : Fld := ⟨0, 40, 1⟩
abbrev En.OBJ_FORMAT : Fld := ⟨0, 37, 3⟩
abbrev En.OBJ_ID : Fld := ⟨0, 8, 29⟩
abbrev En.OBJ_RTR : Fld := ⟨0, 6, 1⟩
abbrev En.OBJ_LOST : Fld := ⟨0, 5, 1⟩
abbrev En.OBJ_NEW : Fld := ⟨0, 4, 1⟩
abbrev En.OBJ_XL : Fld := ⟨0, 3, 1⟩
abbrev En.OBJ_IRQ_EN : Fld := ⟨0, 2, 1⟩
abbrev En.OBJ_IDE : Fld := ⟨0, 1, 1⟩
abbrev En.OBJ_VALID : Fld := ⟨0, 0, 1⟩
abbrev En.OBJ_rst : Nat := 0x0
abbrev En.OBJ_rw : Nat := 0x1FFFFFFF0F
abbrev En.TXH_AF : Fld := ⟨0, 96, 32⟩
abbrev En.TXH_VCID : Fld := ⟨0, 64, 8⟩
abbrev En.TXH_ID : Fld := ⟨0, 32, 29⟩
abbrev En.TXH_SDT : Fld := ⟨0, 20, 8⟩
abbrev En.TXH_LENGTH : Fld := ⟨0, 8, 12⟩
abbrev En.TXH_SEC : Fld := ⟨0, 7, 1⟩
abbrev En.TXH_IDE : Fld := ⟨0, 6, 1⟩
abbrev En.TXH_RTR : Fld := ⟨0, 5, 1⟩
abbrev En.TXH_BRS : Fld := ⟨0, 4, 1⟩
abbrev En.TXH_FORMAT : Fld := ⟨0, 1, 3⟩
abbrev En.TXH_VALID : Fld := ⟨0, 0, 1⟩
abbrev En.TXH_rst : Nat := 0x0
abbrev En.TXH_rw : Nat := 0xFFFFFFFF000000FF1FFFFFFF0FFFFFFF
abbrev En.RESP_DATA : Fld := ⟨0, 64, 64⟩
abbrev En.RESP_UPDATED : Fld := ⟨0, 15, 1⟩
abbrev En.RESP_QUEUE : Fld := ⟨0, 14, 1⟩
abbrev En.RESP_IRQ_EN : Fld := ⟨0, 13, 1⟩
abbrev En.RESP_SRC : Fld := ⟨0, 12, 1⟩
abbrev En.RESP_LEN : Fld := ⟨0, 8, 4⟩
abbrev En.RESP_CSUM : Fld := ⟨0, 7, 1⟩
abbrev En.RESP_DIR : Fld := ⟨0, 3, 2⟩
abbrev En.RESP_VALID : Fld := ⟨0, 0, 1⟩
abbrev En.RESP_rst : Nat := 0x0
abbrev En.RESP_rw : Nat := 0xFFFFFFFFFFFFFFFF0000000000007F99
abbrev En.SCHE_SLOT : Fld := ⟨0, 16, 16⟩
abbrev En.SCHE_ID : Fld := ⟨0, 8, 6⟩
abbrev En.SCHE_TYPE : Fld := ⟨0, 4, 2⟩
abbrev En.SCHE_VALID : Fld := ⟨0, 0, 1⟩
abbrev En.SCHE_rst : Nat := 0x0
abbrev En.SCHE_rw : Nat := 0xFFFF3F31
abbrev En.ROUTE_MIN_GAP : Fld := ⟨0, 232, 8⟩
abbrev En.ROUTE_TX_PERIOD : Fld := ⟨0, 216, 16⟩
abbrev En.ROUTE_TX_MODE : Fld := ⟨0, 212, 2⟩
abbrev En.ROUTE_IMG : Fld := ⟨0, 200, 11⟩
abbrev En.ROUTE_MAP_COUNT : Fld := ⟨0, 192, 7⟩
abbrev En.ROUTE_MAP_BASE : Fld := ⟨0, 176, 15⟩
abbrev En.ROUTE_PAD : Fld := ⟨0, 168, 8⟩
abbrev En.ROUTE_AUTH_V_EN : Fld := ⟨0, 160, 1⟩
abbrev En.ROUTE_AUTH_V : Fld := ⟨0, 152, 8⟩
abbrev En.ROUTE_TMO : Fld := ⟨0, 128, 20⟩
abbrev En.ROUTE_PERIOD : Fld := ⟨0, 112, 16⟩
abbrev En.ROUTE_PREF : Fld := ⟨0, 101, 5⟩
abbrev En.ROUTE_DIS : Fld := ⟨0, 99, 2⟩
abbrev En.ROUTE_POLICY : Fld := ⟨0, 96, 3⟩
abbrev En.ROUTE_CHMASK : Fld := ⟨0, 72, 24⟩
abbrev En.ROUTE_MASK : Fld := ⟨0, 40, 29⟩
abbrev En.ROUTE_ID : Fld := ⟨0, 8, 29⟩
abbrev En.ROUTE_XL : Fld := ⟨0, 5, 1⟩
abbrev En.ROUTE_IDE : Fld := ⟨0, 4, 1⟩
abbrev En.ROUTE_SRC_KIND : Fld := ⟨0, 2, 2⟩
abbrev En.ROUTE_KIND : Fld := ⟨0, 1, 1⟩
abbrev En.ROUTE_VALID : Fld := ⟨0, 0, 1⟩
abbrev En.ROUTE_rst : Nat := 0x0
abbrev En.ROUTE_rw : Nat := 0xFFFFFF37FF7F7FFFFF01FF0FFFFFFFFF03FFFFFFFF1FFFFFFF1FFFFFFF3F
abbrev En.DSTS_AUTH : Fld := ⟨0, 54, 8⟩
abbrev En.DSTS_AUTH_EN : Fld := ⟨0, 53, 1⟩
abbrev En.DSTS_LEN : Fld := ⟨0, 46, 7⟩
abbrev En.DSTS_ID : Fld := ⟨0, 16, 29⟩
abbrev En.DSTS_ID_MODE : Fld := ⟨0, 13, 2⟩
abbrev En.DSTS_BRS : Fld := ⟨0, 12, 1⟩
abbrev En.DSTS_FORMAT : Fld := ⟨0, 9, 3⟩
abbrev En.DSTS_CH : Fld := ⟨0, 3, 6⟩
abbrev En.DSTS_KIND : Fld := ⟨0, 1, 2⟩
abbrev En.DSTS_VALID : Fld := ⟨0, 0, 1⟩
abbrev En.DSTS_rst : Nat := 0x0
abbrev En.DSTS_rw : Nat := 0x3FFFDFFFFFFF7FFF
abbrev En.MAP_CMP_VAL : Fld := ⟨0, 192, 64⟩
abbrev En.MAP_SUBST : Fld := ⟨0, 128, 64⟩
abbrev En.MAP_DST_IMG : Fld := ⟨0, 80, 11⟩
abbrev En.MAP_ACT_EVENT : Fld := ⟨0, 77, 1⟩
abbrev En.MAP_ACT_QUOTE : Fld := ⟨0, 76, 1⟩
abbrev En.MAP_CMP : Fld := ⟨0, 73, 3⟩
abbrev En.MAP_DST_UB : Fld := ⟨0, 64, 9⟩
abbrev En.MAP_SRC_UB : Fld := ⟨0, 48, 14⟩
abbrev En.MAP_DLEN : Fld := ⟨0, 41, 7⟩
abbrev En.MAP_DSTART : Fld := ⟨0, 32, 9⟩
abbrev En.MAP_SLEN : Fld := ⟨0, 24, 7⟩
abbrev En.MAP_SSTART : Fld := ⟨0, 8, 14⟩
abbrev En.MAP_DST_UB_EN : Fld := ⟨0, 6, 1⟩
abbrev En.MAP_SRC_UB_EN : Fld := ⟨0, 5, 1⟩
abbrev En.MAP_SUB_EN : Fld := ⟨0, 4, 1⟩
abbrev En.MAP_EXT : Fld := ⟨0, 3, 1⟩
abbrev En.MAP_DORD : Fld := ⟨0, 2, 1⟩
abbrev En.MAP_SORD : Fld := ⟨0, 1, 1⟩
abbrev En.MAP_VALID : Fld := ⟨0, 0, 1⟩
abbrev En.MAP_rst : Nat := 0x0
abbrev En.MAP_rw : Nat := 0xFFFFFFFFFFFFFFFFFFFFFFFFFFFFFFFF0000000007FF3FFF3FFFFFFF7F3FFF7F
abbrev En.RSTATE_DEADLINE : Fld := ⟨0, 128, 64⟩
abbrev En.RSTATE_LAST : Fld := ⟨0, 64, 64⟩
abbrev En.RSTATE_ARRIVALS : Fld := ⟨0, 8, 32⟩
abbrev En.RSTATE_OWNER : Fld := ⟨0, 3, 5⟩
abbrev En.RSTATE_HELD : Fld := ⟨0, 2, 1⟩
abbrev En.RSTATE_STATE : Fld := ⟨0, 0, 2⟩
abbrev En.RSTATE_rst : Nat := 0x0
abbrev En.RSTATE_rw : Nat := 0x0
abbrev En.TXS_SEQ : Fld := ⟨0, 176, 8⟩
abbrev En.TXS_TRANSIT_US : Fld := ⟨0, 160, 16⟩
abbrev En.TXS_STREAM_ID : Fld := ⟨0, 96, 64⟩
abbrev En.TXS_DA : Fld := ⟨0, 48, 48⟩
abbrev En.TXS_PCP : Fld := ⟨0, 40, 3⟩
abbrev En.TXS_VID : Fld := ⟨0, 28, 12⟩
abbrev En.TXS_MAX_BYTES : Fld := ⟨0, 16, 11⟩
abbrev En.TXS_WINDOW_US : Fld := ⟨0, 4, 10⟩
abbrev En.TXS_BRIEF : Fld := ⟨0, 2, 1⟩
abbrev En.TXS_SUBTYPE : Fld := ⟨0, 1, 1⟩
abbrev En.TXS_VALID : Fld := ⟨0, 0, 1⟩
abbrev En.TXS_rst : Nat := 0x0
abbrev En.TXS_rw : Nat := 0xFFFFFFFFFFFFFFFFFFFFFFFFFFFFFFFF07FFF7FF3FF7
abbrev En.RXS_SEQ_EXP : Fld := ⟨0, 128, 8⟩
abbrev En.RXS_STREAM_ID : Fld := ⟨0, 64, 64⟩
abbrev En.RXS_ACCEPT_NTSCF : Fld := ⟨0, 3, 1⟩
abbrev En.RXS_ACCEPT_TSCF : Fld := ⟨0, 2, 1⟩
abbrev En.RXS_SEQ_CHECK : Fld := ⟨0, 1, 1⟩
abbrev En.RXS_VALID : Fld := ⟨0, 0, 1⟩
abbrev En.RXS_rst : Nat := 0x0
abbrev En.RXS_rw : Nat := 0xFFFFFFFFFFFFFFFF000000000000000F
abbrev En.PPORT_PCP_TO_TC : Fld := ⟨0, 32, 24⟩
abbrev En.PPORT_LANE_MASK : Fld := ⟨0, 28, 4⟩
abbrev En.PPORT_TAG_MAX : Fld := ⟨0, 24, 2⟩
abbrev En.PPORT_INNER_KEYS : Fld := ⟨0, 23, 1⟩
abbrev En.PPORT_DEPTH : Fld := ⟨0, 20, 2⟩
abbrev En.PPORT_ACCEPT : Fld := ⟨0, 18, 2⟩
abbrev En.PPORT_DEF_PCP : Fld := ⟨0, 15, 3⟩
abbrev En.PPORT_PVID : Fld := ⟨0, 0, 12⟩
abbrev En.PPORT_rst : Nat := 0xFAC688F2200001
abbrev En.PPORT_rw : Nat := 0xFFFFFFF3BF8FFF
abbrev En.PCLS_HI : Fld := ⟨0, 48, 16⟩
abbrev En.PCLS_LO : Fld := ⟨0, 32, 16⟩
abbrev En.PCLS_CLASS : Fld := ⟨0, 3, 4⟩
abbrev En.PCLS_KIND : Fld := ⟨0, 1, 2⟩
abbrev En.PCLS_VALID : Fld := ⟨0, 0, 1⟩
abbrev En.PCLS_rst : Nat := 0x0
abbrev En.PCLS_rw : Nat := 0xFFFFFFFF0000007F
abbrev En.PKEY_MASK : Fld := ⟨0, 136, 120⟩
abbrev En.PKEY_VALUE : Fld := ⟨0, 16, 120⟩
abbrev En.PKEY_LANE : Fld := ⟨0, 4, 2⟩
abbrev En.PKEY_FMT : Fld := ⟨0, 2, 2⟩
abbrev En.PKEY_VALID : Fld := ⟨0, 0, 1⟩
abbrev En.PKEY_rst : Nat := 0x0
abbrev En.PKEY_rw : Nat := 0xFFFFFFFFFFFFFFFFFFFFFFFFFFFFFFFFFFFFFFFFFFFFFFFFFFFFFFFFFFFF003D
abbrev En.PACT_LEARN_DIS : Fld := ⟨0, 89, 1⟩
abbrev En.PACT_DECAP : Fld := ⟨0, 88, 1⟩
abbrev En.PACT_RECIRC : Fld := ⟨0, 87, 1⟩
abbrev En.PACT_SF : Fld := ⟨0, 77, 10⟩
abbrev En.PACT_SF_EN : Fld := ⟨0, 76, 1⟩
abbrev En.PACT_METER : Fld := ⟨0, 66, 10⟩
abbrev En.PACT_METER_EN : Fld := ⟨0, 65, 1⟩
abbrev En.PACT_DSCP : Fld := ⟨0, 59, 6⟩
abbrev En.PACT_DSCP_EN : Fld := ⟨0, 58, 1⟩
abbrev En.PACT_VID : Fld := ⟨0, 46, 12⟩
abbrev En.PACT_VID_EN : Fld := ⟨0, 45, 1⟩
abbrev En.PACT_DEI : Fld := ⟨0, 44, 1⟩
abbrev En.PACT_DEI_EN : Fld := ⟨0, 43, 1⟩
abbrev En.PACT_PCP : Fld := ⟨0, 40, 3⟩
abbrev En.PACT_PCP_EN : Fld := ⟨0, 39, 1⟩
abbrev En.PACT_TC : Fld := ⟨0, 36, 3⟩
abbrev En.PACT_TC_EN : Fld := ⟨0, 35, 1⟩
abbrev En.PACT_QUOTE : Fld := ⟨0, 34, 1⟩
abbrev En.PACT_TAP : Fld := ⟨0, 31, 3⟩
abbrev En.PACT_SAMPLE_SEL : Fld := ⟨0, 29, 2⟩
abbrev En.PACT_SAMPLE_EN : Fld := ⟨0, 28, 1⟩
abbrev En.PACT_MIRROR_SEL : Fld := ⟨0, 26, 2⟩
abbrev En.PACT_MIRROR : Fld := ⟨0, 25, 1⟩
abbrev En.PACT_REASON : Fld := ⟨0, 17, 8⟩
abbrev En.PACT_TRAP_PORT : Fld := ⟨0, 16, 1⟩
abbrev En.PACT_TRAP : Fld := ⟨0, 15, 1⟩
abbrev En.PACT_DST : Fld := ⟨0, 3, 12⟩
abbrev En.PACT_DST_KIND : Fld := ⟨0, 2, 1⟩
abbrev En.PACT_REDIRECT_EN : Fld := ⟨0, 1, 1⟩
abbrev En.PACT_DROP : Fld := ⟨0, 0, 1⟩
abbrev En.PACT_rst : Nat := 0x0
abbrev En.PACT_rw : Nat := 0x3FFFFFFFFFFFFFFFFFFFFFF
abbrev En.METER_EBS : Fld := ⟨0, 96, 24⟩
abbrev En.METER_CBS : Fld := ⟨0, 72, 24⟩
abbrev En.METER_EIR : Fld := ⟨0, 48, 24⟩
abbrev En.METER_CIR : Fld := ⟨0, 24, 24⟩
abbrev En.METER_MARK_RED_EN : Fld := ⟨0, 5, 1⟩
abbrev En.METER_DROP_YELLOW : Fld := ⟨0, 4, 1⟩
abbrev En.METER_CM : Fld := ⟨0, 3, 1⟩
abbrev En.METER_CF : Fld := ⟨0, 2, 1⟩
abbrev En.METER_VALID : Fld := ⟨0, 0, 1⟩
abbrev En.METER_rst : Nat := 0x0
abbrev En.METER_rw : Nat := 0xFFFFFFFFFFFFFFFFFFFFFFFF00003D
abbrev En.SFILT_MAX_SDU : Fld := ⟨0, 16, 16⟩
abbrev En.SFILT_FM : Fld := ⟨0, 4, 10⟩
abbrev En.SFILT_FM_EN : Fld := ⟨0, 3, 1⟩
abbrev En.SFILT_BLOCK_OVERSIZE_EN : Fld := ⟨0, 2, 1⟩
abbrev En.SFILT_VALID : Fld := ⟨0, 0, 1⟩
abbrev En.SFILT_rst : Nat := 0x0
abbrev En.SFILT_rw : Nat := 0xFFFF3FFD
abbrev En.MSTATE_MARK_RED : Fld := ⟨0, 240, 1⟩
abbrev En.MSTATE_ET : Fld := ⟨0, 216, 24⟩
abbrev En.MSTATE_CT : Fld := ⟨0, 192, 24⟩
abbrev En.MSTATE_RED : Fld := ⟨0, 128, 64⟩
abbrev En.MSTATE_YELLOW : Fld := ⟨0, 64, 64⟩
abbrev En.MSTATE_GREEN : Fld := ⟨0, 0, 64⟩
abbrev En.MSTATE_rst : Nat := 0x0
abbrev En.MSTATE_rw : Nat := 0x1000000000000000000000000000000000000000000000000000000000000
abbrev En.SFCNT_BLOCKED : Fld := ⟨0, 224, 1⟩
abbrev En.SFCNT_RED : Fld := ⟨0, 168, 56⟩
abbrev En.SFCNT_NOT_PASSING : Fld := ⟨0, 112, 56⟩
abbrev En.SFCNT_PASSING : Fld := ⟨0, 56, 56⟩
abbrev En.SFCNT_MATCHING : Fld := ⟨0, 0, 56⟩
abbrev En.SFCNT_rst : Nat := 0x0
abbrev En.SFCNT_rw : Nat := 0x100000000000000000000000000000000000000000000000000000000
abbrev En.PHIT_HITS : Fld := ⟨0, 0, 64⟩
abbrev En.PHIT_rst : Nat := 0x0
abbrev En.PHIT_rw : Nat := 0x0
abbrev En.FENT_STAMP : Fld := ⟨0, 128, 64⟩
abbrev En.FENT_MAC : Fld := ⟨0, 32, 48⟩
abbrev En.FENT_FID : Fld := ⟨0, 20, 12⟩
abbrev En.FENT_DEST : Fld := ⟨0, 8, 12⟩
abbrev En.FENT_DROP : Fld := ⟨0, 6, 1⟩
abbrev En.FENT_SA_LOCK : Fld := ⟨0, 5, 1⟩
abbrev En.FENT_GROUP : Fld := ⟨0, 4, 1⟩
abbrev En.FENT_XLRN : Fld := ⟨0, 3, 1⟩
abbrev En.FENT_HIT : Fld := ⟨0, 2, 1⟩
abbrev En.FENT_STATIC : Fld := ⟨0, 1, 1⟩
abbrev En.FENT_VALID : Fld := ⟨0, 0, 1⟩
abbrev En.FENT_rst : Nat := 0x0
abbrev En.FENT_rw : Nat := 0xFFFFFFFFFFFFFFFFFF73
abbrev En.VLAN_UNTAG : Fld := ⟨0, 52, 36⟩
abbrev En.VLAN_MEMBER : Fld := ⟨0, 16, 36⟩
abbrev En.VLAN_FID : Fld := ⟨0, 4, 12⟩
abbrev En.VLAN_UNK_MC_DROP : Fld := ⟨0, 3, 1⟩
abbrev En.VLAN_UNK_UC_DROP : Fld := ⟨0, 2, 1⟩
abbrev En.VLAN_LEARN_EN : Fld := ⟨0, 1, 1⟩
abbrev En.VLAN_VALID : Fld := ⟨0, 0, 1⟩
abbrev En.VLAN_rst : Nat := 0x0
abbrev En.VLAN_rw : Nat := 0xFFFFFFFFFFFFFFFFFFFFFF
abbrev En.GRP_MASK : Fld := ⟨0, 1, 36⟩
abbrev En.GRP_VALID : Fld := ⟨0, 0, 1⟩
abbrev En.GRP_rst : Nat := 0x0
abbrev En.GRP_rw : Nat := 0x1FFFFFFFFF
abbrev En.LPORT_COUNT : Fld := ⟨0, 32, 15⟩
abbrev En.LPORT_LIMIT : Fld := ⟨0, 4, 14⟩
abbrev En.LPORT_FLUSH_ON_DOWN : Fld := ⟨0, 3, 1⟩
abbrev En.LPORT_LIMIT_ACT : Fld := ⟨0, 2, 1⟩
abbrev En.LPORT_LEARN_EN : Fld := ⟨0, 0, 1⟩
abbrev En.LPORT_rst : Nat := 0x9
abbrev En.LPORT_rw : Nat := 0x3FFFD
abbrev En.SPORT_FULL_POLICY : Fld := ⟨0, 13, 1⟩
abbrev En.SPORT_RX_SAMPLE_SEL : Fld := ⟨0, 11, 2⟩
abbrev En.SPORT_RX_SAMPLE_EN : Fld := ⟨0, 10, 1⟩
abbrev En.SPORT_TX_MIRROR_SEL : Fld := ⟨0, 8, 2⟩
abbrev En.SPORT_TX_MIRROR_EN : Fld := ⟨0, 7, 1⟩
abbrev En.SPORT_RX_MIRROR_SEL : Fld := ⟨0, 5, 2⟩
abbrev En.SPORT_RX_MIRROR_EN : Fld := ⟨0, 4, 1⟩
abbrev En.SPORT_CT_OUT : Fld := ⟨0, 1, 1⟩
abbrev En.SPORT_CT_IN : Fld := ⟨0, 0, 1⟩
abbrev En.SPORT_rst : Nat := 0x0
abbrev En.SPORT_rw : Nat := 0x3FF3
abbrev En.QST_PUSHED_OUT : Fld := ⟨0, 224, 32⟩
abbrev En.QST_DROPS : Fld := ⟨0, 176, 48⟩
abbrev En.QST_ENQ : Fld := ⟨0, 128, 48⟩
abbrev En.QST_PACKETS : Fld := ⟨0, 96, 18⟩
abbrev En.QST_STATE : Fld := ⟨0, 58, 2⟩
abbrev En.QST_IN_FLIGHT : Fld := ⟨0, 57, 1⟩
abbrev En.QST_M_BLOCKS : Fld := ⟨0, 34, 21⟩
abbrev En.QST_T_CELLS : Fld := ⟨0, 17, 17⟩
abbrev En.QST_H_CELLS : Fld := ⟨0, 0, 17⟩
abbrev En.QST_rst : Nat := 0x0
abbrev En.QST_rw : Nat := 0x0
abbrev En.EPORT_WEIGHT : Fld := ⟨0, 192, 64⟩
abbrev En.EPORT_TSA : Fld := ⟨0, 176, 16⟩
abbrev En.EPORT_HOLD_ADV : Fld := ⟨0, 160, 16⟩
abbrev En.EPORT_RTAG_STRIP : Fld := ⟨0, 2, 1⟩
abbrev En.EPORT_GUARD_EN : Fld := ⟨0, 1, 1⟩
abbrev En.EPORT_rst : Nat := 0x101010101010101000000000000000000000000000000000000000000000002
abbrev En.EPORT_rw : Nat := 0xFFFFFFFFFFFFFFFFFFFFFFFF0000000000000000000000000000000000000006
abbrev En.EQ_CREDIT : Fld := ⟨0, 160, 32⟩
abbrev En.EQ_MAX_SDU : Fld := ⟨0, 112, 16⟩
abbrev En.EQ_IDLE_SLOPE : Fld := ⟨0, 88, 24⟩
abbrev En.EQ_OVERSIZE : Fld := ⟨0, 32, 32⟩
abbrev En.EQ_OVERRUN : Fld := ⟨0, 0, 32⟩
abbrev En.EQ_rst : Nat := 0x0
abbrev En.EQ_rw : Nat := 0xFFFFFFFFFF0000000000000000000000
abbrev En.GLE_INTERVAL : Fld := ⟨0, 32, 32⟩
abbrev En.GLE_OP : Fld := ⟨0, 8, 2⟩
abbrev En.GLE_GATES : Fld := ⟨0, 0, 8⟩
abbrev En.GLE_rst : Nat := 0x0
abbrev En.GLE_rw : Nat := 0xFFFFFFFF000003FF
abbrev En.GLP_BASE : Fld := ⟨0, 192, 64⟩
abbrev En.GLP_CYCLE : Fld := ⟨0, 160, 32⟩
abbrev En.GLP_LEN : Fld := ⟨0, 151, 9⟩
abbrev En.GLP_VIEW : Fld := ⟨0, 148, 3⟩
abbrev En.GLP_FALLBACK : Fld := ⟨0, 140, 8⟩
abbrev En.GLP_CHANGE_STAMP : Fld := ⟨0, 64, 64⟩
abbrev En.GLP_ENTRY : Fld := ⟨0, 8, 8⟩
abbrev En.GLP_STATE : Fld := ⟨0, 0, 2⟩
abbrev En.GLP_rst : Nat := 0x1FF00000000000000000000000000000000000
abbrev En.GLP_rw : Nat := 0xFFFFFFFFFFFFFFFFFFFFFFFFFFFFF00000000000000000000000000000000000
abbrev En.STRM_REC : Fld := ⟨0, 23, 9⟩
abbrev En.STRM_REC_EN : Fld := ⟨0, 22, 1⟩
abbrev En.STRM_GEN : Fld := ⟨0, 14, 8⟩
abbrev En.STRM_GEN_EN : Fld := ⟨0, 13, 1⟩
abbrev En.STRM_VALID : Fld := ⟨0, 0, 1⟩
abbrev En.STRM_rst : Nat := 0x0
abbrev En.STRM_rw : Nat := 0xFFFFE001
abbrev En.GENF_SEQ : Fld := ⟨0, 16, 16⟩
abbrev En.GENF_VALID : Fld := ⟨0, 0, 1⟩
abbrev En.GENF_rst : Nat := 0x0
abbrev En.GENF_rw : Nat := 0xFFFF0001
abbrev En.RECF_HISTORY : Fld := ⟨0, 192, 64⟩
abbrev En.RECF_RECOV_SEQ : Fld := ⟨0, 176, 16⟩
abbrev En.RECF_TAKE_ANY : Fld := ⟨0, 175, 1⟩
abbrev En.RECF_RESET_MS : Fld := ⟨0, 80, 16⟩
abbrev En.RECF_WINDOW_US : Fld := ⟨0, 64, 16⟩
abbrev En.RECF_PRIM_PORT : Fld := ⟨0, 32, 6⟩
abbrev En.RECF_DIS : Fld := ⟨0, 24, 2⟩
abbrev En.RECF_PATHS : Fld := ⟨0, 16, 3⟩
abbrev En.RECF_HISTORY_LEN : Fld := ⟨0, 8, 7⟩
abbrev En.RECF_VALID : Fld := ⟨0, 0, 1⟩
abbrev En.RECF_rst : Nat := 0x8000000000000000000003E800000000000000022000
abbrev En.RECF_rw : Nat := 0xFFFFFFFF0000003F03077F01
abbrev En.RECC_DISAGREE : Fld := ⟨0, 224, 32⟩
abbrev En.RECC_RESETS : Fld := ⟨0, 192, 32⟩
abbrev En.RECC_TAGLESS : Fld := ⟨0, 160, 32⟩
abbrev En.RECC_LOST : Fld := ⟨0, 128, 32⟩
abbrev En.RECC_OUT_OF_ORDER : Fld := ⟨0, 96, 32⟩
abbrev En.RECC_ROGUE : Fld := ⟨0, 64, 32⟩
abbrev En.RECC_DISCARDED : Fld := ⟨0, 32, 32⟩
abbrev En.RECC_PASSED : Fld := ⟨0, 0, 32⟩
abbrev En.RECC_rst : Nat := 0x0
abbrev En.RECC_rw : Nat := 0x0
abbrev En.ETAP_RX_N : Fld := ⟨0, 48, 16⟩
abbrev En.ETAP_TX_N : Fld := ⟨0, 32, 16⟩
abbrev En.ETAP_TRUNC : Fld := ⟨0, 24, 6⟩
abbrev En.ETAP_SAMPLE_TRUNC : Fld := ⟨0, 19, 1⟩
abbrev En.ETAP_TX_MODE : Fld := ⟨0, 16, 3⟩
abbrev En.ETAP_RX_MODE : Fld := ⟨0, 0, 3⟩
abbrev En.ETAP_rst : Nat := 0x400040002000000
abbrev En.ETAP_rw : Nat := 0xFFFFFFFF3F0F0007
abbrev En.SEGD_LAST : Fld := ⟨0, 192, 64⟩
abbrev En.SEGD_FIRST : Fld := ⟨0, 128, 64⟩
abbrev En.SEGD_OPEN : Fld := ⟨0, 64, 64⟩
abbrev En.SEGD_BYTES : Fld := ⟨0, 43, 21⟩
abbrev En.SEGD_PINS : Fld := ⟨0, 40, 3⟩
abbrev En.SEGD_WRAP : Fld := ⟨0, 24, 16⟩
abbrev En.SEGD_STATE : Fld := ⟨0, 2, 2⟩
abbrev En.SEGD_CLASS : Fld := ⟨0, 1, 1⟩
abbrev En.SEGD_rst : Nat := 0x0
abbrev En.SEGD_rw : Nat := 0x0
abbrev En.QENT_END : Fld := ⟨0, 192, 64⟩
abbrev En.QENT_START : Fld := ⟨0, 128, 64⟩
abbrev En.QENT_T : Fld := ⟨0, 64, 64⟩
abbrev En.QENT_GEN : Fld := ⟨0, 32, 32⟩
abbrev En.QENT_PIN_SHORT : Fld := ⟨0, 25, 1⟩
abbrev En.QENT_PF : Fld := ⟨0, 24, 1⟩
abbrev En.QENT_REASON : Fld := ⟨0, 16, 8⟩
abbrev En.QENT_TRIG_N : Fld := ⟨0, 11, 5⟩
abbrev En.QENT_SLOT : Fld := ⟨0, 8, 3⟩
abbrev En.QENT_SRC : Fld := ⟨0, 5, 3⟩
abbrev En.QENT_CAP : Fld := ⟨0, 2, 3⟩
abbrev En.QENT_STATE : Fld := ⟨0, 0, 2⟩
abbrev En.QENT_rst : Nat := 0x0
abbrev En.QENT_rw : Nat := 0x0
abbrev En.NMCH_DATAMASK : Fld := ⟨0, 192, 64⟩
abbrev En.NMCH_DATA : Fld := ⟨0, 128, 64⟩
abbrev En.NMCH_IDMASK : Fld := ⟨0, 99, 29⟩
abbrev En.NMCH_ID : Fld := ⟨0, 70, 29⟩
abbrev En.NMCH_IDE : Fld := ⟨0, 69, 1⟩
abbrev En.NMCH_DLC : Fld := ⟨0, 65, 4⟩
abbrev En.NMCH_DLC_EN : Fld := ⟨0, 64, 1⟩
abbrev En.NMCH_RATE : Fld := ⟨0, 6, 2⟩
abbrev En.NMCH_SLEEP_MODE : Fld := ⟨0, 4, 2⟩
abbrev En.NMCH_NM_TX : Fld := ⟨0, 3, 1⟩
abbrev En.NMCH_VALID : Fld := ⟨0, 0, 1⟩
abbrev En.NMCH_rst : Nat := 0x80
abbrev En.NMCH_rw : Nat := 0xFFFFFFFFFFFFFFFFFFFFFFFFFFFFFFFFFFFFFFFFFFFFFFFF00000000000000F9
abbrev En.OFFE_LAST : Fld := ⟨0, 192, 64⟩
abbrev En.OFFE_FIRST : Fld := ⟨0, 128, 64⟩
abbrev En.OFFE_COUNT : Fld := ⟨0, 96, 32⟩
abbrev En.OFFE_IDE : Fld := ⟨0, 93, 1⟩
abbrev En.OFFE_ID : Fld := ⟨0, 64, 29⟩
abbrev En.OFFE_NODE : Fld := ⟨0, 8, 8⟩
abbrev En.OFFE_RMR_SEEN : Fld := ⟨0, 3, 1⟩
abbrev En.OFFE_AW_SEEN : Fld := ⟨0, 2, 1⟩
abbrev En.OFFE_REPORTED : Fld := ⟨0, 1, 1⟩
abbrev En.OFFE_VALID : Fld := ⟨0, 0, 1⟩
abbrev En.OFFE_rst : Nat := 0x0
abbrev En.OFFE_rw : Nat := 0x0
abbrev En.KSLOT_CREATED : Fld := ⟨0, 64, 64⟩
abbrev En.KSLOT_CREATOR : Fld := ⟨0, 56, 3⟩
abbrev En.KSLOT_PARENT : Fld := ⟨0, 48, 8⟩
abbrev En.KSLOT_GEN : Fld := ⟨0, 32, 16⟩
abbrev En.KSLOT_ATTR : Fld := ⟨0, 4, 28⟩
abbrev En.KSLOT_FIXED : Fld := ⟨0, 3, 1⟩
abbrev En.KSLOT_DERIVED : Fld := ⟨0, 2, 1⟩
abbrev En.KSLOT_GENERATED : Fld := ⟨0, 1, 1⟩
abbrev En.KSLOT_VALID : Fld := ⟨0, 0, 1⟩
abbrev En.KSLOT_rst : Nat := 0x0
abbrev En.KSLOT_rw : Nat := 0x0
abbrev En.PROF_KEY : Fld := ⟨0, 224, 32⟩
abbrev En.PROF_DATA_ID : Fld := ⟨0, 208, 16⟩
abbrev En.PROF_FRESH : Fld := ⟨0, 196, 12⟩
abbrev En.PROF_TAG_BITS : Fld := ⟨0, 184, 8⟩
abbrev En.PROF_FV_TX_BITS : Fld := ⟨0, 178, 6⟩
abbrev En.PROF_PLEN : Fld := ⟨0, 165, 11⟩
abbrev En.PROF_ACTION : Fld := ⟨0, 4, 2⟩
abbrev En.PROF_ID_BIND : Fld := ⟨0, 2, 1⟩
abbrev En.PROF_DIR : Fld := ⟨0, 1, 1⟩
abbrev En.PROF_VALID : Fld := ⟨0, 0, 1⟩
abbrev En.PROF_rst : Nat := 0x0
abbrev En.PROF_rw : Nat := 0xFFFFFFFFFFFFFFF0FFFCFFE00000000000000000000000000000000000000037
abbrev En.FRSH_EXHAUSTED : Fld := ⟨0, 65, 1⟩
abbrev En.FRSH_PERSIST : Fld := ⟨0, 64, 1⟩
abbrev En.FRSH_FV : Fld := ⟨0, 0, 64⟩
abbrev En.FRSH_rst : Nat := 0x0
abbrev En.FRSH_rw : Nat := 0x1FFFFFFFFFFFFFFFF
abbrev En.PCNT_OTHER : Fld := ⟨0, 192, 64⟩
abbrev En.PCNT_REPLAY : Fld := ⟨0, 128, 64⟩
abbrev En.PCNT_TAG_FAIL : Fld := ⟨0, 64, 64⟩
abbrev En.PCNT_OK : Fld := ⟨0, 0, 64⟩
abbrev En.PCNT_rst : Nat := 0x0
abbrev En.PCNT_rw : Nat := 0x0
abbrev En.MPORT_REPLAY_WINDOW : Fld := ⟨0, 24, 32⟩
abbrev En.MPORT_NEXT_EN : Fld := ⟨0, 22, 1⟩
abbrev En.MPORT_NEXT_AN : Fld := ⟨0, 20, 2⟩
abbrev En.MPORT_ENC_AN : Fld := ⟨0, 18, 2⟩
abbrev En.MPORT_TX_SC : Fld := ⟨0, 11, 7⟩
abbrev En.MPORT_REPLAY_PROTECT : Fld := ⟨0, 10, 1⟩
abbrev En.MPORT_SCB : Fld := ⟨0, 9, 1⟩
abbrev En.MPORT_ES : Fld := ⟨0, 8, 1⟩
abbrev En.MPORT_INCLUDE_SCI : Fld := ⟨0, 7, 1⟩
abbrev En.MPORT_OFFSET : Fld := ⟨0, 5, 2⟩
abbrev En.MPORT_CONF : Fld := ⟨0, 4, 1⟩
abbrev En.MPORT_VALIDATE : Fld := ⟨0, 2, 2⟩
abbrev En.MPORT_RX_EN : Fld := ⟨0, 1, 1⟩
abbrev En.MPORT_TX_EN : Fld := ⟨0, 0, 1⟩
abbrev En.MPORT_rst : Nat := 0x98
abbrev En.MPORT_rw : Nat := 0xFFFFFFFF7FFFFF
abbrev En.SC_SCI : Fld := ⟨0, 64, 64⟩
abbrev En.SC_PORT : Fld := ⟨0, 4, 5⟩
abbrev En.SC_SUITE : Fld := ⟨0, 2, 2⟩
abbrev En.SC_DIR : Fld := ⟨0, 1, 1⟩
abbrev En.SC_VALID : Fld := ⟨0, 0, 1⟩
abbrev En.SC_rst : Nat := 0x0
abbrev En.SC_rw : Nat := 0xFFFFFFFFFFFFFFFF00000000000001FF
abbrev En.SA_SALT : Fld := ⟨0, 160, 96⟩
abbrev En.SA_SSCI : Fld := ⟨0, 128, 32⟩
abbrev En.SA_NEXT_PN : Fld := ⟨0, 64, 64⟩
abbrev En.SA_KEY : Fld := ⟨0, 32, 32⟩
abbrev En.SA_EXHAUSTED : Fld := ⟨0, 2, 1⟩
abbrev En.SA_IN_USE : Fld := ⟨0, 1, 1⟩
abbrev En.SA_VALID : Fld := ⟨0, 0, 1⟩
abbrev En.SA_rst : Nat := 0x10000000000000000
abbrev En.SA_rw : Nat := 0xFFFFFFFFFFFFFFFFFFFFFFFFFFFFFFFFFFFFFFFFFFFFFFFFFFFFFFFF00000001
abbrev En.SACNT_LATE : Fld := ⟨0, 192, 64⟩
abbrev En.SACNT_INVALID : Fld := ⟨0, 128, 64⟩
abbrev En.SACNT_OCTETS : Fld := ⟨0, 64, 64⟩
abbrev En.SACNT_FRAMES : Fld := ⟨0, 0, 64⟩
abbrev En.SACNT_rst : Nat := 0x0
abbrev En.SACNT_rw : Nat := 0x0
abbrev En.RING_TAIL : Fld := ⟨0, 224, 16⟩
abbrev En.RING_HEAD : Fld := ⟨0, 208, 16⟩
abbrev En.RING_QMASK : Fld := ⟨0, 192, 8⟩
abbrev En.RING_SRC_PORT : Fld := ⟨0, 180, 6⟩
abbrev En.RING_COAL_US : Fld := ⟨0, 160, 16⟩
abbrev En.RING_COAL_CNT : Fld := ⟨0, 152, 8⟩
abbrev En.RING_VEC : Fld := ⟨0, 144, 5⟩
abbrev En.RING_IRQ_EN : Fld := ⟨0, 143, 1⟩
abbrev En.RING_LOG2_SIZE : Fld := ⟨0, 136, 4⟩
abbrev En.RING_STATE : Fld := ⟨0, 128, 2⟩
abbrev En.RING_BASE : Fld := ⟨0, 64, 64⟩
abbrev En.RING_LOC : Fld := ⟨0, 2, 1⟩
abbrev En.RING_VALID : Fld := ⟨0, 0, 1⟩
abbrev En.RING_rst : Nat := 0x100060000000000000000000000000000000000
abbrev En.RING_rw : Nat := 0xFF03F0FFFFFF1F8F00FFFFFFFFFFFFFFFF0000000000000005

end Sys2Proof.Machine
end

