-- ==== Sys2Proof/Machine/Maps.lean ====
section
/-!
DEFINITION. Sparse stores in canonical form, bit fields of words and entries, and the little list operations the blocks
share. Registers, counters, window tables and byte memories are all held as such stores (notes/assumptions/4.md).
-/

namespace Sys2Proof.Machine

/-! ### Sparse stores -/

/-- What key `k` holds: the listed value, or `d`, what an unlisted key reads as.
DESIGN CHOICE, safe (notes/assumptions/4.md). -/
def smGet {α : Type} (d : α) (k : Nat) : SMap α → α
  | [] => d
  | (k', v) :: m => if k = k' then v else smGet d k m

/-- Take key `k` out of a store. -/
def smDel {α : Type} (k : Nat) (m : SMap α) : SMap α := m.filter fun x => x.1 ≠ k

/-- Store `v` at `k`, keeping keys rising and listing nothing that equals the default `d` of `k`.
DESIGN CHOICE, safe (notes/assumptions/4.md). -/
def smSet {α : Type} [DecidableEq α] (d : α) (k : Nat) (v : α) : SMap α → SMap α
  | [] => if v = d then [] else [(k, v)]
  | (k', v') :: m =>
    if v = d then smDel k ((k', v') :: m)
    else if k < k' then (k, v) :: (k', v') :: m
    else if k = k' then (k, v) :: m
    else (k', v') :: smSet d k v m

/-- The canonical form: every key of the tail lies above `lo`, keys rise strictly, no value equals its default. -/
def smWfFrom {α : Type} [DecidableEq α] (d : Nat → α) (lo : Nat) : SMap α → Bool
  | [] => true
  | (k, v) :: m => decide (lo ≤ k) && decide (v ≠ d k) && smWfFrom d (k + 1) m

/-- A store in canonical form for the defaults `d`. -/
def smWf {α : Type} [DecidableEq α] (d : Nat → α) (m : SMap α) : Bool := smWfFrom d 0 m

/-- Drop every key from `lo` up to but not including `hi`: those keys read as their defaults again. -/
def smDrop {α : Type} (lo hi : Nat) (keep : Nat → Bool) : SMap α → SMap α
  | [] => []
  | (k, v) :: m => if lo ≤ k && k < hi && !keep k then smDrop lo hi keep m else (k, v) :: smDrop lo hi keep m

/-! ### Bit fields -/

/-- The mask of a field `w` bits wide at bit `lo`. -/
def fieldMask (n lo w : Nat) : BitVec n := BitVec.ofNat n (2 ^ w - 1) <<< lo

/-- The value of the field `w` bits wide at bit `lo`. -/
def bitsOf {n : Nat} (v : BitVec n) (lo w : Nat) : Nat := v.toNat / 2 ^ lo % 2 ^ w

/-- `v` with the field at bit `lo` replaced by the low `w` bits of `x`. -/
def putBits {n : Nat} (v : BitVec n) (lo w x : Nat) : BitVec n :=
  BitVec.ofNat n (v.toNat % 2 ^ lo + x % 2 ^ w * 2 ^ lo + v.toNat / 2 ^ (lo + w) * 2 ^ (lo + w))

/-- A field of an entry or of a register word. -/
def fget {n : Nat} (v : BitVec n) (f : Fld) : Nat := bitsOf v f.lo f.w

/-- An entry or register word with one field replaced. -/
def fput {n : Nat} (v : BitVec n) (f : Fld) (x : Nat) : BitVec n := putBits v f.lo f.w x

/-- Bit `i` of a number. -/
abbrev bitAt (x i : Nat) : Bool := x.testBit i

/-- 1 or 0. -/
def b2n (b : Bool) : Nat := if b then 1 else 0

/-- A two's-complement number of `w` bits read as an integer. -/
def sgn (w x : Nat) : Int := if x % 2 ^ w < 2 ^ (w - 1) then (x % 2 ^ w : Nat) else ((x % 2 ^ w : Nat) : Int) - 2 ^ w

/-- An integer as a two's-complement number of `w` bits. -/
def unsgn (w : Nat) (x : Int) : Nat := (x % (2 ^ w : Nat)).toNat

/-! ### Bytes and words -/

/-- The `n` little-endian bytes of a number. -/
def leBytes : Nat → Nat → List Nat
  | 0, _ => []
  | n + 1, x => x % 256 :: leBytes n (x / 256)

/-- The number that little-endian bytes hold. -/
def leNat : List Nat → Nat
  | [] => 0
  | b :: bs => b % 256 + 256 * leNat bs

/-- The `n` big-endian (network order, R4) bytes of a number. -/
def beBytes (n x : Nat) : List Nat := (leBytes n x).reverse

/-- The number that big-endian bytes hold. -/
def beNat (bs : List Nat) : Nat := leNat bs.reverse

/-- Bytes packed four to a word, byte 4k in bits [7:0] of word k; the last word padded with zeros. -/
def packWords : List Nat → List Nat
  | [] => []
  | [a] => [a % 256]
  | [a, b] => [leNat [a, b]]
  | [a, b, c] => [leNat [a, b, c]]
  | a :: b :: c :: d :: r => leNat [a, b, c, d] :: packWords r

/-! ### Lists -/

/-- Element `i` of a list, or `d`. -/
def nth {α : Type} (d : α) : List α → Nat → α
  | [], _ => d
  | x :: _, 0 => x
  | _ :: l, i + 1 => nth d l i

/-- The list with element `i` replaced by `f` of it; unchanged when there is no element `i`. -/
def modNth {α : Type} (f : α → α) : List α → Nat → List α
  | [], _ => []
  | x :: l, 0 => f x :: l
  | x :: l, i + 1 => x :: modNth f l i

/-- Pad with `d` or cut to exactly `n` elements. -/
def fitTo {α : Type} (d : α) : Nat → List α → List α
  | 0, _ => []
  | n + 1, [] => d :: fitTo d n []
  | n + 1, x :: l => x :: fitTo d n l

/-- Fold a state through the numbers below `n`, rising. -/
def foldN {α : Type} (n : Nat) (f : Nat → α → α) (a : α) : α := (List.range n).foldl (fun x i => f i x) a

/-- The saturating unsigned sum within `w` bits. -/
def satAdd (w a b : Nat) : Nat := min (a + b) (2 ^ w - 1)

end Sys2Proof.Machine
end

