-- ==== Sys2Proof/Machine/Crypto.lean ====
section
/-!
DEFINITION. The functions that the chapters name by a published standard and do not print: AES (FIPS 197), AES-CMAC (NIST
SP 800-38B, R391, R400), AES-GCM (NIST SP 800-38D, R409), SHA-256 (FIPS 180-4, R395), P-256 and ECDSA (FIPS 186, R387,
R395). PRESUMED: the standards stand outside the spec (notes/assumptions/7.md). A key, a nonce or a digest is the number
its bytes spell, the first byte most significant.
-/

namespace Sys2Proof.Machine

/-! ### AES -/

/-- The S-box of FIPS 197, entry x in bits [8x+7:8x]. -/
def aesSboxTable : Nat :=
  0xc072a49cafa2d4adf04759fa7dc982ca76abd7fe2b670130c56f6bf27b777c63 + 2 ^ 256 * (
  0x75b227ebe28012079a059618c323c7041531d871f1e5a534ccf73f362693fdb7 + 2 ^ 256 * (
  0xcf584c4a39becb6a5bb1fc20ed00d153842fe329b3d63b52a05a6e1b1a2c8309 + 2 ^ 256 * (
  0xd2f3ff1021dab6bcf5389d928f40a351a89f3c507f02f94585334d43fbaaefd0 + 2 ^ 256 * (
  0xdb0b5ede14b8ee4688902a22dc4f816073195d643d7ea7c41744975fec130ccd + 2 ^ 256 * (
  0x8ae7a65eaf4566ca94ed58d6d37c8e779e4959162acd3c25c2406490a3a32e0 + 2 ^ 256 * (
  0x9e1dc186b95735610ef6034866b53e708a8bbd4b1f74dde8c6b4a61c2e2578ba + 2 ^ 256 * (
  0x16bb54b00f2d99416842e6bf0d89a18cdf2855cee9871e9b948ed9691198f8e1)))))))

/-- The S-box. -/
def aesSub (x : Nat) : Nat := aesSboxTable / 2 ^ (8 * x) % 256

/-- Multiplication by x in the field of AES. -/
def aesX (b : Nat) : Nat := if b < 128 then 2 * b else (2 * b) ^^^ 0x11B

/-- Two byte strings XORed. -/
def xorBytes (a b : List Nat) : List Nat := (a.zip b).map fun x => x.1 ^^^ x.2

/-- One more word of the key schedule; `ws` holds the words so far, newest first, `nk` the key's length in words, `i` the
number of the new word and `rc` its round constant. -/
def aesWord (nk i rc : Nat) (ws : List (List Nat)) : List Nat :=
  let t := nth [] ws 0
  let t :=
    if i % nk = 0 then xorBytes ((t.drop 1 ++ t.take 1).map aesSub) [rc, 0, 0, 0]
    else if 6 < nk && i % nk = 4 then t.map aesSub
    else t
  xorBytes (nth [] ws (nk - 1)) t

/-- `n` more words, newest first. -/
def aesWords (nk : Nat) : Nat → Nat → Nat → List (List Nat) → List (List Nat)
  | 0, _, _, ws => ws
  | n + 1, i, rc, ws => aesWords nk n (i + 1) (if i % nk = 0 then aesX rc else rc) (aesWord nk i rc ws :: ws)

/-- The round keys of a key of `bits` bits, 16 bytes each, in order. -/
def aesKeys (bits key : Nat) : List (List Nat) :=
  let nk := bits / 32
  let k := beBytes (4 * nk) key
  let first := (List.range nk).reverse.map fun i => (k.drop (4 * i)).take 4
  let ws := (aesWords nk (4 * (nk + 7) - nk) nk 1 first).reverse
  (List.range (nk + 7)).map fun r => ((ws.drop (4 * r)).take 4).flatten

/-- ShiftRows on a state of 16 bytes, column by column. -/
def aesShift (s : List Nat) : List Nat := (List.range 16).map fun i => nth 0 s ((i + 4 * (i % 4)) % 16)

/-- MixColumns on one column. -/
def aesMixCol (c : List Nat) : List Nat :=
  let a := fun i => nth 0 c (i % 4)
  (List.range 4).map fun i => aesX (a i) ^^^ (aesX (a (i + 1)) ^^^ a (i + 1)) ^^^ a (i + 2) ^^^ a (i + 3)

/-- MixColumns. -/
def aesMix (s : List Nat) : List Nat := (List.range 4).flatMap fun c => aesMixCol ((s.drop (4 * c)).take 4)

/-- The rounds after the first key addition; the last one mixes no columns. -/
def aesRounds : List (List Nat) → List Nat → List Nat
  | [], s => s
  | [k], s => xorBytes (aesShift (s.map aesSub)) k
  | k :: ks, s => aesRounds ks (xorBytes (aesMix (aesShift (s.map aesSub))) k)

/-- One block enciphered under the round keys. -/
def aesBlock (ks : List (List Nat)) (b : List Nat) : List Nat := aesRounds (ks.drop 1) (xorBytes b (nth [] ks 0))

/-! ### AES-CMAC -/

/-- Twice a block in the field of SP 800-38B. -/
def cmacDouble (b : Nat) : Nat := if b < 2 ^ 127 then 2 * b else (2 * b - 2 ^ 128) ^^^ 0x87

/-- The chain over whole blocks. -/
def cmacChain (ks : List (List Nat)) : Nat → List Nat → List Nat → List Nat
  | 0, c, _ => c
  | n + 1, c, m => cmacChain ks n (aesBlock ks (xorBytes c (m.take 16))) (m.drop 16)

/-- AES-CMAC of a message of bytes under an AES key of `bits` bits, as a number.
PRESUMED, unsafe (notes/assumptions/7.md). -/
@[irreducible] def cmac (bits key : Nat) (msg : List Nat) : Nat :=
  let ks := aesKeys bits key
  let z := List.replicate 16 0
  let k1 := cmacDouble (beNat (aesBlock ks z))
  let n := (msg.length - 1) / 16
  let last := msg.drop (16 * n)
  let whole : Bool := last.length = 16
  let pad := if whole then last else fitTo 0 16 (last ++ [0x80])
  let c := cmacChain ks n z msg
  beNat (aesBlock ks (xorBytes (xorBytes c pad) (beBytes 16 (if whole then k1 else cmacDouble k1))))

/-! ### AES-GCM -/

/-- The counter block `i` of a 96-bit nonce, enciphered. -/
def gcmBlock (ks : List (List Nat)) (nonce i : Nat) : List Nat := aesBlock ks (beBytes 12 nonce ++ beBytes 4 i)

/-- The first `n` bytes of the key stream.
PRESUMED, unsafe (notes/assumptions/7.md). -/
@[irreducible] def gcmStream (bits key nonce n : Nat) : List Nat :=
  let ks := aesKeys bits key
  ((List.range ((n + 15) / 16)).flatMap fun i => gcmBlock ks nonce (i + 2)).take n

/-- Multiplication in the field of GHASH, bit by bit of `x` from its most significant one. -/
def ghashMul : Nat → Nat → Nat → Nat → Nat
  | 0, _, _, z => z
  | n + 1, x, v, z =>
    ghashMul n x (if v % 2 = 1 then v / 2 ^^^ 0xE1 * 2 ^ 120 else v / 2) (if x.testBit n then z ^^^ v else z)

/-- GHASH over whole blocks. -/
def ghash (h : Nat) : Nat → Nat → List Nat → Nat
  | 0, y, _ => y
  | n + 1, y, m => ghash h n (ghashMul 128 (y ^^^ beNat (m.take 16)) h 0) (m.drop 16)

/-- Bytes filled up with zeros to whole blocks. -/
def padBlocks (m : List Nat) : List Nat := fitTo 0 (16 * ((m.length + 15) / 16)) m

/-- The AES-GCM tag over associated data and enciphered text, as a number.
PRESUMED, unsafe (notes/assumptions/7.md). -/
@[irreducible] def gcmTag (bits key nonce : Nat) (aad text : List Nat) : Nat :=
  let ks := aesKeys bits key
  let h := beNat (aesBlock ks (List.replicate 16 0))
  let m := padBlocks aad ++ padBlocks text ++ beBytes 8 (8 * aad.length) ++ beBytes 8 (8 * text.length)
  ghash h (m.length / 16) 0 m ^^^ beNat (gcmBlock ks nonce 1)

/-! ### SHA-256 -/

/-- The constants K of FIPS 180-4, word i in bits [32i+31:32i]. -/
def shaKTable : Nat :=
  0xab1c5ed5923f82a459f111f13956c25be9b5dba5b5c0fbcf71374491428a2f98 + 2 ^ 256 * (
  0xc19bf1749bdc06a780deb1fe72be5d74550c7dc3243185be12835b01d807aa98 + 2 ^ 256 * (
  0x76f988da5cb0a9dc4a7484aa2de92c6f240ca1cc0fc19dc6efbe4786e49b69c1 + 2 ^ 256 * (
  0x1429296706ca6351d5a79147c6e00bf3bf597fc7b00327c8a831c66d983e5152 + 2 ^ 256 * (
  0x92722c8581c2c92e766a0abb650a735453380d134d2c6dfc2e1b213827b70a85 + 2 ^ 256 * (
  0x106aa070f40e3585d6990624d192e819c76c51a3c24b8b70a81a664ba2bfe8a1 + 2 ^ 256 * (
  0x682e6ff35b9cca4f4ed8aa4a391c0cb334b0bcb52748774c1e376c0819a4c116 + 2 ^ 256 * (
  0xc67178f2bef9a3f7a4506ceb90befffa8cc7020884c8781478a5636f748f82ee)))))))

/-- A word rotated right. -/
def rotr (n x : Nat) : Nat := x / 2 ^ n + x % 2 ^ n * 2 ^ (32 - n)

/-- `n` more words of the message schedule, newest first. -/
def shaSched : Nat → List Nat → List Nat
  | 0, w => w
  | n + 1, w =>
    let a := nth 0 w 1
    let b := nth 0 w 14
    let s1 := rotr 17 a ^^^ rotr 19 a ^^^ a / 2 ^ 10
    let s0 := rotr 7 b ^^^ rotr 18 b ^^^ b / 2 ^ 3
    shaSched n ((s1 + nth 0 w 6 + s0 + nth 0 w 15) % 2 ^ 32 :: w)

/-- One round on the eight working words. -/
def shaRound (i w : Nat) : List Nat → List Nat
  | [a, b, c, d, e, f, g, h] =>
    let s1 := rotr 6 e ^^^ rotr 11 e ^^^ rotr 25 e
    let ch := (e &&& f) ^^^ ((2 ^ 32 - 1 - e) &&& g)
    let t1 := h + s1 + ch + shaKTable / 2 ^ (32 * i) % 2 ^ 32 + w
    let s0 := rotr 2 a ^^^ rotr 13 a ^^^ rotr 22 a
    let mj := (a &&& b) ^^^ (a &&& c) ^^^ (b &&& c)
    [(t1 + s0 + mj) % 2 ^ 32, a, b, c, (d + t1) % 2 ^ 32, e, f, g]
  | v => v

/-- The rounds over the schedule's words from word `i` on. -/
def shaRounds : Nat → List Nat → List Nat → List Nat
  | _, [], v => v
  | i, w :: ws, v => shaRounds (i + 1) ws (shaRound i w v)

/-- One block of 64 bytes. -/
def shaBlock (h b : List Nat) : List Nat :=
  let w := (List.range 16).reverse.map fun i => beNat ((b.drop (4 * i)).take 4)
  ((shaRounds 0 (shaSched 48 w).reverse h).zip h).map fun x => (x.1 + x.2) % 2 ^ 32

/-- The chain over `n` blocks. -/
def shaChain : Nat → List Nat → List Nat → List Nat
  | 0, h, _ => h
  | n + 1, h, m => shaChain n (shaBlock h (m.take 64)) (m.drop 64)

/-- SHA-256 of a message of bytes, as a number.
PRESUMED, unsafe (notes/assumptions/7.md). -/
@[irreducible] def sha256 (msg : List Nat) : Nat :=
  let k := (msg.length + 9 + 63) / 64
  let m := fitTo 0 (64 * k - 8) (msg ++ [0x80]) ++ beBytes 8 (8 * msg.length)
  (shaChain k [0x6a09e667, 0xbb67ae85, 0x3c6ef372, 0xa54ff53a, 0x510e527f, 0x9b05688c, 0x1f83d9ab, 0x5be0cd19] m).foldl
    (fun x w => 2 ^ 32 * x + w) 0

/-! ### P-256 and ECDSA -/

/-- The field of P-256. -/
def p256P : Nat := 0xFFFFFFFF00000001000000000000000000000000FFFFFFFFFFFFFFFFFFFFFFFF

/-- The order of its group. -/
def p256Order : Nat := 0xFFFFFFFF00000000FFFFFFFFFFFFFFFFBCE6FAADA7179E84F3B9CAC2FC632551

/-- `a` to the power of the low `n` bits of `e`, modulo `m`, times `r`. -/
def powMod (m : Nat) : Nat → Nat → Nat → Nat → Nat
  | 0, _, _, r => r
  | n + 1, a, e, r => powMod m n (a * a % m) (e / 2) (if e % 2 = 1 then r * a % m else r)

/-- The inverse modulo a prime of 256 bits. -/
def invMod (m a : Nat) : Nat := powMod m 256 (a % m) (m - 2) 1

/-- A difference in the field. -/
def subP (a b : Nat) : Nat := (a + p256P - b % p256P) % p256P

/-- Twice a point in Jacobian coordinates; Z = 0 is the point at infinity. -/
def p256Double : Nat × Nat × Nat → Nat × Nat × Nat
  | (x, y, z) =>
    let z2 := z * z % p256P
    let m := 3 * (subP x z2 * (x + z2) % p256P) % p256P
    let y2 := y * y % p256P
    let s := 4 * x * y2 % p256P
    let x' := subP (m * m) (2 * s)
    (x', subP (m * subP s x') (8 * y2 * y2), 2 * y * z % p256P)

/-- The sum of two points. -/
def p256Add (a b : Nat × Nat × Nat) : Nat × Nat × Nat :=
  if a.2.2 = 0 then b
  else if b.2.2 = 0 then a
  else
    let za := a.2.2 * a.2.2 % p256P
    let zb := b.2.2 * b.2.2 % p256P
    let u1 := a.1 * zb % p256P
    let u2 := b.1 * za % p256P
    let s1 := a.2.1 * zb * b.2.2 % p256P
    let s2 := b.2.1 * za * a.2.2 % p256P
    if u1 = u2 then if s1 = s2 then p256Double a else (1, 1, 0)
    else
      let h := subP u2 u1
      let r := subP s2 s1
      let h2 := h * h % p256P
      let h3 := h2 * h % p256P
      let v := u1 * h2 % p256P
      let x := subP (subP (r * r) h3) (2 * v)
      (x, subP (r * subP v x) (s1 * h3), h * a.2.2 * b.2.2 % p256P)

/-- The base point. -/
def p256Base : Nat × Nat × Nat :=
  (0x6B17D1F2E12C4247F8BCE6E563A440F277037D812DEB33A0F4A13945D898C296,
    0x4FE342E2FE1A7F9B8EE7EB4A7C0F9E162BCE33576B315ECECBB6406837BF51F5, 1)

/-- The multiple by the low `n` bits of `k` of a point, added to `r`. -/
def p256Mul : Nat → Nat → Nat × Nat × Nat → Nat × Nat × Nat → Nat × Nat × Nat
  | 0, _, _, r => r
  | n + 1, k, q, r => p256Mul n (k / 2) (p256Double q) (if k % 2 = 1 then p256Add r q else r)

/-- The coordinates X and Y of a point. -/
def p256Affine (a : Nat × Nat × Nat) : Nat × Nat :=
  let i := invMod p256P a.2.2
  let i2 := i * i % p256P
  (a.1 * i2 % p256P, a.2.1 * i2 * i % p256P)

/-- The public point of a private scalar, X and Y.
PRESUMED, unsafe (notes/assumptions/7.md). -/
@[irreducible] def p256Public (d : Nat) : Nat × Nat := p256Affine (p256Mul 256 d p256Base (1, 1, 0))

/-- The ECDSA signature (r, s) of a digest under a private scalar with the random number `k`.
PRESUMED, unsafe (notes/assumptions/7.md). -/
@[irreducible] def ecdsaSign (key digest k : Nat) : Nat × Nat :=
  let r := (p256Public k).1 % p256Order
  (r, invMod p256Order k * ((digest + r * key) % p256Order) % p256Order)

end Sys2Proof.Machine
end

