-- ==== Sys2Proof/Config.lean ====
section
/-!
DEFINITION. What the spec leaves open: one opaque constant with no body, so no proof can see a value of it
(notes/assumptions/5.md).
-/

namespace Sys2Proof.Config

/-- Free value number `n`: what a value the spec leaves open is at its n-th draw. -/
opaque free : Nat → Nat

end Sys2Proof.Config
end

