-- ==== Sys2Proof/Machine/Flags.lean ====
section
/-!
DEFINITION. Check sums: CRC-32C (R231), and the frame check sequence of IEEE 802.3 that R177 names.
-/

namespace Sys2Proof.Machine

/-- One bit step of the division by a reflected polynomial. -/
def crcBit (poly c : Nat) : Nat := if c % 2 = 1 then (c / 2) ^^^ poly else c / 2

/-- Eight bit steps after a byte is folded in. -/
def crcByte (poly c b : Nat) : Nat := (List.range 8).foldl (fun x _ => crcBit poly x) (c ^^^ (b % 256))

/-- CRC-32C of a byte string, byte 0 first: reflected Castagnoli polynomial, initial value and final XOR 0xFFFF_FFFF
(R231). -/
def crc32c (bs : List Nat) : Nat := (bs.foldl (crcByte 0x82F63B78) 0xFFFFFFFF) ^^^ 0xFFFFFFFF

/-- The frame check sequence of IEEE 802.3, as the four bytes that end a frame. -/
def fcsOf (bs : List Nat) : List Nat := leBytes 4 ((bs.foldl (crcByte 0xEDB88320) 0xFFFFFFFF) ^^^ 0xFFFFFFFF)

end Sys2Proof.Machine
end

