-- ==== Sys2Proof/Machine/Pages.lean ====
section
/-!
DEFINITION. The page map (R23, R25, R41), the reset word of every register (R28, R29 and the register tables), and the
access masks of every register. Addresses are byte offsets in the 16 MiB register space; a page is its number, the
address divided by 4096.
-/

namespace Sys2Proof.Machine

/-- The block types of the page map. -/
inductive Blk where
  | glb | crg | pwr | time | gptp | canc | linc | ser | srt | eprt | pipe | fdb | swc | egr | emc | trn
  | key | msec | hdom | brk | nm | log | line | otp | mram
deriving DecidableEq, Repr

/-- One row of Table 1 of *Register Space and Page Layout*: base page, pages from one instance to the next, instances,
pages per instance, type code. -/
structure PageRow where
  blk : Blk
  base : Nat
  step : Nat
  insts : Nat
  pages : Nat
  type : Nat
deriving DecidableEq, Repr

/-- Table 1 of *Register Space and Page Layout*, less the MRAM data window, which has no header. -/
def pageMap : List PageRow := [
  ⟨.glb, 0x000, 1, 1, 1, 0x0001⟩, ⟨.crg, 0x001, 1, 1, 1, 0x0002⟩, ⟨.pwr, 0x002, 1, 1, 1, 0x0003⟩,
  ⟨.time, 0x003, 1, 1, 1, 0x0010⟩, ⟨.gptp, 0x004, 1, 1, 1, 0x0011⟩, ⟨.canc, 0x100, 1, 24, 1, 0x0020⟩,
  ⟨.linc, 0x118, 1, 8, 1, 0x0021⟩, ⟨.ser, 0x120, 1, 4, 1, 0x0022⟩, ⟨.srt, 0x130, 16, 1, 16, 0x0030⟩,
  ⟨.eprt, 0x200, 1, 32, 1, 0x0040⟩, ⟨.pipe, 0x240, 16, 2, 16, 0x0050⟩, ⟨.fdb, 0x260, 16, 2, 16, 0x0051⟩,
  ⟨.swc, 0x280, 16, 1, 8, 0x0060⟩, ⟨.egr, 0x290, 16, 1, 16, 0x0061⟩, ⟨.emc, 0x2A0, 16, 1, 4, 0x0070⟩,
  ⟨.trn, 0x2B0, 16, 1, 8, 0x0080⟩, ⟨.key, 0x300, 16, 1, 4, 0x0090⟩, ⟨.msec, 0x310, 16, 1, 8, 0x0091⟩,
  ⟨.hdom, 0x380, 1, 6, 1, 0x00A0⟩, ⟨.brk, 0x390, 1, 1, 1, 0x00A1⟩, ⟨.nm, 0x3A0, 16, 1, 4, 0x00B0⟩,
  ⟨.log, 0x3B0, 16, 1, 2, 0x00C0⟩, ⟨.line, 0x3C0, 16, 1, 4, 0x00D0⟩, ⟨.otp, 0x3D0, 16, 1, 2, 0x00E0⟩,
  ⟨.mram, 0x3E0, 1, 1, 1, 0x00F0⟩]

/-! ### Page numbers -/

abbrev pGLB : Nat := 0x000
abbrev pCRG : Nat := 0x001
abbrev pPWR : Nat := 0x002
abbrev pTIME : Nat := 0x003
abbrev pGPTP : Nat := 0x004
abbrev pCANC (n : Nat) : Nat := 0x100 + n
abbrev pLINC (n : Nat) : Nat := 0x118 + n
abbrev pSER (k : Nat) : Nat := 0x120 + k
abbrev pSRT : Nat := 0x130
abbrev pEPRT (p : Nat) : Nat := 0x200 + p
abbrev pPIPE (i : Nat) : Nat := 0x240 + 16 * i
abbrev pFDB (i : Nat) : Nat := 0x260 + 16 * i
abbrev pSWC : Nat := 0x280
abbrev pEGR : Nat := 0x290
abbrev pEMC : Nat := 0x2A0
abbrev pTRN : Nat := 0x2B0
abbrev pKEY (k : Nat) : Nat := 0x300 + k
abbrev pMSEC (k : Nat) : Nat := 0x310 + k
abbrev pHDOM (d : Nat) : Nat := 0x380 + d
abbrev pBRK : Nat := 0x390
abbrev pNM : Nat := 0x3A0
abbrev pLOG : Nat := 0x3B0
abbrev pLINE : Nat := 0x3C0
abbrev pOTP : Nat := 0x3D0
abbrev pMRAM : Nat := 0x3E0

/-- The page map row and the page index within the instance of an implemented page with a header (R23, R41). -/
def pageRow (p : Nat) : Option (PageRow × Nat × Nat) :=
  pageMap.findSome? fun r =>
    if r.base ≤ p && (p - r.base) / r.step < r.insts && (p - r.base) % r.step < r.pages then
      some (r, (p - r.base) / r.step, (p - r.base) % r.step)
    else none

/-- The block of a page. -/
def blkOf (p : Nat) : Option Blk := (pageRow p).map fun x => x.1.blk

/-- An implemented page with a header. -/
def hasHeader (p : Nat) : Bool := (pageRow p).isSome

/-- A page of the MRAM data window (R23). -/
def inMramWindow (p : Nat) : Bool := 0x400 ≤ p && p < 0xC00

/-- Space that R41 calls unmapped: neither a header page nor the MRAM data window. -/
def unmapped (p : Nat) : Bool := !(hasHeader p) && !(inMramWindow p)

/-- Every page that carries the common header. -/
def headerPages : List Nat :=
  pageMap.flatMap fun r => (List.range r.insts).flatMap fun i => (List.range r.pages).map fun k => r.base + r.step * i + k

/-- The page index within its instance is 0: the control page (R27). -/
def isControlPage (p : Nat) : Bool := match pageRow p with | some (_, _, k) => k = 0 | none => false

/-- Page 0 of the instance that page `p` belongs to. -/
def controlPage (p : Nat) : Nat := match pageRow p with | some (_, _, k) => p - k | none => p

/-- Blocks whose CTRL.ENABLE is RO and reads 1, and whose SOFT_RESET reads 0 and ignores writes (R29). -/
def alwaysEnabled : Blk → Bool
  | .glb | .crg | .pwr | .time | .hdom | .brk | .log | .line | .otp | .mram => true
  | _ => false

/-- Blocks with banked tables (CAPS.HAS_BANKS). -/
def hasBanks : Blk → Bool
  | .srt | .pipe | .fdb => true
  | _ => false

/-- Pages with an indirect table window (CAPS.HAS_WINDOW): the control page of a windowed block, every KEY and MSEC page,
and HDOM[0] to HDOM[3] (R445). -/
def hasWindow (p : Nat) : Bool :=
  match pageRow p with
  | some (r, i, k) =>
    match r.blk with
    | .time | .gptp | .canc | .linc | .ser | .srt | .pipe | .fdb | .swc | .egr | .trn | .nm | .log | .otp => k = 0
    | .key | .msec => true
    | .hdom => i < 4
    | _ => false
  | none => false

/-- Blocks with counters (CAPS.HAS_COUNTERS).
DEDUCED, safe (notes/assumptions/18.md). -/
def hasCounters : Blk → Bool
  | .glb | .crg | .line => false
  | _ => true

/-- The block-specific register table of a page: the control page's registers; KEY repeats them on every page (R397). -/
def regsOf (p : Nat) : List RegDef :=
  match pageRow p with
  | some (r, _, k) =>
    if k ≠ 0 && r.blk ≠ .key then [] else
    match r.blk with
    | .glb => regsGLB | .crg => regsCRG | .pwr => regsPWR | .time => regsTIME | .gptp => regsGPTP | .canc => regsCANC
    | .linc => regsLINC | .ser => regsSER | .srt => regsSRT | .eprt => regsEPRT | .pipe => regsPIPE | .fdb => regsFDB
    | .swc => regsSWC | .egr => regsEGR | .emc => regsEMC | .trn => regsTRN | .key => regsKEY | .msec => regsMSEC
    | .hdom => regsHDOM | .brk => regsBRK | .nm => regsNM | .log => regsLOG | .line => regsLINE | .otp => regsOTP
    | .mram => regsMRAM
  | none => []

/-- Does a register row hold page offset `off`? -/
def regHolds (r : RegDef) (off : Nat) : Bool :=
  r.off ≤ off && (if r.stride = 0 then off = r.off else (off - r.off) % r.stride = 0 && (off - r.off) / r.stride < r.count)

/-- The rows of the common header and window registers, as access masks (Tables 4 to 16); their actions are in Bus. -/
def headerRegs : List RegDef := [
  ⟨Reg.CTRL, 0, 1, 0, 0x4, 0, 0x2, 0, 0⟩, ⟨Reg.IRQ_STAT, 0, 1, 0, 0, 0xFFFFFFFF, 0, 0, 0⟩,
  ⟨Reg.IRQ_EN, 0, 1, 0, 0xFFFFFFFF, 0, 0, 0, 0⟩, ⟨Reg.IRQ_ROUTE, 0, 1, 0, 0x8000FF07, 0, 0, 0, 0⟩,
  ⟨Reg.WIN_ADDR, 0, 1, 0, 0x8FFFFFFF, 0, 0, 0, 0⟩, ⟨Reg.WIN_DATA, 4, 8, 0, 0xFFFFFFFF, 0, 0, 0, 0⟩,
  ⟨Reg.WIN_CMD_STATUS, 0, 1, 0, 0, 0x6, 0, 0, 0⟩]

/-- The register row of an address, or none where the offset is reserved (R28). -/
def regDef (a : Nat) : Option RegDef :=
  let off := a % 4096
  if off < 0x040 || 0xC00 ≤ off then headerRegs.find? (fun r => regHolds r off)
  else (regsOf (a / 4096)).find? (fun r => regHolds r off)

/-- xxx_ID (Table 2, R25, R26). -/
def idWord (p : Nat) : Nat :=
  match pageRow p with
  | some (r, i, k) => r.type * 65536 + (if r.pages = 1 then i else 16 * i + k) * 256 + 1
  | none => 0

/-- CAPS.BLOCK: CANC and EPRT define it (R82, R176); elsewhere it reads 0. -/
def capsBlock (p : Nat) : Nat :=
  match pageRow p with
  | some (r, i, _) =>
    match r.blk with
    | .canc => if i < 16 then 1 else 2
    | .eprt => if i < 4 then 4 else if i < 12 then 5 else if i < 24 then 10 else 19
    | _ => 0
  | none => 0

/-- xxx_CAPS (Table 3). -/
def capsWord (p : Nat) : Nat :=
  match pageRow p with
  | some (r, _, _) =>
    capsBlock p * 65536 + b2n (hasCounters r.blk) * 1024 + b2n (hasWindow p || hasWindow (controlPage p)) * 512
      + b2n (hasBanks r.blk) * 256 + r.pages
  | none => 0

/-- xxx_OWNER before the boot configuration record is applied: unowned, but HDOM[d] belongs to d and is LOCKED (R417). -/
def ownerReset (p : Nat) : Nat :=
  match pageRow p with
  | some (r, i, _) => if r.blk = .hdom then 0x40 + i else 0x8
  | none => 0

/-- The reset word of the register at an address.
DESIGN CHOICE, unsafe (notes/assumptions/3.md). -/
def resetWord (a : Nat) : Word :=
  let p := a / 4096
  let off := a % 4096
  match pageRow p with
  | none => 0
  | some (r, i, _) =>
    if off = 0 then BitVec.ofNat 32 (idWord p)
    else if off = 4 then BitVec.ofNat 32 (capsWord p)
    else if off = Reg.CTRL || off = Reg.STATUS then BitVec.ofNat 32 (b2n (alwaysEnabled r.blk && isControlPage p))
    else if off = Reg.OWNER then BitVec.ofNat 32 (ownerReset p)
    else if r.blk = .eprt && off = Reg.EPRT_RX_LAT then
      if i < 12 then 0 else if i < 24 then 0x28000 else 0x73000
    else if r.blk = .eprt && off = Reg.EPRT_TX_LAT then
      if i < 12 then 0 else if i < 24 then 0x16800 else 0x46000
    else if r.blk = .hdom && off = Reg.HDOM_STATE then if i < 4 then 0 else 4
    else if r.blk = .time && off = Reg.TIME_FRC_STATE then 2
    else if r.blk = .time && off = Reg.TIME_VIEW_CFG then 0x640001
    else if r.blk = .time && off = Reg.TIME_VIEW_STATE then 1
    else match regDef a with
      | some d => BitVec.ofNat 32 d.rst
      | none => 0

end Sys2Proof.Machine
end

