-- ==== Sys2Proof/Machine/State.lean ====
section
/-!
DEFINITION. The state of the ZF6240, as plain data: the registers, counters, tables and memories as sparse stores in
canonical form, and what the chapters give the blocks beside their registers, one structure per block. The queue of
waiting commands is the field `pending`. INVENTORY.md lists every piece with the rule that names it.
-/

namespace Sys2Proof.Machine

/-- Why a step can stop with a fault. The spec gives every command an effect on every operand, so no meaning raises one:
the type has no constructor. -/
inductive Fault where
deriving DecidableEq, Repr

/-- Why a command can be refused. -/
inductive Refusal where
  /-- The command has no meaning in the model yet. Raised by an arm of `exec` only; safe, since the run stops. -/
  | notModelled (mnemonic : String)
deriving DecidableEq, Repr

/-! ### What leaves the block -/

/-- What the block sends to the outside in the course of a command, in order: the answers on its register port and SPI
lines, interrupt messages, and what its engines put on a bus or a link (notes/assumptions/6.md). -/
inductive Out where
  /-- The value a register read returns to a domain. -/
  | read (dom addr : Nat) (value : Nat)
  /-- An MSI-X message of a vector of D0 to D3 (R426). -/
  | msix (dom vec : Nat)
  /-- A byte string on an SPI target's data lines (R420). -/
  | spi (dom : Nat) (bytes : List Nat)
  /-- A frame that a CAN channel has sent: source 0 to 2 host buffer, 3 router queue. -/
  | can (ch src : Nat) (f : CanFrame)
  /-- Anything else an engine sends: a tag that names it, and its numbers. -/
  | sent (what : String) (args : List Nat)
deriving DecidableEq, Repr

/-! ### Structures shared by the blocks -/

/-- A word queue (R96 to R99): the unread words of the bank being read, how many words were written into it, the other
bank's words once the writer has moved to it, and whether the next item carries DROP = 1. -/
structure WordQ where
  a : List Nat := []
  aUsed : Nat := 0
  b : List Nat := []
  bUsed : Nat := 0
  wrB : Bool := false
  drop : Bool := false
deriving DecidableEq, Repr

/-- A report on its way to the fault log (R505, R506). -/
structure Report where
  page : Nat
  code : Nat
  src : Nat
  stamp : Nat
  frac : Nat
  arg0 : Nat
  arg1 : Nat
  coarse : Bool
  latched : Bool
  lost : Bool
deriving DecidableEq, Repr

/-- A window command that runs on a page, the domain that started it, and the Table 12 code it will end with, 0 for success
(R46). -/
structure WinRun where
  page : Nat
  dom : Nat
  err : Nat
deriving DecidableEq, Repr

/-- A transmit descriptor whose completion is not yet written (R429, R430): the frame's number, the descriptor's address,
its TAG bytes, a stamp request, the ingress stamp and fraction, transmissions (port, stamp, fraction), whether a copy was
delivered to an internal port, the status once it is known, and the result (stamp, fraction, port). -/
structure TxWait where
  num : Nat
  addr : Nat
  loc : Nat
  req : Bool
  stamp : Nat
  frac : Nat
  sent : List (Nat × Nat × Nat) := []
  inside : Bool := false
  status : Option Nat := none
  result : Nat × Nat × Nat := (0, 0, 0xFF)
deriving DecidableEq, Repr

/-- A ring beside its entry: completions since the last event, the stamp of the first one not signalled (R434), and the
completions of a transmit ring still to be written. -/
structure RingRt where
  coal : Nat := 0
  since : Nat := 0
  waits : List TxWait := []
deriving DecidableEq, Repr

/-- What a host domain holds beside its registers (R417 to R441): ARMED flags, ring latches, MSI-X enable, entry masks and
PBA as bit masks (R426, R434); Bus Master Enable (R419); receive rings that a domain reset stopped (R439); the rings
(transmit r at r, receive r at 4 + r) and the number of the next host frame; an SPI target's buffered words, its STATUS.ERR
and an armed RESET (R420 to R423); the base of the watchdog deadline (R441). -/
structure Dom where
  armed : Nat := 0xFFFFFFFF
  latch : Nat := 0
  msixEn : Bool := false
  msixMask : Nat := 0xFFFFFFFF
  pba : Nat := 0
  bme : Bool := false
  resetRings : List Nat := []
  rings : SMap RingRt := []
  nextTx : Nat := 0
  spi : List (Nat × Nat) := []
  spiErr : Bool := false
  rstArmed : Bool := false
  wdogBase : Nat := 0
deriving DecidableEq, Repr

/-! ### CAN -/

/-- An entry of a router transmit queue (R103): the frame, its enqueue stamp, failed attempts, and its source: `ctm` is
the time-master instance plus 1, or 0 for the router. -/
structure Rtq where
  frame : CanFrame
  stamp : Nat
  fails : Nat
  ctm : Nat
deriving DecidableEq, Repr

/-- A transmission attempt in flight: source 0 to 2 host buffer, 3 router queue with its entry; the frame; the start stamp
(R107) and whether arbitration has been won. -/
structure Attempt where
  src : Nat
  ent : Option Rtq
  frame : CanFrame
  start : Nat
  won : Bool
deriving DecidableEq, Repr

/-- A host transmit buffer beside its header and data tables (R101, R107): enqueue stamp, cancel stamp of an ACTIVE
buffer, failed attempts. -/
structure Txb where
  enq : Nat := 0
  cancel : Option Nat := none
  fails : Nat := 0
deriving DecidableEq, Repr

/-- What a CAN controller holds beside its registers and tables. -/
structure Can where
  /-- The mode code it was frozen from (R111), and whether it left the bus for Comma (R113). -/
  frozenFrom : Nat := 0
  comma : Bool := false
  /-- The mode to restore at Comma exit. -/
  commaMode : Nat := 0
  txb : SMap Txb := []
  /-- Who holds buffer 2 (R352): 0 the host, 1 the engine waits for it, 2 the engine, 3 the host waits for it. -/
  nmBuf : Nat := 0
  /-- The NM frame in buffer 2 belongs to this cluster. -/
  nmCl : Nat := 0
  rtq : List Rtq := []
  attempt : Option Attempt := none
  /-- The data half-entries that READ_CLR has shadowed: object (absolute index) and its two entries (R95). -/
  shadow : Option (Nat × Entry × Entry) := none
  /-- Automatic rate detection (R87): passes completed, consecutive frames, stamp at which the candidate was applied. -/
  ardRound : Nat := 0
  ardMatch : Nat := 0
  ardFrom : Nat := 0
deriving DecidableEq, Repr

/-! ### LIN channels and serial lines -/

/-- A frame in progress on a LIN channel: identifier, start stamp (falling edge of the break), what the channel does with the
response (DIR of Table 1; 4 while the header of a master is still on the line, 0 when only a go-to-sleep command is looked
for), the event-triggered flag, and the data published. -/
structure LinFrame where
  id : Nat
  start : Nat
  dir : Nat
  event : Bool
  data : List Nat
deriving DecidableEq, Repr

/-- What a LIN channel holds beside its registers and tables. -/
structure Lin where
  frame : Option LinFrame := none
  /-- Start of the slot in progress and its length in ns; none before GO has started one (R122). -/
  slot : Option (Nat × Nat) := none
  /-- A table switch is pending (R123). -/
  switch : Bool := false
  /-- The next slot carries go-to-sleep for the keep-alive engine (Table 3 of *Network Sleep*), or this one does. -/
  gts : Bool := false
  gtsNow : Bool := false
  /-- No header before this stamp (R124). -/
  holdoff : Nat := 0
  /-- The last activity on the bus, for the 4 s of R124. -/
  lastAct : Nat := 0
  frozenFrom : Nat := 0
deriving DecidableEq, Repr

/-- A frame of a serial line's router queue: characters and enqueue stamp. -/
structure SerQ where
  chars : List Nat
  stamp : Nat
deriving DecidableEq, Repr

/-- A serial frame being received (R126): start stamp, end of the last character, characters so far, error flag, whether
the next byte is taken literally, how many characters have come, and whether it was cut and delivered already. -/
structure SerRx where
  start : Nat
  last : Nat
  chars : List Nat
  err : Bool
  esc : Bool
  n : Nat
  cut : Bool
deriving DecidableEq, Repr

/-- A transmission in progress on a serial line: from the host buffer or the router queue, all its characters, those not
yet read back, its start stamp. -/
structure SerTx where
  host : Bool
  chars : List Nat
  left : List Nat
  start : Nat
deriving DecidableEq, Repr

/-- What a serial line holds beside its registers and tables: the frame being received, the end of the last character
received, enqueue and cancel stamps of the host buffer, the router queue, the transmission in progress, the mode frozen
from. -/
structure Ser where
  rx : Option SerRx := none
  lastEnd : Option Nat := none
  enq : Nat := 0
  cancel : Option Nat := none
  rtq : List SerQ := []
  tx : Option SerTx := none
  frozenFrom : Nat := 0
deriving DecidableEq, Repr

/-! ### Signal router -/

/-- An input of the router (R137, R138): kind 0 CAN, 1 LIN, 2 serial, 3 tunnel; channel, line or receive stream; stamp; the
frame (format, identifier, length, payload; `w9`: 9-bit characters); for a tunnel message its ACF bus identifier and
message kind, and the avtp_timestamp of a TSCF PDU (R168). -/
structure RIn where
  kind : Nat
  ch : Nat
  stamp : Nat
  f : CanFrame
  w9 : Bool := false
  bus : Nat := 0
  msg : Nat := 0
  avtp : Option Nat := none
deriving DecidableEq, Repr

/-- A redundancy set (R161): its window end, its copies in order of processing, whether its delivery (or the lack of one) is
settled, whether its window end has been acted on, and whether a disagreement has been reported. -/
structure RSet where
  ends : Nat
  copies : List RIn
  delivered : Bool := false
  closed : Bool := false
  diff : Bool := false
deriving DecidableEq, Repr

/-- What a route holds beside its ROUTE_STATE entry (Table 17). -/
structure RRoute where
  /-- The activation stamp (R154). -/
  act : Nat := 0
  /-- End of the period opened under POLICY 1, if one was. -/
  periodEnd : Option Nat := none
  /-- Stamp of the last frame from PREF since activation (POLICY 2). -/
  prefLast : Option Nat := none
  /-- POLICY 3: the owner's last stamp, if there is an owner. -/
  ownerLast : Option Nat := none
  /-- POLICY 4: sets, newest first. -/
  sets : List RSet := []
  /-- The deadline that the last timeout acted on (R156). -/
  acted : Nat := 0
  /-- Image routes (R152): pending, the stamp of the last send, the next tick's number. -/
  pending : Bool := false
  lastSend : Option Nat := none
  tick : Nat := 1
deriving DecidableEq, Repr

/-- A map's condition state (R151): the previous result and the previous value, when there is one. -/
structure RMap where
  prev : Bool := false
  value : Option Nat := none
deriving DecidableEq, Repr

/-- An open PDU of a transmit stream (R166): its window end and its ACF bytes. -/
structure Pdu where
  ends : Nat
  bytes : List Nat
deriving DecidableEq, Repr

/-- The signal router beside its registers and tables. -/
structure Srt where
  /-- Held field-bus inputs and tunnel messages (R139). -/
  field : List RIn := []
  tunnel : List RIn := []
  /-- Stamp of the last commit (R140). -/
  commit : Nat := 0
  routes : SMap RRoute := []
  maps : SMap RMap := []
  /-- Update bits set in an image since its last send (R152). -/
  ubits : SMap (List Nat) := []
  pdus : SMap (Option Pdu) := []
  /-- Frames delivered on port 34 with their ingress stamps (R169, R282). -/
  pduIn : List (Nat × List Nat) := []
  /-- Route states of the previous generation that a commit reset, while it drains (R140, R141). -/
  prev : SMap (Option (Entry × RRoute)) := []
  /-- The avtp_timestamp of the message being processed (R168). -/
  avtp : Option Nat := none
  /-- Supervision stopped by Comma (R158). -/
  comma : Bool := false
deriving DecidableEq, Repr

/-! ### Switch -/

/-- What travels with a packet from its entry to its copies. `port` is the ingress port, `stamp` the ingress stamp (R263),
`fin` the stamp of the frame's end, `bad` a wrong FCS or receive error, `host` the transmit descriptor it came from
(domain, ring, number) with its stamp request. -/
structure Meta where
  port : Nat := 0
  stamp : Nat := 0
  frac : Nat := 0
  fin : Nat := 0
  bad : Bool := false
  host : Option (Nat × Nat × Nat) := none
  stampReq : Bool := false
  /-- The frame as it crossed the MAC, where MACsec has changed it since; else empty. -/
  raw : List Nat := []
  /-- Second pass (R219): the merged action of the first pass, its generation's bank, and the soft-reset epoch it began in. -/
  act : Option Entry := none
  bank : Nat := 0
  epoch : Nat := 0
  /-- First pass through a DECAP: its second pass has the inner frame. -/
  decap : Bool := false
deriving DecidableEq, Repr

/-- A copy in a queue (R261): the packet whose cells it refers to (none once it holds private cells in the spill region),
its bytes as they leave from DA to FCS, the cells it covers, enqueue stamp, what travels with it; kind 0 a forwarded copy,
1 trap, 2 mirror, 3 sample, 4 gPTP (R431), with its trap reason, session or sampler `sel`; the original length, and a
cut-through copy. -/
structure Copy where
  pkt : Option Nat
  bytes : List Nat
  mem : Nat
  enq : Nat
  info : Meta
  kind : Nat := 0
  sel : Nat := 0
  origLen : Nat := 0
  ct : Bool := false
deriving DecidableEq, Repr

/-- A packet whose forwarding decision is made (R212, R235): the pipeline, its packet number and cells, its bytes as admitted, its
destination ports, traffic class, stream entry index, R-TAG number and the number a generation function gives it, VLAN values after rewrites, the ports that send it
untagged, the DSCP rewrite (IP version, offset of the IP header, value), the places of its tags (first C-tag, first S-tag, end
of the last VLAN tag, R-TAG), copies asked for: traps (port, kind, reason), mirror sessions
and samplers; the bytes of a packet that goes to port 36; the decision stamp; and whether a cut-through condition has failed
(R269). -/
structure Packet where
  side : Nat
  pkt : Nat
  mem : Nat
  bytes : List Nat
  info : Meta
  dests : List Nat := []
  tc : Nat := 0
  sf : Option Nat := none
  seq : Option Nat := none
  gen : Option Nat := none
  vid : Nat := 0
  pcp : Nat := 0
  dei : Nat := 0
  untag : Nat := 0
  dscp : Option (Nat × Nat × Nat) := none
  ctagAt : Option Nat := none
  stagAt : Option Nat := none
  tagEnd : Nat := 12
  rtagAt : Option Nat := none
  traps : List (Nat × Nat × Nat) := []
  mirrors : List Nat := []
  samples : List Nat := []
  recirc : Option (List Nat) := none
  decided : Nat := 0
  saf : Bool := false
deriving DecidableEq, Repr

/-- A queue's segments (R273), and whether a refill run is in progress. -/
structure Queue where
  h : List Copy := []
  m : List Copy := []
  t : List Copy := []
  refill : Bool := false
deriving DecidableEq, Repr

/-- The cells of a packet in memory: the cells each live reference covers (R261). -/
structure Cells where
  refs : List Nat := []
deriving DecidableEq, Repr

/-- A frame on the line of a port: its queue, its copy, the selection stamp, and whether it is preemptable. -/
structure OnLine where
  q : Nat
  copy : Copy
  start : Nat
  pre : Bool
  /-- The cell data met an uncorrectable error (R285). -/
  err : Bool := false
deriving DecidableEq, Repr

/-- Egress selection of a port beside its tables (R291 to R305). -/
structure Egress where
  line : Option OnLine := none
  susp : Option OnLine := none
  /-- Credit of each queue, exact, in units of 10^-6 of 2^-16 bit (R294), and the FRC value to which it is up to date. -/
  credit : SMap Int := []
  creditAt : Nat := 0
  deficit : SMap Nat := []
  /-- The DWRR pointers of the express and the preemptable class, and whether the queue at the pointer has had its quantum
  in the visit in progress (R292). -/
  ptrE : Nat := 7
  ptrP : Nat := 7
  visitE : Bool := false
  visitP : Bool := false
  /-- Gates and MAC merge hold of the entry in progress (R297, R302). -/
  gates : Nat := 255
  hold : Bool := false
  /-- PENDING: the state to return to, the change point S and the view it is a value of. -/
  before : Nat := 0
  changeAt : Nat := 0
  changeView : Nat := 0
  /-- The overrun of the frame on the line has been counted (R300). -/
  overrun : Bool := false
deriving DecidableEq, Repr

/-- The Ethernet port beside its registers (R187 to R197). -/
structure Eth where
  /-- X has passed: flushed for this hold. -/
  flushed : Bool := false
  /-- Stamp from which the age checks of HOLD or FROZEN count. -/
  checkFrom : Nat := 0
  /-- Stamp of the TC10 sleep request or of the wake-up pulse. -/
  tcAt : Nat := 0
  /-- Preempted frames received, sampled-tap counts of RX and TX. -/
  rxTap : Nat := 0
  txTap : Nat := 0
  /-- The hold expiry X of the last link loss (R193). -/
  holdX : Nat := 0
deriving DecidableEq, Repr

/-- The switch core beside its registers and tables. -/
structure Swc where
  cells : SMap Cells := []
  nextPkt : Nat := 0
  queues : SMap Queue := []
  /-- Flushed queues whose cells and blocks are not yet released (R276): on-chip copies, and spilled ones. -/
  flushed : SMap (List Copy × List Copy) := []
  /-- Packets at the front of pipelines 0 (A) and 1 (B), in order of arrival; decided packets that wait for their enqueue. -/
  front : SMap (List Copy) := []
  decided : List Packet := []
  /-- The candidate that a sampler with JITTER copies in its current run; none before the run's first candidate (R279). -/
  picks : SMap Nat := []
  /-- The ring each endpoint's transmit rings take turns after (R429). -/
  turns : SMap Nat := []
deriving DecidableEq, Repr

/-- A meter's state beyond the whole bytes of its table entry (R217): buckets in units of 2^-16 byte, last update. -/
structure Bucket where
  ct : Nat := 0
  et : Nat := 0
  last : Nat := 0
deriving DecidableEq, Repr

/-- A pipeline beside its registers and tables: the port admitted last (R200), meters, the soft-reset epoch (Table 5), and
the last commit stamp since the start. -/
structure Pipe where
  last : Nat := 35
  meters : SMap Bucket := []
  epoch : Nat := 0
  c : Option Nat := none
deriving DecidableEq, Repr

/-- A learn request (R241): key, ingress port, stamp of the frame's end. -/
structure LearnReq where
  fid : Nat
  mac : Nat
  port : Nat
  ready : Nat
deriving DecidableEq, Repr

/-- A forwarding database beside its registers and tables: the learn queue, source hits whose frame has not ended (R239),
the offer queue (R243), ROT (R245), the stamp of the last sweep step (R248), and slots with an uncorrectable error that the
next sweep step invalidates, by bank and index (R255). -/
structure Fdb where
  learn : List LearnReq := []
  late : List LearnReq := []
  offers : List LearnReq := []
  rot : Nat := 0
  sweepAt : Nat := 0
  bad : List (Nat × Nat) := []
deriving DecidableEq, Repr

/-- A content among the members of a redundancy set (R313): length, fingerprint, how many members carry it, a held member
that carries it. -/
structure FrContent where
  len : Nat
  print : Nat
  count : Nat
  held : Option Packet
deriving DecidableEq, Repr

/-- An open redundancy set (R313): recovery function, number, window end, contents in order of arrival, whether a member was
delivered, whether the disagreement was reported, and the first member's bytes, stamp r and ingress port. -/
structure FrSet where
  fn : Nat
  seq : Nat
  fin : Nat
  contents : List FrContent
  done : Bool
  differ : Bool
  first : List Nat × Nat × Nat
deriving DecidableEq, Repr

/-- The redundancy functions beside their tables: open sets, and r of the last accepted packet of each function (R312). -/
structure Frer where
  sets : List FrSet := []
  lastR : SMap Nat := []
deriving DecidableEq, Repr

/-! ### Transcript and Quotation -/

/-- A Transcript record (R319): class, stamp, source type and index, flags, sequence number, payload bytes. -/
structure Rec where
  high : Bool
  stamp : Nat
  typ : Nat
  idx : Nat
  flags : Nat
  seq : Nat
  payload : List Nat
deriving DecidableEq, Repr

/-- The records a tap has lost since it last wrote one (R327). -/
structure LostRun where
  n : Nat := 0
  first : Nat := 0
  last : Nat := 0
deriving DecidableEq, Repr

/-- What the ring holds of a segment beside its directory entry (R329): its records in order, its CLOSE stamp, its place
in take order and its full WRAP count. -/
structure Seg where
  recs : List Rec := []
  close : Nat := 0
  ord : Nat := 0
  wrap : Nat := 0
deriving DecidableEq, Repr

/-- A trigger of a Quotation's trigger list. -/
structure Trig where
  stamp : Nat
  src : Nat
  reason : Nat
deriving DecidableEq, Repr

/-- The capsule copier at work (R338): Quotation entry, slot, records still to copy, bytes copied, stamps of the first and
last record copied, and the flags PRE_LIMITED and CAP_FULL. -/
structure Cap where
  entry : Nat
  slot : Nat
  todo : List Rec
  used : Nat
  first : Nat
  last : Nat
  preLimited : Bool
  full : Bool
  eccSkip : Bool
deriving DecidableEq, Repr

/-- A segment export in progress (R343). -/
structure Exp where
  seg : Nat
  dom : Nat
  addr : Nat
deriving DecidableEq, Repr

/-- The Transcript and Quotation block beside its registers and tables. -/
structure Trn where
  low : List Rec := []
  high : List Rec := []
  seqs : SMap Nat := []
  lost : SMap LostRun := []
  samp : SMap Nat := []
  segs : SMap Seg := []
  lowHead : Option Nat := none
  highHead : Option Nat := none
  last : Option Nat := none
  wrap : Nat := 0
  taken : Nat := 0
  trigs : SMap (List Trig) := []
  pins : SMap (List Nat) := []
  cap : Option Cap := none
  exp : Option Exp := none
  /-- WAKE_IN quote triggers latched in Comma or Period: input and edge stamp (R334). -/
  held : List (Nat × Nat) := []
  /-- The power-fail stamp at which the taps closed (R341). -/
  pf : Option Nat := none
deriving DecidableEq, Repr

/-! ### Time views, gPTP and CAN time masters -/

/-- A piece of a view (R55): F_b and T_b in units of 2^-16 ns, the rate in units of 2^-16 ppb, and whether a STEP
started it. -/
structure Piece where
  fb : Nat
  tb : Nat
  rate : Int
  step : Bool := false
deriving DecidableEq, Repr

/-- What a view V1 to V7 holds beside its registers: its chain of pieces since it was enabled, newest first; the changes
of its holdover flag with their stamps, newest first; whether it has been armed since it was enabled, and whether a keyed
re-arm armed it. -/
structure View where
  pieces : List Piece := []
  holds : List (Nat × Bool) := []
  everArmed : Bool := false
  keyed : Bool := false
deriving DecidableEq, Repr

/-- A Sync on its way out of a master port, or the Follow_Up that is due for it (R71): the Sync's ingress in FRC units, the
origin timestamp and correction in units of 2^-16 ns, the ratio; once it has been sent, its egress in FRC units. -/
structure Relay where
  port : Nat
  seq : Nat
  ingress : Nat
  origin : Nat
  corr : Int
  ratio : Int
  egress : Option Nat := none
deriving DecidableEq, Repr

/-- A gPTP instance beside its registers (R71 to R73): the ingress stamp of the last accepted Sync, the servo's integrator,
the Syncs and Follow_Ups due on master ports, the last origination and its sequence number. -/
structure GInst where
  last : Option Nat := none
  integ : Int := 0
  relays : List Relay := []
  lastOrig : Option Nat := none
  seq : Nat := 0
deriving DecidableEq, Repr

/-- The link delay service of a port (R75): egress of the request that waits for its response, lost responses in a row,
and the previous response's t3 and t4, all in FRC units. -/
structure PdPort where
  req : Option Nat := none
  lost : Nat := 0
  prev : Option (Nat × Nat) := none
deriving DecidableEq, Repr

/-- A CAN time master (R76, R77): its enable stamp, the next k, SOF stamps of the last two sent messages, and whether the
last message entered was sent. -/
structure Ctm where
  f0 : Nat := 0
  k : Nat := 0
  sof1 : Option Nat := none
  sof2 : Option Nat := none
  prevOk : Bool := false
deriving DecidableEq, Repr

/-- The time base beside its registers and tables: views; journal entries that await copying (R68); Period request
asserted for a handover (Table 1); the stamp at which the line die's copy of the FRC was last aligned (R52); the pieces and
state words saved in the time retention area (R65); gPTP instances, link delay ports and time masters. -/
structure TimeSt where
  views : SMap View := []
  wait : Nat := 0
  handover : Bool := false
  aligned : Nat := 0
  saved : Option (List (Nat × Piece × Nat)) := none
  insts : SMap GInst := []
  pds : SMap PdPort := []
  ctms : SMap Ctm := []
deriving DecidableEq, Repr

/-! ### Network sleep and wake -/

/-- A wake on its way: REASON, SRC, stamp (Table 4 of *Network Sleep, Wake and Partial Operation*). -/
structure Wake where
  reason : Nat
  src : Nat
  stamp : Nat
deriving DecidableEq, Repr

/-- An event stamped after a deadline on which the engine has not yet acted (R20): a frame on a CAN channel, sent or
received, a wake, a write of NM_CL_REQ by a domain, with its stamp. -/
inductive NmHeld where
  | frame (n : Nat) (f : CanFrame) (stamp : Nat) (received : Bool)
  | wake (w : Wake)
  | req (d v stamp : Nat)
deriving DecidableEq, Repr

/-- What a cluster holds beside its registers (R351 to R369). -/
structure Cluster where
  /-- Latest counting NM frame, and entry stamp of the last REPEAT_MESSAGE; a restarted deadline replaces both (R354). -/
  l : Nat := 0
  /-- Entry stamp of the state in progress (REPEAT_MESSAGE, NORMAL, PREPARE_BUS_SLEEP, CHECK). -/
  entered : Nat := 0
  /-- Stamp at which the next NM frame falls due. -/
  due : Nat := 0
  rmr : Bool := false
  aw : Bool := false
  /-- The commit point K (R355). -/
  k : Nat := 0
  /-- The wake latched during the commit, and whether it was a late arrival (R356). -/
  latched : Option (Wake × Bool) := none
  /-- Start of the offender episode, whether its report was made and its overflow logged. -/
  episode : Nat := 0
  reported : Bool := false
  ovf : Bool := false
  /-- Stamp of the last frame of any kind on a member CAN or LIN channel (R365). -/
  lastAny : Nat := 0
  /-- Events that wait for the action at a deadline before them (R20), oldest first. -/
  held : List NmHeld := []
deriving DecidableEq, Repr

/-- What the line die holds beside registers, through Comma, Period and logic-die resets (R357, R364, R542 to R546):
transceiver standby of CAN channels (0 normal, 1 wake-up pattern, 2 selective wake, 3 no wake detection), LIN and
10BASE-T1S detectors armed, drivers switched off by a dominant time-out or by their thermal limit, and the device wake
that waits for its exit. -/
structure Ldie where
  standby : SMap Nat := []
  linArmed : List Nat := []
  t1sArmed : List Nat := []
  canReleased : List Nat := []
  linReleased : List Nat := []
  canHot : List Nat := []
  linHot : List Nat := []
  devWake : Option (Wake × Bool) := none
deriving DecidableEq, Repr

/-! ### Keys, OTP and authentication -/

/-- A key command that has been accepted and runs (R388): its port, the handle it made, the output entries it will write
(each a 32-byte string), the bytes of the slot to zeroise. -/
structure KeyRun where
  port : Nat
  result : Option Nat
  outs : List (List Nat)
  zero : Option Nat
deriving DecidableEq, Repr

/-- The key store beside its slot entries and registers: key material by slot (R387, R391; no register reads it), commands
accepted and not finished, oldest first, and a random source that has failed its health test (R392). -/
structure KeySt where
  mat : SMap Nat := []
  runs : List KeyRun := []
  rngFail : Bool := false
deriving DecidableEq, Repr

/-- The OTP array (R372): the burnt words, words with an uncorrectable error, and the command that runs: its OP, word and
data (R373, R377, R383). -/
structure Otp where
  words : SMap Nat := []
  bad : List Nat := []
  run : Option (Nat × Nat × Nat) := none
deriving DecidableEq, Repr

/-- The debug port (R379, R380): the challenge, wrong responses in this start. -/
structure Debug where
  chal : Nat := 0
  wrong : Nat := 0
deriving DecidableEq, Repr

/-! ### External memory -/

/-- The arbiter beside its registers (R455 to R460): the age of each pending request in memory clocks. -/
structure Emc where
  ages : SMap Nat := []
deriving DecidableEq, Repr
/-! ### Start and power -/

/-- What the line die and the start hold beside registers (R466 to R503): the start that is pending (its cause); the stamps
of the last PMIC_EN assertion and of its last deassertion, if any; consecutive power-good timeouts; the cause of the start in progress or last
made, and its acceptance stamp; step 4 has begun, its PLL failures, and CLK_LATE; codes to log at the next READY, latched
in GLB (code, ARG0, stamp); an abrupt loss to mark in the journal; the debug request; the commit point M or F_h; the exit that
waits (EXIT_SRC, stamp); an aborted Period entry that waits for its resumption; the stamp of the rise of LOW_POWER_OK; that
from which VBAT and VBAT_SNS have recovered; the Interjection entry stamp and the frames queued; the ports that a Comma put
to sleep, and the PLL locks to come back to. -/
structure Power where
  start : Option Nat := some 1
  enAt : Nat := 0
  offAt : Option Nat := none
  touts : Nat := 0
  cause : Nat := 1
  causeAt : Nat := 0
  step4 : Bool := false
  plls : Nat := 0
  late : Bool := false
  logs : List (Nat × Nat × Nat) := []
  abrupt : Bool := false
  debugReq : Bool := false
  commit : Nat := 0
  exit : Option (Nat × Nat) := none
  abort : Bool := false
  lowSince : Option Nat := none
  highSince : Option Nat := none
  interE : Nat := 0
  interN : Nat := 0
  slept : List Nat := []
  locks : Nat := 0
deriving DecidableEq, Repr


/-- A freshness slot in the MRAM system area (R406): slot, value, EXHAUSTED, and RG_SHIFT where a generation profile of the
image names the slot. -/
structure FreshImg where
  slot : Nat
  fv : Nat
  exhausted : Bool
  shift : Option Nat
deriving DecidableEq, Repr


/-! ### The state -/

/-- The boot stage of the logic die (Table 2 of *Start-Up, Self-Test and Interjection*). -/
inductive Boot where
  /-- Unpowered, or held in reset. -/
  | off
  /-- Steps 4 to the end of the self-test. -/
  | starting
  /-- READY. -/
  | ready
  /-- The Interjection state. -/
  | interjection
deriving DecidableEq, Repr

/-- The device power state machine (Table 6 of *Supplies and Power States*). -/
inductive Pwr where
  | clause | commaPending | periodPending | comma | period | lastGasp | pfHold
deriving DecidableEq, Repr

/-- The machine. -/
structure State where
  /-- The commands that are waiting, first in, first out. -/
  pending : List Instr := []
  /-- What the commands have sent out of the block, oldest first. -/
  out : List Out := []
  /-- The FRC in units of 2^-16 ns (R47): stamp64 times 65536 plus the fraction. -/
  frc : Nat := 0
  /-- The FRC is in a coarse interval (R51). -/
  coarse : Bool := false
  /-- Free values drawn so far (the model's own field: notes/assumptions/5.md). -/
  draws : Nat := 0
  boot : Boot := .off
  pwr : Pwr := .clause
  /-- Registers by address; an unlisted address holds its reset word. -/
  regs : SMap Word := []
  /-- Live counters and their snapshots by address of the low word (R39). -/
  cnt : SMap (BitVec 64) := []
  snap : SMap (BitVec 64) := []
  /-- Window table entries by table key. -/
  tabs : SMap Entry := []
  /-- MRAM bytes by offset in the data window, and external memory bytes by address. -/
  mram : List Host.Cell := []
  dram : List Host.Cell := []
  /-- Word queues: CANC n at n, LINC n at 24 + n, SER k at 32 + k, SRT at 36, LOG at 37. -/
  wqs : SMap WordQ := []
  /-- Reports not yet accepted by the fault log, oldest first (R505). -/
  reports : List Report := []
  /-- Pages that lost a report since the last one accepted (R505). -/
  lostPages : List Nat := []
  /-- Runs in progress: page, code and place (R558). -/
  runs : List (Nat × Nat × Nat) := []
  /-- Window commands that run. -/
  wins : List WinRun := []
  /-- Pages whose soft reset is in progress (R30) and pages whose snapshot is in progress (R40). -/
  resets : List Nat := []
  snaps : List Nat := []
  doms : SMap Dom := []
  cans : SMap Can := []
  lins : SMap Lin := []
  sers : SMap Ser := []
  srt : Srt := {}
  swc : Swc := {}
  egress : SMap Egress := []
  eths : SMap Eth := []
  pipes : SMap Pipe := []
  fdbs : SMap Fdb := []
  frer : Frer := {}
  /-- Table locations whose uncorrectable error has been logged, as page, table and index (R514). -/
  eccSeen : List (Nat × Nat × Nat) := []
  /-- The fault log's overflow run since the last clear (R508) and the base of the watchdog's D1 (R515). -/
  logOvf : Bool := false
  wdogBase : Nat := 0
  /-- PCIe endpoints whose PERST_N input is high (R473). -/
  perst : List Nat := []
  trn : Trn := {}
  /-- The MRAM system area beside MRAM_SLOT and TIME_EPOCH (R336, R337): capsule GEN counter and the slot used last. -/
  capGen : Nat := 0
  lastSlot : Nat := 6
  time : TimeSt := {}
  clusters : SMap Cluster := []
  ldie : Ldie := {}
  keys : KeySt := {}
  otp : Otp := {}
  dbg : Debug := {}
  emc : Emc := {}
  pow : Power := {}
  /-- The MRAM system area's image of the freshness slots (R406). -/
  freshSaved : List FreshImg := []
deriving DecidableEq, Repr

/-- The machine right after the line die's power-on reset (R47, R468): the FRC at 0, every register at its reset value,
the logic die unpowered, nothing listed in any memory, no command waiting.
DESIGN CHOICE, unsafe (notes/assumptions/3.md). DESIGN CHOICE, safe (notes/assumptions/16.md). -/
def State.reset : State := {}

end Sys2Proof.Machine
end

