-- ==== Sys2Proof/Machine/Ops.lean ====
section
/-!
DEFINITION. The named operations over the state that every block shares: time, registers and fields, counters, table
entries, interrupts (R32, R425 to R427), error latching and reporting (R37, R38, R505, R558), word queues (R96 to R99),
and the judgement of a register write (R555).
-/

namespace Sys2Proof.Machine

/-- The outcome of a command. -/
abbrev Res := Host.Outcome State Fault Refusal

/-! ### Time -/

/-- The stamp64 of the FRC (R47); it wraps at 2^64 ns (R53). -/
def State.now (s : State) : Nat := s.frc / 65536 % 2 ^ 64

/-- The fraction of the FRC. -/
def State.nowFrac (s : State) : Nat := s.frc % 65536

/-- The FRC reaches the value `t`; it never goes backwards (R47).
DESIGN CHOICE, safe (notes/assumptions/1.md). -/
def State.advance (t : Nat) (s : State) : State := if s.frc < t then { s with frc := t } else s

/-- The advance of the FRC in one step of its clock (R47, R49, R50), in units of 2^-16 ns: 2.5 ns per fabric cycle while the
logic die runs, 40 ns per reference cycle in Comma, 30,517.578125 ns per 32.768 kHz tick while the line die carries it.
DESIGN CHOICE, safe (notes/assumptions/2.md). -/
def frcTick (s : State) : Nat :=
  if s.boot = .off || s.pwr = .period || s.pwr = .pfHold then 30517 * 65536 + 0x9400
  else if s.pwr = .comma then 40 * 65536
  else 2 * 65536 + 0x8000

/-- The next free value's number, and the state that has drawn it.
DESIGN CHOICE, safe (notes/assumptions/5.md). -/
def State.draw (s : State) : State := { s with draws := s.draws + 1 }

/-- Something leaves the block.
DESIGN CHOICE, safe (notes/assumptions/6.md). -/
def State.emit (o : Out) (s : State) : State := { s with out := s.out ++ [o] }

/-- The register port answers: READY, in a state with the fabric clock on (Tables 4 and 6 of *Supplies and Power
States*). In the Interjection state SPI target A's reads are all that is answered (R483), and writes are discarded. -/
def State.live (s : State) : Bool := s.boot = .ready && !(s.pwr = .comma || s.pwr = .period || s.pwr = .pfHold)

/-- The functions of the device run: READY, and Clause or a Comma entry that has not reached its actions. -/
def State.runs? (s : State) : Bool := s.boot = .ready && (s.pwr = .clause || s.pwr = .commaPending)

/-- The Comma actions of an entry have been taken (R496, R497): what was on a bus then still completes. -/
def State.winds (s : State) : Bool := s.boot = .ready && (s.pwr = .comma || s.pwr = .periodPending)

/-- The state `u` over the queue of `s`: a command acts on everything but the queue. -/
def State.queueOf (s u : State) : State := { u with pending := s.pending }

/-- A command of the line die: it acts in every power state.
DESIGN CHOICE, safe (notes/assumptions/9.md). -/
def always (t : Nat) (s : State) (f : State → State) : Res := .next (s.queueOf (f (s.advance t)))

/-- A command that reaches the logic die's register port.
DESIGN CHOICE, safe (notes/assumptions/9.md). -/
def live (t : Nat) (s : State) (f : State → State) : Res :=
  always t s fun s => if s.live then f s else s

/-- A command of a function of the logic die.
DESIGN CHOICE, safe (notes/assumptions/9.md). -/
def running (t : Nat) (s : State) (f : State → State) : Res :=
  always t s fun s => if s.runs? then f s else s

/-! ### Registers -/

/-- The stored word of the register at an address.
DESIGN CHOICE, safe (notes/assumptions/4.md). -/
def State.reg (s : State) (a : Nat) : Word := smGet (resetWord a) a s.regs

/-- Store a register word. -/
def State.setReg (s : State) (a : Nat) (v : Word) : State := { s with regs := smSet (resetWord a) a v s.regs }

/-- The register of page `p` at offset `off`, as a number. -/
def State.rd (s : State) (p off : Nat) : Nat := (s.reg (p * 4096 + off)).toNat

/-- Store a number in the register of page `p` at offset `off`. -/
def State.wr (s : State) (p off v : Nat) : State := s.setReg (p * 4096 + off) (BitVec.ofNat 32 v)

/-- A field of a register of page `p`. -/
def State.fld (s : State) (p : Nat) (f : Fld) : Nat := fget (s.reg (p * 4096 + f.off)) f

/-- Replace a field of a register of page `p`. -/
def State.setFld (s : State) (p : Nat) (f : Fld) (x : Nat) : State :=
  s.setReg (p * 4096 + f.off) (fput (s.reg (p * 4096 + f.off)) f x)

/-- A one-bit field read as a flag. -/
def State.flag (s : State) (p : Nat) (f : Fld) : Bool := s.fld p f = 1

/-- Set a one-bit field. -/
def State.setFlag (s : State) (p : Nat) (f : Fld) (b : Bool) : State := s.setFld p f (b2n b)

/-- A stamp64 held in a pair of registers, low word first. -/
def State.rd64 (s : State) (p lo : Nat) : Nat := s.rd p lo + 2 ^ 32 * s.rd p (lo + 4)

/-- Store a stamp64 in a pair of registers, low word first. -/
def State.wr64 (s : State) (p lo x : Nat) : State := (s.wr p lo x).wr p (lo + 4) (x / 2 ^ 32)

/-- The block of page `p` operates (CTRL.ENABLE of its control page). -/
def State.enabled (s : State) (p : Nat) : Bool := s.flag p Fd.CTRL_ENABLE

/-- The block of page `p` is frozen (CTRL.FREEZE). -/
def State.frozen (s : State) (p : Nat) : Bool := s.flag p Fd.CTRL_FREEZE

/-! ### Counters (R39) -/

/-- The live count of a counter pair. -/
def State.count (s : State) (p off : Nat) : Nat := (smGet 0 (p * 4096 + off) s.cnt).toNat

/-- Add to a live counter; it wraps at 2^64 (R39). -/
def State.addCnt (s : State) (p off n : Nat) : State :=
  { s with cnt := smSet 0 (p * 4096 + off) (smGet 0 (p * 4096 + off) s.cnt + BitVec.ofNat 64 n) s.cnt }

/-- Count one event. -/
def State.inc (s : State) (p off : Nat) : State := s.addCnt p off 1

/-! ### Table entries -/

/-- The key of a window table entry: page, table, bank (0 or 1) and index. -/
def tkey (p tab bank idx : Nat) : Nat := ((p * 16 + tab) * 2 + bank) * 2 ^ 24 + idx

/-- The reset value of the entries of a table: the layouts whose field tables give one (GPTP ports, SER, PIPE ports, VLAN
entry 1, learning ports, egress ports, lists and recovery functions, tap entries, NM channels, MACsec ports and SAs,
rings); all others are 0.
DESIGN CHOICE, unsafe (notes/assumptions/3.md). -/
def entryReset (p tab idx : Nat) : Nat :=
  match pageRow p with
  | some (r, _, _) =>
    match r.blk, tab with
    | .gptp, 0 => En.GPORT_rst
    | .pipe, 0 => En.PPORT_rst
    | .fdb, 1 => if idx = 1 then 1 + 2 + 16 + (2 ^ 36 - 1) * 2 ^ 16 + (2 ^ 36 - 1) * 2 ^ 52 else 0
    | .fdb, 3 => En.LPORT_rst
    | .egr, 0 => En.EPORT_rst
    | .egr, 3 => En.GLP_rst
    | .egr, 6 => En.RECF_rst
    | .trn, 0 => En.ETAP_rst
    | .nm, 0 => En.NMCH_rst
    | .msec, 3 => En.MPORT_rst
    | .msec, 5 => En.SA_rst
    | .hdom, _ => En.RING_rst
    | _, _ => 0
  | none => 0

/-- An entry of a window table.
DESIGN CHOICE, safe (notes/assumptions/4.md). -/
def State.ent (s : State) (p tab bank idx : Nat) : Entry :=
  smGet (BitVec.ofNat 256 (entryReset p tab idx)) (tkey p tab bank idx) s.tabs

/-- Store an entry of a window table. -/
def State.setEnt (s : State) (p tab bank idx : Nat) (e : Entry) : State :=
  { s with tabs := smSet (BitVec.ofNat 256 (entryReset p tab idx)) (tkey p tab bank idx) e s.tabs }

/-- Change one field of an entry. -/
def State.setEntF (s : State) (p tab bank idx : Nat) (f : Fld) (x : Nat) : State :=
  s.setEnt p tab bank idx (fput (s.ent p tab bank idx) f x)

/-- A field of an entry. -/
def State.entF (s : State) (p tab bank idx : Nat) (f : Fld) : Nat := fget (s.ent p tab bank idx) f

/-- The listed entries of a table with their indices, rising: every other entry holds its reset value. -/
def State.tabList (s : State) (p tab bank : Nat) : List (Nat × Entry) :=
  let lo := tkey p tab bank 0
  (s.tabs.filter fun x => lo ≤ x.1 && x.1 < lo + 2 ^ 24).map fun x => (x.1 - lo, x.2)

/-- Bytes `32 h` onward of data tables: byte j of an entry sits in bits [8j+7:8j] (R115). -/
def bytesToEntry (bs : List Nat) : Entry := BitVec.ofNat 256 (leNat (fitTo 0 32 bs))

/-- The 32 bytes of an entry. -/
def entryToBytes (e : Entry) : List Nat := leBytes 32 e.toNat

/-! ### Interrupts -/

/-- The host domain structures. -/
def State.dom (s : State) (d : Nat) : Dom := smGet {} d s.doms

def State.setDom (s : State) (d : Nat) (x : Dom) : State := { s with doms := smSet {} d x s.doms }

/-- The page requests an interrupt (R32). -/
def State.requests (s : State) (p : Nat) : Bool :=
  s.rd p Reg.IRQ_STAT &&& s.rd p Reg.IRQ_EN ≠ 0 && s.flag p Fd.IRQ_ROUTE_EN

/-- The page requests an interrupt on vector `v` of domain `d`. -/
def State.requestsTo (s : State) (p d v : Nat) : Bool :=
  s.requests p && s.fld p Fd.IRQ_ROUTE_DOMAIN = d && s.fld p Fd.IRQ_ROUTE_VECTOR = v

/-- Vector `v` of domain `d` is pending (R425). -/
def State.vecPending (s : State) (d v : Nat) : Bool :=
  (s.dom d).latch.testBit v || headerPages.any fun p => s.requestsTo p d v

/-- HDOM_VEC_PEND of a domain (R425). -/
def State.vecPend (s : State) (d : Nat) : Nat :=
  ((List.range 32).filter fun v => s.vecPending d v).foldl (fun x v => x + 2 ^ v) 0

/-- A pending vector of D0 to D3 sends its message when armed, unmasked and its MSI-X entry is unmasked; an entry that
masks it sets the PBA bit (R426). D4 and D5 drive a pin, which is read from the state (R427). -/
def State.deliver (s : State) (d v : Nat) : State :=
  let D := s.dom d
  if d < 4 && v < 32 && D.armed.testBit v && !(s.rd (pHDOM d) Reg.HDOM_VEC_MASK).testBit v && D.msixEn then
    if D.msixMask.testBit v then s.setDom d { D with pba := D.pba ||| 2 ^ v }
    else ((s.setDom d { D with armed := D.armed ^^^ 2 ^ v, pba := D.pba &&& (2 ^ 32 - 1 - 2 ^ v) }).inc
      (pHDOM d) Cn.HDOM_MSGS).emit (.msix d v)
  else s

/-- A page whose request may have risen delivers to its vector. -/
def State.notify (s : State) (p : Nat) : State :=
  if s.requests p then s.deliver (s.fld p Fd.IRQ_ROUTE_DOMAIN) (s.fld p Fd.IRQ_ROUTE_VECTOR) else s

/-- A rising edge of source bit `b` of page `p` latches in IRQ_STAT (R32). -/
def State.raise (s : State) (p b : Nat) : State :=
  (s.wr p Reg.IRQ_STAT (s.rd p Reg.IRQ_STAT ||| 2 ^ b)).notify p

/-- SPIA_INT_N or SPIB_INT_N is driven low: an unmasked vector of D4 or D5 is pending (R427), the domain's device being in
Clause after READY (R499, R525). -/
def State.spiInt (s : State) (d : Nat) : Bool :=
  s.boot = .ready && s.pwr ≠ .comma && s.vecPend d &&& (2 ^ 32 - 1 - s.rd (pHDOM d) Reg.HDOM_VEC_MASK) ≠ 0

/-! ### Errors -/

/-- Latch the first error of a page; a later one sets OVERRUN (R37). -/
def State.latch (s : State) (r : Report) : State :=
  if s.flag r.page Fd.ERR_VALID then s.setFlag r.page Fd.ERR_OVERRUN true
  else
    let s := s.wr r.page Reg.ERR_CODE (2 ^ 31 + r.src % 8 * 65536 + r.code % 65536)
    (s.wr64 r.page Reg.ERR_STAMP_LO r.stamp).raise r.page 31

/-- A report enters its page's buffer of 8 reports, or is lost and counted in REPORT_LOST (R505).
DESIGN CHOICE, safe (notes/assumptions/13.md). -/
def State.pushReport (s : State) (r : Report) : State :=
  if (s.reports.filter fun x => x.page = r.page).length < 8 then
    { s with reports := s.reports ++ [{ r with lost := s.lostPages.contains r.page }],
             lostPages := s.lostPages.filter (· ≠ r.page) }
  else { s.inc pLOG Cn.LOG_REPORT_LOST with lostPages := if s.lostPages.contains r.page then s.lostPages else r.page :: s.lostPages }

/-- An error is latched in its reporting page and reported to the fault log (R37, R38, R505). -/
def State.report (s : State) (r : Report) : State :=
  let fresh := !(s.flag r.page Fd.ERR_VALID)
  (s.latch r).pushReport { r with latched := fresh }

/-- An error detected now on page `p`, caused by domain `src` (7 for internal errors). -/
def State.errBy (s : State) (src p code arg0 arg1 : Nat) : State :=
  s.report ⟨p, code, src, s.now, s.nowFrac, arg0, arg1, s.coarse, false, false⟩

/-- An internal error detected now.
DEDUCED, unsafe (notes/assumptions/23.md). -/
def State.err (s : State) (p code arg0 : Nat) : State := s.errBy 7 p code arg0 0

/-- An internal error stamped with a boundary or an earlier event (R505, R506). -/
def State.errAt (s : State) (p code arg0 arg1 stamp : Nat) : State :=
  s.report ⟨p, code, 7, stamp, 0, arg0, arg1, s.coarse, false, false⟩

/-- A condition logged once per run (R558): the first occurrence at its place is reported and opens the run. -/
def State.errRun (s : State) (p code place arg0 : Nat) : State :=
  if s.runs.contains (p, code, place) then s else { s with runs := (p, code, place) :: s.runs }.err p code arg0

/-- The same, with a second argument and a stamp. -/
def State.errRunAt (s : State) (p code place arg0 arg1 stamp : Nat) : State :=
  if s.runs.contains (p, code, place) then s
  else { s with runs := (p, code, place) :: s.runs }.errAt p code arg0 arg1 stamp

/-- The opposite outcome at the place ends the run (R558). -/
def State.endRun (s : State) (p code place : Nat) : State :=
  { s with runs := s.runs.filter (· ≠ (p, code, place)) }

/-- An uncorrectable error of a table memory: counted, raised, logged once per location until it is rewritten, its location
latched while VALID = 0 (R514). `loc` is the block's ECC_LOC register: VALID, table and index fields.
DESIGN CHOICE, safe (notes/assumptions/12.md). -/
def State.eccUncorr (s : State) (p cnt bit code : Nat) (loc : Fld × Fld × Fld) (tab idx : Nat) : State :=
  let s := (s.inc p cnt).raise p bit
  let s := if s.eccSeen.contains (p, tab, idx) then s
    else { s with eccSeen := (p, tab, idx) :: s.eccSeen }.errBy 7 p code tab idx
  if s.flag p loc.1 then s else ((s.setFlag p loc.1 true).setFld p loc.2.1 tab).setFld p loc.2.2 idx

/-! ### Word queues (R96 to R99) -/

/-- The words available (LEVEL). -/
def WordQ.level (q : WordQ) : Nat := q.a.length + q.b.length

/-- The bank the next item of `n` words goes to: 0 the bank being written now, 1 the other bank, none when neither has
room. -/
def WordQ.room (q : WordQ) (n : Nat) : Option Nat :=
  if q.wrB then
    if q.bUsed + n ≤ 64 then some 0 else if q.a.isEmpty && n ≤ 64 then some 1 else none
  else if q.aUsed + n ≤ 64 then some 0 else if n ≤ 64 then some 1 else none

/-- Write an item whole into one bank. A reader that has drained its bank follows the writer to the other one. -/
def WordQ.put (q : WordQ) (ws : List Nat) : WordQ :=
  let n := ws.length
  match q.room n with
  | none => { q with drop := true }
  | some 0 =>
    if q.wrB then { q with b := q.b ++ ws, bUsed := q.bUsed + n, drop := false }
    else { q with a := q.a ++ ws, aUsed := q.aUsed + n, drop := false }
  | some _ =>
    if q.wrB then { a := q.b, aUsed := q.bUsed, b := ws, bUsed := n, wrB := true, drop := false }
    else if q.a.isEmpty then { a := ws, aUsed := n, b := [], bUsed := 0, wrB := false, drop := false }
    else { q with b := ws, bUsed := n, wrB := true, drop := false }

/-- Pop one word: none at an empty queue. -/
def WordQ.pop (q : WordQ) : Option (Nat × WordQ) :=
  match q.a with
  | w :: a =>
    if a.isEmpty && q.wrB then some (w, { q with a := q.b, aUsed := q.bUsed, b := [], bUsed := 0, wrB := false })
    else some (w, { q with a := a })
  | [] => none

def State.wq (s : State) (k : Nat) : WordQ := smGet {} k s.wqs

def State.setWq (s : State) (k : Nat) (q : WordQ) : State := { s with wqs := smSet {} k q s.wqs }

/-- Where a word queue reports: its page, LEVEL field, and the interrupt bits AVAIL, DROP and QPTR, the drop counter,
the drop code (0: none is logged) and the instance that ARG0 names. -/
structure WqAt where
  page : Nat
  level : Fld
  avail : Nat
  dropBit : Nat
  qptr : Nat
  dropCnt : Nat
  dropCode : Nat
  inst : Nat
deriving DecidableEq, Repr

/-- The word queues of the device (R513). -/
def wqAt (k : Nat) : WqAt :=
  if k < 24 then
    ⟨pCANC k, Fd.CANC_RXQ_STAT_LEVEL, Iq.CANC_RXQ_AVAIL, Iq.CANC_RXQ_DROP, Iq.CANC_QPTR, Cn.CANC_RXQ_DROP, Er.CAN_RXQ_DROP, k⟩
  else if k < 32 then
    ⟨pLINC (k - 24), Fd.LINC_RXQ_STAT_LEVEL, Iq.LINC_RXQ_AVAIL, Iq.LINC_RXQ_DROP, Iq.LINC_QPTR, Cn.LINC_RXQ_DROP, Er.LIN_RXQ_DROP, k - 24⟩
  else if k < 36 then
    ⟨pSER (k - 32), Fd.SER_RXQ_STAT_LEVEL, Iq.SER_RXQ_AVAIL, Iq.SER_RXQ_DROP, Iq.SER_QPTR, Cn.SER_RXQ_DROP, Er.SER_RXQ_DROP, k - 32⟩
  else if k = 36 then
    ⟨pSRT, Fd.SRT_EVQ_STAT_LEVEL, Iq.SRT_EVQ_AVAIL, Iq.SRT_EVQ_DROP, Iq.SRT_QPTR, Cn.SRT_EVQ_DROP, Er.SRT_EVQ_DROP, 0⟩
  else
    ⟨pLOG, Fd.LOG_FIFO_STAT_LEVEL, Iq.LOG_FIFO_AVAIL, Iq.LOG_FIFO_DROP, Iq.LOG_QPTR, Cn.LOG_FIFO_DROP, 0, 0⟩

/-- Write one item into word queue `k`. `ws` has DROP = 0; the queue sets bit 29 of the first word when items were lost
(R98). A dropped item is counted, raised, and logged once per run where the chapter logs it. -/
def State.wqPut (s : State) (k : Nat) (ws : List Nat) : State :=
  let q := s.wq k
  let x := wqAt k
  match q.room ws.length with
  | some _ =>
    let ws := match ws with
      | w :: r => (if q.drop then w ||| 2 ^ 29 else w) :: r
      | [] => []
    let q' := q.put ws
    let s := (s.setWq k q').setFld x.page x.level q'.level
    let s := s.endRun x.page x.dropCode 0
    if q.level = 0 then s.raise x.page x.avail else s
  | none =>
    let s := (s.setWq k { q with drop := true }).inc x.page x.dropCnt
    let s := s.raise x.page x.dropBit
    if x.dropCode = 0 then s else s.errRun x.page x.dropCode 0 x.inst

/-- The duplicate pointers disagree: the queue is emptied, QPTR_MISMATCH is logged and raised, and the next item carries
DROP = 1 (R99, R513). -/
def State.wqBroken (s : State) (k : Nat) : State :=
  let x := wqAt k
  let s := (s.setWq k { drop := true }).setFld x.page x.level 0
  (s.raise x.page x.qptr).err x.page Er.QPTR_MISMATCH x.inst

/-! ### Ownership and the judgement of a write (R34, R555) -/

/-- The world of a domain: secure (D7, or HDOM_STATE.WORLD = 1). -/
def State.secure (s : State) (d : Nat) : Bool := d = 7 || (d < 6 && s.flag (pHDOM d) Fd.HDOM_STATE_WORLD)

/-- Domain `d` owns page `p`. -/
def State.owns (s : State) (d p : Nat) : Bool := !(s.flag p Fd.OWNER_UNOWNED) && s.fld p Fd.OWNER_DOMAIN = d

/-- The owner domain of a page, or 7 when it has none (internal). -/
def State.ownerOf (s : State) (p : Nat) : Nat := if s.flag p Fd.OWNER_UNOWNED then 7 else s.fld p Fd.OWNER_DOMAIN

/-- The domain is RESETTING (R440). -/
def State.resetting (s : State) (d : Nat) : Bool := d < 6 && s.fld (pHDOM d) Fd.HDOM_STATE_STATE = 1

/-- The Bracket that guards page `p`, if a BRK_GUARD binds one (R437). -/
def State.guardOf (s : State) (p : Nat) : Option (Nat × Nat) :=
  (List.range 64).findSome? fun n =>
    if s.flag pBRK (Fd.BRK_GUARD_EN.at 4 n) && s.fld pBRK (Fd.BRK_GUARD_PAGE.at 4 n) = p then
      some (n, s.fld pBRK (Fd.BRK_GUARD_SCOPE.at 4 n))
    else none

/-- Domain `d` holds Bracket `n` without a broken grant (R436). -/
def State.holdsBracket (s : State) (d n : Nat) : Bool :=
  s.fld pBRK (Fd.BRK_LOCK_STATE.at 4 n) = 1 && s.fld pBRK (Fd.BRK_LOCK_HOLDER.at 4 n) = d
    && !(s.flag pBRK (Fd.BRK_LOCK_BROKEN_GRANT.at 4 n))

/-- The write lies in the bound scope of a guard (R437): SCOPE 0 the commit path, SCOPE 1 the page but for the owner,
error-clear, IRQ_STAT and CNT_CTRL writes. -/
def State.inScope (s : State) (p off v scope : Nat) : Bool :=
  if scope = 0 then
    (off = Reg.CTRL && v.testBit 3) || (off = Reg.WIN_CMD && s.flag p Fd.WIN_BANK) || (p = pEGR && off = Reg.EGR_GCL_CMD)
  else
    !(off = Reg.OWNER || off = Reg.ERR_CODE || off = Reg.IRQ_STAT || off = Reg.CNT_CTRL)

/-- A W1C of xxx_ERR_CODE.VALID by a domain of the owner's world, or by any domain while the page is unowned (R34). -/
def State.mayClearErr (s : State) (d p : Nat) : Bool :=
  s.flag p Fd.OWNER_UNOWNED || s.secure d = s.secure (s.fld p Fd.OWNER_DOMAIN)

/-- Checks 1 to 6 of R555: the code that refuses a write of `bits` bits by domain `d` at address `a`, or none. A BRK_LOCK
operation is judged by BRK_ALLOW instead of by ownership (R435).
DEDUCED, safe (notes/assumptions/17.md). -/
def State.judge (s : State) (d a bits v : Nat) : Option Nat :=
  let p := a / 4096
  let off := a % 4096
  let isLock := p = pBRK && Reg.BRK_LOCK ≤ off && off < Reg.BRK_LOCK + 256
  let isOwner := off = Reg.OWNER
  let isErr := off = Reg.ERR_CODE && v.testBit 31 && s.mayClearErr d p
  if bits < 32 || a % 4 ≠ 0 then some Er.REG_SIZE
  else if unmapped p then some Er.REG_UNMAPPED
  else if s.resetting d then some Er.REG_BUSY
  else if inMramWindow p then none
  else if !(isOwner || isLock || isErr || (s.owns d p && !(s.flag p Fd.OWNER_ORPHANED))) then some Er.REG_NOT_OWNER
  else if !isOwner && s.resets.contains p then some Er.REG_BUSY
  else
    match s.guardOf p with
    | some (n, scope) =>
      if s.inScope p off v scope && !(s.holdsBracket d n) then some Er.REG_NO_BRACKET else none
    | none => none

/-- The page a refused write is latched in: GLB for unmapped space (R38, R41), the MRAM control page for the data window,
the page addressed otherwise. -/
def refusePage (a : Nat) : Nat :=
  let p := a / 4096
  if unmapped p then pGLB else if inMramWindow p then pMRAM else p

/-- The number that a page's own codes name: channel, line, port or database, the instance of the page. -/
def pageInst (p : Nat) : Nat := match pageRow p with | some (_, i, _) => i | none => 0

/-- Refuse a register access of domain `d`: the code is latched, and logged with the value and the offset within the page that
reports it, which for unmapped space is GLB at 0; window codes carry WIN_ADDR, and a block's own codes the instance
(R38, R506).
DEDUCED, unsafe (notes/assumptions/23.md). -/
def State.refuse (s : State) (d a v code : Nat) : State :=
  let p := refusePage a
  if code ≤ Er.REG_BUSY then s.errBy d p code (a - p * 4096) v
  else if code ≤ Er.WIN_ECC then s.errBy d p code (a % 4096) (s.rd p Reg.WIN_ADDR)
  else s.errBy d p code (pageInst p) v

/-- Carry out a write of domain `d` if it passes checks 1 to 6 of R555. -/
def State.judged (s : State) (d a bits v : Nat) (f : State → State) : State :=
  match s.judge d a bits v with
  | some c => s.refuse d a v c
  | none => f s

/-- The stored value after an accepted write of a register word: RW bits take the value, W1C bits clear, W1S bits set
(R6). -/
def mergeWrite (r : RegDef) (old : Word) (v : Nat) : Word :=
  let v := BitVec.ofNat 32 v
  let rw := BitVec.ofNat 32 r.rw
  ((old &&& ~~~rw) ||| (v &&& rw)) &&& ~~~(v &&& BitVec.ofNat 32 r.w1c)

/-- Store an accepted write of a register with no action of its own; a reserved offset ignores it (R28). -/
def State.store (s : State) (a v : Nat) : State :=
  match regDef a with
  | some r => s.setReg a (mergeWrite r (s.reg a) v)
  | none => s

end Sys2Proof.Machine
end

