-- ==== Sys2Proof/Machine/Tables.lean ====
section
/-!
DEFINITION. The window tables of every block: which indices each table has, which operations it accepts, which bits are
valid bits, which tables are banked, and the ordered judgement of a window command (R43, R46).
-/

namespace Sys2Proof.Machine

/-- The switch ports of pipeline or database 0 (A) and 1 (B) (Table 5 of the architecture chapter). -/
def portOfSide (side port : Nat) : Bool :=
  if side = 0 then port ≤ 11 || port = 32 || port = 33 || port = 35 else (12 ≤ port && port ≤ 31) || port = 34

/-- The indices of table `tab` of page `p`, or none where the page has no such table. -/
def State.tabHas (s : State) (p tab : Nat) : Option (Nat → Bool) :=
  match pageRow p with
  | none => none
  | some (r, i, k) =>
    match r.blk, tab with
    | .time, 0 => some (· < 1024)
    | .gptp, 0 => some (· < 24)
    | .gptp, 1 => some fun x => x < 128 && x % 32 < 24
    | .canc, 0 => some (· < s.fld p Fd.CANC_OBJ_RANGE_COUNT)
    | .canc, 1 => some (· < 2 * s.fld p Fd.CANC_OBJ_RANGE_COUNT)
    | .canc, 2 => some (· < 3)
    | .canc, 3 => some (· < 192)
    | .canc, 4 => some (· < 8)
    | .linc, 0 | .linc, 1 | .linc, 2 => some (· < 64)
    | .ser, 0 => some (· < 32)
    | .srt, 0 | .srt, 1 | .srt, 4 => some (· < 8192)
    | .srt, 2 => some (· < 24576)
    | .srt, 3 => some (· < 4096)
    | .srt, 5 | .srt, 6 => some (· < 64)
    | .pipe, 0 => some (portOfSide i)
    | .pipe, 1 => some (· < 16)
    | .pipe, 2 | .pipe, 3 | .pipe, 8 => some (· < 2048)
    | .pipe, 4 | .pipe, 5 | .pipe, 6 | .pipe, 7 => some (· < 1024)
    | .fdb, 0 => some (· < 16448)
    | .fdb, 1 => some fun x => 1 ≤ x && x ≤ 4094
    | .fdb, 2 => some (· < 4096)
    | .fdb, 3 => some (portOfSide i)
    | .swc, 0 => some (· < 37)
    | .swc, 1 => some (· < 289)
    | .egr, 0 => some (· < 36)
    | .egr, 1 => some (· < 288)
    | .egr, 2 => some (· < 8192)
    | .egr, 3 => some (· < 32)
    | .egr, 4 => some (· < 2048)
    | .egr, 5 => some (· < 256)
    | .egr, 6 | .egr, 7 => some (· < 512)
    | .trn, 0 => some (· < 32)
    | .trn, 1 => some (· < s.fld p Fd.TRN_RING_SEGS)
    | .trn, 2 => some (· < 4)
    | .nm, 0 => some (· < 24)
    | .nm, 1 => some (· < 384)
    | .key, 0 => some (· < 256)
    | .key, 1 => some (· < 2)
    | .key, 2 => some (· < 5)
    | .key, 3 => some (· < 2)
    | .msec, 0 => if k = 0 then some (· < 256) else none
    | .msec, 1 => if k = 0 then some (· < 4096) else none
    | .msec, 2 => if k = 0 then some (· < 256) else none
    | .msec, 3 => if k = 0 then some (· < 24) else none
    | .msec, 4 => some (· < 16)
    | .msec, 5 | .msec, 6 => some (· < 64)
    | .hdom, 0 | .hdom, 1 => some (· < 4)
    | .log, 0 => some (· < 1024)
    | .otp, 0 => some (· < 4096)
    | _, _ => none

/-- The operations a table accepts: 1 READ, 2 WRITE, 3 INVALIDATE, 4 FILL, 5 COPY, and the block-specific codes. -/
def tabOps (p tab : Nat) : List Nat :=
  match blkOf p with
  | none => []
  | some b =>
    match b, tab with
    | .time, _ | .log, _ | .otp, _ => [1]
    | .gptp, 0 => [1, 2, 4]
    | .gptp, _ => [1, 2, 3, 4]
    | .canc, 0 => [1, 2, 3, 4, 8]
    | .canc, 2 | .canc, 4 => [1, 2, 3, 4]
    | .canc, _ => [1, 2, 4]
    | .linc, _ => [1, 2, 3, 4]
    | .ser, _ => [1, 2, 4]
    | .srt, 0 | .srt, 1 | .srt, 2 => [1, 2, 3, 4, 5]
    | .srt, 3 => [1, 2, 4]
    | .srt, 4 => [1]
    | .srt, _ => [1, 2, 3]
    | .pipe, 0 => [1, 2, 4]
    | .pipe, 1 | .pipe, 2 | .pipe, 4 | .pipe, 5 => [1, 2, 3, 4, 5]
    | .pipe, 3 => [1, 2, 4, 5]
    | .pipe, 6 | .pipe, 7 => [1, 2, 8]
    | .pipe, _ => [1, 8]
    | .fdb, 0 => [1, 8, 9, 10, 11, 12, 13, 14]
    | .fdb, 1 | .fdb, 2 => [1, 2, 3, 4]
    | .fdb, _ => [1, 2, 4]
    | .swc, 0 => [1, 2, 4]
    | .swc, _ => [1, 8]
    | .egr, 0 | .egr, 1 => [1, 2, 4]
    | .egr, 2 | .egr, 3 => [1, 2, 4, 5]
    | .egr, 4 | .egr, 5 | .egr, 6 => [1, 2, 3, 4]
    | .egr, _ => [1, 8]
    | .trn, 0 => [1, 2, 4]
    | .trn, 1 => [1, 8, 9]
    | .trn, _ => [1]
    | .nm, 0 => [1, 2, 4]
    | .nm, _ => [1, 4]
    | .key, 1 => [1, 2, 4]
    | .key, _ => [1]
    | .msec, 0 | .msec, 4 | .msec, 5 => [1, 2, 3, 4]
    | .msec, 1 | .msec, 3 => [1, 2, 4]
    | .msec, _ => [1, 8]
    | .hdom, _ => [1, 2, 3]
    | _, _ => []

/-- The block-specific OP codes a block defines (R43). -/
def blockOps (p : Nat) : List Nat :=
  match blkOf p with
  | some .fdb => [8, 9, 10, 11, 12, 13, 14]
  | some .trn => [8, 9]
  | some .canc | some .pipe | some .swc | some .egr | some .msec => [8]
  | _ => []

/-- Tables with an active and a standby bank; the gate lists are banked per port (R318). -/
def tabBanked (p tab : Nat) : Bool :=
  match blkOf p, tab with
  | some .srt, 0 | some .srt, 1 | some .srt, 2 => true
  | some .pipe, 1 | some .pipe, 2 | some .pipe, 3 | some .pipe, 4 | some .pipe, 5 => true
  | some .fdb, 0 => true
  | some .egr, 2 | some .egr, 3 => true
  | _, _ => false

/-- The valid bits of an entry: bit 0, but for the four slots of a destination entry (R175). -/
def validBits (p tab : Nat) : Nat :=
  match blkOf p, tab with
  | some .srt, 1 => 1 + 2 ^ 64 + 2 ^ 128 + 2 ^ 192
  | _, _ => 1

/-- The active bank of a banked block. -/
def State.bankOf (s : State) (p : Nat) : Nat :=
  match blkOf p with
  | some .srt => s.fld p Fd.SRT_GEN_BANK
  | some .pipe => s.fld p Fd.PIPE_GEN_BANK
  | some .fdb => s.fld p Fd.FDB_GEN_BANK
  | _ => 0

/-- The bank that the window's BANK bit selects: 0 the active one (for the gate lists: the operational one, kept as bank
0), 1 the other; 0 for a table that is not banked. -/
def State.winBank (s : State) (p tab : Nat) : Nat :=
  if !(tabBanked p tab) then 0
  else if s.fld p Fd.WIN_BANK = 0 then s.bankOf p else 1 - s.bankOf p

/-- DATA0 to DATA7 as one entry. -/
def State.winData (s : State) (p : Nat) : Entry :=
  BitVec.ofNat 256 ((List.range 8).foldr (fun k x => s.rd p (Reg.WIN_DATA + 4 * k) + 2 ^ 32 * x) 0)

/-- Put an entry into DATA0 to DATA7. -/
def State.setWinData (s : State) (p : Nat) (e : Entry) : State :=
  foldN 8 (fun k s => s.wr p (Reg.WIN_DATA + 4 * k) (bitsOf e (32 * k) 32)) s

/-- Checks 1 to 6 of R46 on a command of OP `op` with COUNT `cnt` at page `p`. -/
def State.winCheck (s : State) (p op cnt : Nat) : Option Nat :=
  let tab := s.fld p Fd.WIN_TABLE
  let idx := s.fld p Fd.WIN_INDEX
  let last := idx + max cnt 1 - 1
  let standby := tabBanked p tab && (s.fld p Fd.WIN_BANK = 1)
  if op = 0 || op = 6 || op = 7 || (8 ≤ op && !((blockOps p).contains op)) then some Er.WIN_BAD_OP
  else
    match s.tabHas p tab with
    | none => some Er.WIN_RANGE
    | some has =>
      if !((tabOps p tab).contains op) then some Er.WIN_BAD_OP
      else if !(has idx) || ((op = 4 || op = 5) && !((List.range (last + 1 - idx)).all fun k => has (idx + k))) then
        some Er.WIN_RANGE
      else if (op = 4 || op = 5) && tabBanked p tab && !standby && !(op = 5 && p = pEGR) then some Er.WIN_BAD_OP
      else if op = 2 && p = pEGR && tabBanked p tab && !standby then some Er.WIN_BAD_OP
      else if standby && (op = 2 || op = 3 || op = 4 || op = 5) && s.flag p Fd.STATUS_DRAINING then some Er.WIN_BANK_DRAINING
      else none

/-- A command is refused: ERROR, ERR, the latch and the log; no entry is touched (R46). The arguments of the log entry follow
R506: `v` is the word written, `ix` the primary index of a code of the block.
DEDUCED, unsafe (notes/assumptions/23.md). -/
def State.winFail (s : State) (d p v code ix : Nat) : State :=
  let s := (s.setFlag p Fd.WIN_ERROR true).setFld p Fd.WIN_ERR code
  if code ≤ Er.REG_BUSY then s.errBy d p code Reg.WIN_CMD v
  else if code ≤ Er.WIN_ECC then s.errBy d p code Reg.WIN_CMD (s.rd p Reg.WIN_ADDR)
  else s.errBy d p code ix v

/-- A command of domain `d` starts: BUSY until WIN_CMD_DONE, which will report `err` (0: success). -/
def State.winStart (s : State) (d p err : Nat) : State :=
  { s.setFlag p Fd.WIN_BUSY true with wins := s.wins ++ [⟨p, d, err⟩] }

/-- Write the word `v` (OP [3:0], COUNT [31:16]) to WIN_CMD of page `p`, by domain `d`: R555, then WIN_BUSY, then the checks of R46, then
the block's own entry check `chk` (a code and its index); when all pass the command's effect `f` is made, and it runs to end
with the code that `f` answers.
DEDUCED, unsafe (notes/assumptions/21.md). -/
def State.winRun (s : State) (d p v : Nat) (chk : State → Option (Nat × Nat)) (f : State → Nat × State) : State :=
  s.judged d (p * 4096 + Reg.WIN_CMD) 32 v fun s =>
    if !(hasWindow p) then s
    else if s.flag p Fd.WIN_BUSY then s.errBy d p Er.WIN_BUSY Reg.WIN_CMD (s.rd p Reg.WIN_ADDR)
    else
      match s.winCheck p (v % 16) (v / 65536) with
      | some c => s.winFail d p v c 0
      | none =>
        match chk s with
        | some (c, ix) => s.winFail d p v c ix
        | none => let r := f s; r.2.winStart d p r.1

/-- A command whose own check answers register codes, and that cannot fail once it runs. -/
def State.winCmd (s : State) (d p v : Nat) (chk : State → Option Nat) (f : State → State) : State :=
  s.winRun d p v (fun s => (chk s).map fun c => (c, 0)) fun s => (0, f s)

end Sys2Proof.Machine
end

