-- ==== Sys2Proof/Machine/Transcript.lean ====
section
/-!
DEFINITION. Transcript and Quotation (R319 to R346): taps and records, the ring and its segments, Quotation triggers and
entries, the capsule copier and the MRAM control page, and the meanings of their commands.
-/

namespace Sys2Proof.Machine

/-! ### Byte memories -/

/-- The canonical form of a byte memory: addresses strictly rising, no entry equal to the 0 that an unlisted address reads as. -/
def Memory.wf (m : List Host.Cell) : Bool := smWf (fun _ => (0 : Byte)) m

/-- A byte of MRAM at an offset in the data window.
DESIGN CHOICE, unsafe (notes/assumptions/8.md). -/
def State.mramByte (s : State) (o : Nat) : Nat := (smGet (0 : Byte) o s.mram).toNat

/-- Write bytes to MRAM from an offset upward. -/
def State.mramPut (s : State) (o : Nat) (bs : List Nat) : State :=
  { s with mram := ((List.range bs.length).zip bs).foldl (fun m x => smSet (0 : Byte) (o + x.1) (BitVec.ofNat 8 x.2) m) s.mram }

/-- Bytes of MRAM from an offset upward. -/
def State.mramBytes (s : State) (o n : Nat) : List Nat := (List.range n).map fun k => s.mramByte (o + k)

/-- A byte of external memory.
DESIGN CHOICE, unsafe (notes/assumptions/8.md). -/
def State.dramByte (s : State) (a : Nat) : Nat := (smGet (0 : Byte) a s.dram).toNat

/-- Write bytes to external memory. -/
def State.dramPut (s : State) (a : Nat) (bs : List Nat) : State :=
  { s with dram := ((List.range bs.length).zip bs).foldl (fun m x => smSet (0 : Byte) (a + x.1) (BitVec.ofNat 8 x.2) m) s.dram }

/-! ### Records -/

/-- The bytes a record takes: header and payload padded to a multiple of 16 (R319). -/
def recSize (r : Rec) : Nat := 16 + (r.payload.length + 15) / 16 * 16

/-- The bytes of a record (Table 1).
DEDUCED, unsafe (notes/assumptions/66.md). -/
def recBytes (r : Rec) : List Nat :=
  leBytes 8 r.stamp ++ [r.typ, r.idx] ++ leBytes 2 r.payload.length ++ leBytes 2 r.flags ++ leBytes 2 r.seq
    ++ fitTo 0 ((r.payload.length + 15) / 16 * 16) r.payload

/-- The bytes waiting in an input buffer. -/
def bufSize (l : List Rec) : Nat := (l.map recSize).foldl (· + ·) 0

/-- The FLAGS bit COARSE of a record taken now (Table 3). -/
def State.coarseBit (s : State) : Nat := b2n s.coarse

/-- Change the Transcript's own state. -/
def State.setTrn (s : State) (t : Trn) : State := { s with trn := t }

/-- A record of tap `key` is lost: its run grows (R327). -/
def Trn.lose (t : Trn) (key stamp : Nat) : Trn :=
  let l := smGet {} key t.lost
  let l' : LostRun := ⟨min (l.n + 1) (2 ^ 32 - 1), if l.n = 0 then stamp else l.first, stamp⟩
  { t with lost := smSet {} key l' t.lost }

/-- The payload of a GAP record (R327). -/
def gapPayload (typ : Nat) (l : LostRun) : List Nat := [typ, 0, 0, 0] ++ leBytes 4 l.n ++ leBytes 8 l.first ++ leBytes 8 l.last

/-- A record lost because its buffer, or the ring, has no room (R326, R330). -/
def State.recOverflow (s : State) (high : Bool) (key stamp : Nat) : State :=
  let s := s.setTrn (s.trn.lose key stamp)
  let s := s.inc pTRN (if high then Cn.TRN_LOST_HIGH else Cn.TRN_LOST_LOW)
  (s.raise pTRN Iq.TRN_OVERFLOW).errRun pTRN Er.TRN_OVERFLOW key 0

/-- A tap generates a record: numbered, then lost while the tap is suspended or its buffer is full, else queued behind a
GAP record when records were lost before it (R320, R326, R327, R330). The GAP record takes a SEQ of its own.
DESIGN CHOICE, safe (notes/assumptions/13.md). DEDUCED, unsafe (notes/assumptions/66.md). -/
def State.tap (s : State) (high : Bool) (typ idx stamp flags : Nat) (payload : List Nat) : State :=
  let key := typ * 256 + idx
  let closed := match s.trn.pf with
    | some P => P < stamp
    | none => false
  if !(s.enabled pTRN) || closed then s
  else
    let seq := smGet 0 key s.trn.seqs
    let l := smGet {} key s.trn.lost
    if s.flag pTRN (if high then Fd.TRN_STATE_HI_SUSP else Fd.TRN_STATE_LO_SUSP) then
      s.setTrn ({ s.trn with seqs := smSet 0 key ((seq + 1) % 65536) s.trn.seqs }.lose key stamp)
    else
      let gap := if l.n = 0 then [] else [⟨high, stamp, 0x3F, idx, flags % 2, seq, gapPayload typ l⟩]
      let seq' := if l.n = 0 then seq else (seq + 1) % 65536
      let new := gap ++ [⟨high, stamp, typ, idx, flags + (if l.n = 0 then 0 else 32), seq', payload⟩]
      let buf := if high then s.trn.high else s.trn.low
      if bufSize buf + bufSize new ≤ (if high then 262144 else 65536) then
        let t := { s.trn with seqs := smSet 0 key ((seq' + 1) % 65536) s.trn.seqs, lost := smSet {} key {} s.trn.lost }
        (s.setTrn (if high then { t with high := buf ++ new } else { t with low := buf ++ new })).endRun pTRN Er.TRN_OVERFLOW key
      else
        (s.setTrn { s.trn with seqs := smSet 0 key ((seq + 1) % 65536) s.trn.seqs }).recOverflow high key stamp

/-- A copy block of a disagreement record (R323). -/
def copyBlock (stamp ch : Nat) (bytes : List Nat) : List Nat :=
  leBytes 8 stamp ++ [ch, 0] ++ leBytes 2 bytes.length ++ [0, 0, 0, 0] ++ fitTo 0 ((bytes.length + 15) / 16 * 16) bytes

/-! ### The ring -/

/-- Fields of a segment's directory entry (TABLE 1). -/
def State.segF (s : State) (i : Nat) (f : Fld) : Nat := s.entF pTRN 1 0 i f

def State.setSegF (s : State) (i : Nat) (f : Fld) (x : Nat) : State := s.setEntF pTRN 1 0 i f x

def State.seg (s : State) (i : Nat) : Seg := smGet {} i s.trn.segs

def State.setSeg (s : State) (i : Nat) (g : Seg) : State := s.setTrn { s.trn with segs := smSet {} i g s.trn.segs }

/-- Fields of a Quotation entry (TABLE 2). -/
def State.qF (s : State) (e : Nat) (f : Fld) : Nat := s.entF pTRN 2 0 e f

def State.setQF (s : State) (e : Nat) (f : Fld) (x : Nat) : State := s.setEntF pTRN 2 0 e f x

/-- The ring numbers of all segments. -/
def State.segList (s : State) : List Nat := List.range (s.fld pTRN Fd.TRN_RING_SEGS)

/-- U: segments neither pinned nor open (R330). -/
def State.segFree (s : State) : Nat :=
  (s.segList.filter fun i => s.segF i En.SEGD_PINS = 0 && s.segF i En.SEGD_STATE ≠ 1).length

/-- One suspension level (R330): suspended below it, resumed 32 above it. -/
def State.suspend (s : State) (u level : Nat) (f : Fld) (bit code : Nat) : State :=
  if u < level && !(s.flag pTRN f) then ((s.setFlag pTRN f true).raise pTRN bit).err pTRN code 0
  else if level + 32 ≤ u then s.setFlag pTRN f false
  else s

/-- TRN_SEGS and the suspensions follow U (R330).
DEDUCED, unsafe (notes/assumptions/66.md). -/
def State.trnLevels (s : State) : State :=
  let u := s.segFree
  let s := s.setFld pTRN Fd.TRN_SEGS_UNPINNED u
  let s := s.setFld pTRN Fd.TRN_SEGS_PINNED (s.segList.filter fun i => s.segF i En.SEGD_PINS ≠ 0).length
  if s.enabled pTRN then
    let s := s.suspend u (s.fld pTRN Fd.TRN_SUSP_HI_LEVEL) Fd.TRN_STATE_HI_SUSP Iq.TRN_HI_SUSP Er.TRN_HI_SUSPEND
    s.suspend u (s.fld pTRN Fd.TRN_SUSP_LO_LEVEL) Fd.TRN_STATE_LO_SUSP Iq.TRN_LO_SUSP Er.TRN_LO_SUSPEND
  else s

/-- The segment a head takes next: the first unpinned one that is not open, in ascending ring order after the one taken
last (R328). -/
def State.nextSeg (s : State) : Option Nat :=
  let n := s.fld pTRN Fd.TRN_RING_SEGS
  let start := match s.trn.last with
    | some l => l + 1
    | none => 0
  (List.range n).findSome? fun k =>
    let i := (start + k) % n
    if s.segF i En.SEGD_PINS = 0 && s.segF i En.SEGD_STATE ≠ 1 then some i else none

/-- Pin a segment for Quotation entry `e` (R335). -/
def State.pinFor (s : State) (e i : Nat) : State :=
  let ps := smGet [] e s.trn.pins
  if ps.contains i then s
  else (s.setTrn { s.trn with pins := smSet [] e (ps ++ [i]) s.trn.pins }).setSegF i En.SEGD_PINS (s.segF i En.SEGD_PINS + 1)

/-- Take segment `i` for the head of a class: its contents are lost, its header is opened with CLOSE = 0 (R328, R329), and
every Quotation whose window is open pins it (R335). -/
def State.openSeg (s : State) (high : Bool) (i : Nat) : State :=
  let wrap := match s.trn.last with
    | some l => if i ≤ l then s.trn.wrap + 1 else s.trn.wrap
    | none => s.trn.wrap
  let e : Entry := 0
  let e := fput e En.SEGD_CLASS (b2n high)
  let e := fput e En.SEGD_STATE 1
  let e := fput e En.SEGD_WRAP wrap
  let e := fput e En.SEGD_BYTES 64
  let e := fput e En.SEGD_OPEN s.now
  let t := { s.trn with wrap := wrap, last := some i, taken := s.trn.taken + 1 }
  let t := if high then { t with highHead := some i } else { t with lowHead := some i }
  let s := ((s.setTrn t).setEnt pTRN 1 0 i e).setSeg i { recs := [], close := 0, ord := s.trn.taken, wrap := wrap }
  let s := (s.setFld pTRN Fd.TRN_STATE_HEAD i).inc pTRN Cn.TRN_SEGMENTS
  let s := foldN 4 (fun q s => if s.qF q En.QENT_STATE = 1 then s.pinFor q i else s) s
  s.trnLevels

/-- The open segment of a class. -/
def State.headOf (s : State) (high : Bool) : Option Nat := if high then s.trn.highHead else s.trn.lowHead

/-- Close the open segment of a class: CLOSE is stamped and the header rewritten (R328, R329). -/
def State.closeHead (s : State) (high : Bool) : State :=
  match s.headOf high with
  | none => s
  | some i =>
    let s := (s.setSegF i En.SEGD_STATE 2).setSeg i { s.seg i with close := s.now }
    (s.setTrn (if high then { s.trn with highHead := none } else { s.trn with lowHead := none })).trnLevels

/-- Both open segments close. -/
def State.closeHeads (s : State) : State := (s.closeHead false).closeHead true

/-- A record enters an open segment: directory, counters, and the copier's list when a capsule being copied covers it
(R329, R338). -/
def State.segAppend (s : State) (i : Nat) (r : Rec) : State :=
  let g := s.seg i
  let first := if g.recs.isEmpty then r.stamp else min (s.segF i En.SEGD_FIRST) r.stamp
  let s := (s.setSeg i { g with recs := g.recs ++ [r] }).setSegF i En.SEGD_FIRST first
  let s := s.setSegF i En.SEGD_LAST (max (s.segF i En.SEGD_LAST) r.stamp)
  let s := s.setSegF i En.SEGD_BYTES (s.segF i En.SEGD_BYTES + recSize r)
  let s := (s.inc pTRN (if r.high then Cn.TRN_REC_HIGH else Cn.TRN_REC_LOW)).addCnt pTRN Cn.TRN_BYTES (recSize r)
  match s.trn.cap with
  | some c =>
    if !r.high && !c.full && s.qF c.entry En.QENT_START ≤ r.stamp && r.stamp ≤ s.qF c.entry En.QENT_END then
      s.setTrn { s.trn with cap := some { c with todo := c.todo ++ [r] } }
    else s
  | none => s

/-- A record is written into the ring through its class's head, which takes a new segment when the record does not fit;
with no segment to take the record is lost as overflow (R328, R330). -/
def State.ringPut (s : State) (r : Rec) : State :=
  let fits : Bool := match s.headOf r.high with
    | some i => decide (s.segF i En.SEGD_BYTES + recSize r ≤ 1048576)
    | none => false
  if fits then
    match s.headOf r.high with
    | some i => s.segAppend i r
    | none => s
  else
    let s := s.closeHead r.high
    match s.nextSeg with
    | some i => (s.openSeg r.high i).segAppend i r
    | none => s.recOverflow r.high (r.typ * 256 + r.idx) r.stamp

/-- RING_WRITE: the record at the front of the low buffer, else of the high buffer, is written; a frozen block takes none,
and after a power-fail only the low class is served (R326, R341, R344). -/
def execRingWrite (t : Nat) (s : State) : Res :=
  live t s fun s =>
    if !(s.enabled pTRN) || s.frozen pTRN then s
    else
      match s.trn.low with
      | r :: l => (s.setTrn { s.trn with low := l }).ringPut r
      | [] =>
        match s.trn.high with
        | r :: h => if s.trn.pf.isSome then s else (s.setTrn { s.trn with high := h }).ringPut r
        | [] => s

/-- SEGMENT_MAX_AGE: SEG_MAX_MS after it opened, the open segment of a class (0 low, 1 high) closes (R328). -/
def execSegmentMaxAge (t cls : Nat) (s : State) : Res :=
  running t s fun s =>
    let ms := s.fld pTRN Fd.TRN_CFG_SEG_MAX_MS
    match s.headOf (cls = 1) with
    | some i => if ms ≠ 0 && s.segF i En.SEGD_OPEN + ms * 1000000 ≤ s.now then s.closeHead (cls = 1) else s
    | none => s

/-! ### Capsules -/

/-- Offset of a capsule slot in the data window (R336). -/
def slotBase (slot : Nat) : Nat := slot * 0x120000

/-- The slot a capsule takes: the next in rotation after the one used last, skipping KEEP = 1 and the OPEN slot (R337). -/
def State.nextSlot (s : State) : Option Nat :=
  (List.range 7).findSome? fun k =>
    let i := (s.lastSlot + 1 + k) % 7
    if s.flag pMRAM (Fd.MRAM_SLOT_KEEP.at 4 i) || s.fld pMRAM (Fd.MRAM_SLOT_STATE.at 4 i) = 1 then none else some i

/-- Low-class records of the pinned segments of an entry, in take order. -/
def State.pinnedLow (s : State) (e : Nat) : List Rec :=
  let ps := (smGet [] e s.trn.pins).filter fun i => s.segF i En.SEGD_CLASS = 0
  ((ps.map fun i => s.seg i).mergeSort fun a b => a.ord ≤ b.ord).flatMap fun g => g.recs

/-- Drop records from the front until the rest fits in `n` bytes (R338). -/
def dropToFit (n : Nat) : List Rec → List Rec
  | [] => []
  | r :: l => if bufSize (r :: l) ≤ n then r :: l else dropToFit n l

/-- The capsule of entry `e` starts: it takes a slot, or becomes NO_SLOT (R337, R338). -/
def State.capStart (s : State) (e : Nat) : State :=
  match s.nextSlot with
  | none => ((s.setQF e En.QENT_CAP 4).raise pTRN Iq.TRN_NO_SLOT).err pTRN Er.TRN_NO_SLOT e
  | some slot =>
    let T := s.qF e En.QENT_T
    let low := (s.pinnedLow e).filter fun r => s.qF e En.QENT_START ≤ r.stamp && r.stamp ≤ s.qF e En.QENT_END
    let pre := low.filter fun r => r.stamp ≤ T
    let preMax := 1044480 * s.fld pTRN Fd.TRN_QCFG_PRE_PCT / 100
    let pre' := dropToFit preMax pre
    let c : Cap := ⟨e, slot, pre' ++ low.filter (fun r => T < r.stamp), 0, 0, 0, decide (pre'.length < pre.length), false, false⟩
    let s := (s.setQF e En.QENT_CAP 2).setQF e En.QENT_SLOT slot
    let s := (s.setTrn { s.trn with cap := some c }).mramPut (slotBase slot) (leBytes 8 1)
    let s := { s.setFld pMRAM (Fd.MRAM_SLOT_STATE.at 4 slot) 1 with lastSlot := slot }
    let s := (s.setFld pMRAM Fd.MRAM_STATUS_OPEN slot).setFld pMRAM Fd.MRAM_STATUS_NEXT ((slot + 1) % 7)
    (s.setFlag pMRAM Fd.MRAM_STATUS_BUSY true)

/-- The capsule that waits longest starts when none is being copied (R337). -/
def State.capNext (s : State) : State :=
  if s.trn.cap.isSome then s
  else
    let w := (List.range 4).filter fun e => s.qF e En.QENT_CAP = 1 && s.qF e En.QENT_STATE ≠ 0
    match (w.mergeSort fun a b => s.qF a En.QENT_GEN ≤ s.qF b En.QENT_GEN) with
    | e :: _ => s.capStart e
    | [] => s

/-- The copier copies the next record into the records area; when it does not fit, copying stops and CAP_FULL is set,
raised and logged (R338). -/
def State.capCopy (s : State) : State :=
  match s.trn.cap with
  | none => s
  | some c =>
    if c.full then s
    else
      match c.todo with
      | [] => s
      | r :: l =>
        if c.used + recSize r ≤ 1044480 then
          let s := s.mramPut (slotBase c.slot + 0x21000 + c.used) (recBytes r)
          let s := s.addCnt pMRAM Cn.MRAM_COMMITTED_BYTES (recSize r)
          let first := if c.used = 0 then r.stamp else c.first
          s.setTrn { s.trn with cap := some { c with todo := l, used := c.used + recSize r, first := first, last := r.stamp } }
        else
          let s := s.setTrn { s.trn with cap := some { c with todo := [], full := true } }
          (s.raise pTRN Iq.TRN_CAP_FULL).err pTRN Er.TRN_CAP_FULL c.entry

/-- Copy everything that is left. -/
def State.capCopyAll (s : State) : State :=
  match s.trn.cap with
  | some c => foldN c.todo.length (fun _ s => s.capCopy) s
  | none => s

/-- The segment index of a capsule (R339): one 16-byte entry per pinned segment, at most 4,096, those nearest to `T`. -/
def State.segIndex (s : State) (e : Nat) : List Nat × Bool :=
  let T := s.qF e En.QENT_T
  let ps := smGet [] e s.trn.pins
  let dist := fun i => let f := s.segF i En.SEGD_FIRST; if f ≤ T then T - f else f - T
  let near := ((ps.mergeSort fun a b => dist a ≤ dist b).take 4096).mergeSort fun a b => (s.seg a).ord ≤ (s.seg b).ord
  (near, 4096 < ps.length)

/-- The bytes of the segment index. -/
def State.segIndexBytes (s : State) (l : List Nat) : List Nat :=
  l.flatMap fun i => leBytes 2 i ++ [s.segF i En.SEGD_CLASS, 0] ++ leBytes 4 (s.segF i En.SEGD_BYTES) ++ leBytes 8 (s.segF i En.SEGD_FIRST)

/-- The on-chip journal in stamp order: from the oldest entry to HEAD - 1 (R66). -/
def State.journalIdx (s : State) : List Nat :=
  let h := s.fld pTIME Fd.TIME_JNL_STATUS_HEAD
  if s.flag pTIME Fd.TIME_JNL_STATUS_WRAPPED then (List.range 1024).map fun k => (h + k) % 1024 else List.range h

/-- The journal extract (R339): each view's latest piece-starting entry before the first record, then the journal. -/
def State.journalExtract (s : State) (first : Nat) : List Nat :=
  let idx := s.journalIdx
  let bytes := fun i => entryToBytes (s.ent pTIME 0 0 i)
  let starts := fun i => let ty := nth 0 (bytes i) 11; ty = 1 || ty = 4 || ty = 5 || ty = 6 || ty = 0x12
  let lead := (List.range 8).filterMap fun v =>
    (idx.filter fun i => nth 0 (bytes i) 10 = v && starts i && leNat ((bytes i).take 8) < first).getLast?
  lead ++ idx.filter fun i => !(lead.contains i)

/-- The fault log in log order (R339, R508). -/
def State.logIdx (s : State) : List Nat :=
  let h := s.fld pLOG Fd.LOG_STATUS_HEAD
  let n := s.fld pLOG Fd.LOG_STATUS_COUNT
  (List.range n).map fun k => (h + 1024 - n + k) % 1024

/-- The closing areas and the header of a capsule, with STATE written last (R339, Table 8). The CRC bytes are taken as 0
while the CRC is computed.
DEDUCED, unsafe (notes/assumptions/36.md). -/
def State.capClose (s : State) : State :=
  match s.trn.cap with
  | none => s
  | some c =>
    let e := c.entry
    let base := slotBase c.slot
    let (idx, trunc) := s.segIndex e
    let idxB := s.segIndexBytes idx
    let jnl := (s.journalExtract c.first).take 1024
    let jnlB := jnl.flatMap fun i => entryToBytes (s.ent pTIME 0 0 i)
    let log := s.logIdx
    let logB := log.flatMap fun i => entryToBytes (s.ent pLOG 0 0 i)
    let trigs := (smGet [] e s.trn.trigs).take 16
    let flags := s.qF e En.QENT_PF + 2 * b2n c.preLimited + 4 * b2n c.full + 8 * b2n trunc
      + 16 * s.qF e En.QENT_PIN_SHORT + 32 * b2n c.eccSkip
    let head := fun crc => leBytes 4 (s.qF e En.QENT_GEN) ++ leBytes 4 (s.rd pTIME Reg.TIME_EPOCH) ++ leBytes 8 (s.qF e En.QENT_T)
      ++ leBytes 8 (s.qF e En.QENT_START) ++ leBytes 8 (s.qF e En.QENT_END) ++ leBytes 8 c.first ++ leBytes 8 c.last
      ++ leBytes 4 c.used ++ leBytes 4 idx.length ++ leBytes 4 jnl.length ++ leBytes 4 log.length
      ++ [s.qF e En.QENT_SRC, s.qF e En.QENT_REASON, flags, s.qF e En.QENT_TRIG_N] ++ leBytes 4 0
      ++ leBytes 4 crc ++ fitTo 0 44 [] ++ fitTo 0 256 (trigs.flatMap fun x => leBytes 8 x.stamp ++ [x.src, x.reason] ++ fitTo 0 6 [])
    let crc := crc32c (head 0 ++ s.mramBytes (base + 0x21000) c.used ++ idxB ++ jnlB ++ logB)
    let s := ((s.mramPut (base + 0x1000) idxB).mramPut (base + 0x11000) jnlB).mramPut (base + 0x19000) logB
    let s := (s.mramPut (base + 8) (head crc)).mramPut (base + 384) (fitTo 0 3712 [])
    let s := s.mramPut base (leBytes 8 2)
    let s := s.addCnt pMRAM Cn.MRAM_COMMITTED_BYTES (4096 + idxB.length + jnlB.length + logB.length)
    let f := Fd.MRAM_SLOT_STATE.at 4 c.slot
    let s := s.setFld pMRAM f 2
    let s := s.setFld pMRAM (Fd.MRAM_SLOT_WRITES.at 4 c.slot) (satAdd 24 (s.fld pMRAM (Fd.MRAM_SLOT_WRITES.at 4 c.slot)) 1)
    let s := if s.flag pMRAM Fd.MRAM_CFG_AUTO_KEEP then s.setFlag pMRAM (Fd.MRAM_SLOT_KEEP.at 4 c.slot) true else s
    let s := (s.setFld pMRAM Fd.MRAM_STATUS_OPEN 7).setFlag pMRAM Fd.MRAM_STATUS_BUSY false
    let s := (s.setQF e En.QENT_CAP 3).setTrn { s.trn with cap := none }
    let s := (s.inc pTRN Cn.TRN_CAPSULES).inc pMRAM Cn.MRAM_CAPSULES
    let s := (s.raise pTRN Iq.TRN_CAPSULE_DONE).raise pMRAM Iq.MRAM_COMMIT_DONE
    s.capNext

/-- A Quotation window closes: open segments close, the entry becomes PINNED (R335, Table 6). -/
def State.quoteClose (s : State) (e : Nat) : State :=
  ((s.setQF e En.QENT_STATE 2).closeHeads).raise pTRN Iq.TRN_Q_CLOSED

/-- CAPSULE_CLOSE: after the window has closed, the copier copies what is left, writes index, journal, log and header, and
sets the slot CLOSED (R339). In a last gasp the window closes at P + 100 µs (R342). -/
def execCapsuleClose (t : Nat) (s : State) : Res :=
  live t s fun s =>
    match s.trn.cap with
    | some c =>
      let late : Bool := match s.trn.pf with
        | some P => decide (P + 100000 ≤ s.now)
        | none => false
      if s.qF c.entry En.QENT_STATE = 2 then s.capCopyAll.capClose
      else if late then
        let s := s.quoteClose c.entry
        s.capCopyAll.capClose
      else s
    | none => s

/-! ### Quotations -/

/-- A QUOTE_MARK record (R332).
DEDUCED, unsafe (notes/assumptions/67.md). -/
def State.quoteMark (s : State) (e gen src reason stamp : Nat) (merged : Bool) : State :=
  s.tap false 0x32 e stamp s.coarseBit (leBytes 4 gen ++ [src, reason, b2n merged, 0] ++ leBytes 8 s.now)

/-- The entry opened by a trigger: pins, GEN, capsule (R333, R335, Table 6). -/
def State.quoteOpen (s : State) (e src stamp reason start stop : Nat) : State :=
  let q : Entry := 0
  let q := fput q En.QENT_STATE 1
  let q := fput q En.QENT_CAP 1
  let q := fput q En.QENT_SRC src
  let q := fput q En.QENT_SLOT 7
  let q := fput q En.QENT_TRIG_N 1
  let q := fput q En.QENT_REASON reason
  let q := fput q En.QENT_GEN (s.capGen + 1)
  let q := fput q En.QENT_T stamp
  let q := fput q En.QENT_START start
  let q := fput q En.QENT_END stop
  let s := { s.setEnt pTRN 2 0 e q with capGen := (s.capGen + 1) % 2 ^ 32 }
  let s := s.setTrn { s.trn with trigs := smSet [] e [⟨stamp, src, reason⟩] s.trn.trigs }
  let s := s.setFld pTRN Fd.TRN_QSTAT_BUSY (s.fld pTRN Fd.TRN_QSTAT_BUSY ||| 2 ^ e)
  let s := s.segList.foldl (fun s i =>
    if s.segF i En.SEGD_STATE = 1 || (s.segF i En.SEGD_STATE = 2 && start ≤ s.segF i En.SEGD_LAST) then s.pinFor e i else s) s
  let oldest := fun c => (((smGet [] e s.trn.pins).filter fun i => s.segF i En.SEGD_CLASS = c).mergeSort
    fun a b => (s.seg a).ord ≤ (s.seg b).ord).head?
  let short := fun c => match oldest c with
    | some i => !(s.seg i).recs.isEmpty && start < s.segF i En.SEGD_FIRST
    | none => false
  let s := if short 0 || short 1 then
      ((s.setQF e En.QENT_PIN_SHORT 1).raise pTRN Iq.TRN_PIN_SHORT).err pTRN Er.TRN_PIN_SHORT e
    else s
  let s := ((s.inc pTRN Cn.TRN_QUOTATIONS).raise pTRN Iq.TRN_QUOTE).trnLevels
  s.capNext

/-- The COLLECTING entry that a trigger stamped `stamp` merges into: the earliest-triggered one whose window holds it
(R333). -/
def State.quoteMatch (s : State) (stamp : Nat) : Option Nat :=
  let c := (List.range 4).filter fun e =>
    s.qF e En.QENT_STATE = 1 && s.qF e En.QENT_START ≤ stamp && stamp ≤ s.qF e En.QENT_END
  (c.mergeSort fun a b => s.qF a En.QENT_T ≤ s.qF b En.QENT_T).head?

/-- A Quotation trigger (R332 to R335): masked, merged, opening a new Quotation, or refused.
DEDUCED, unsafe (notes/assumptions/67.md). -/
def State.quote (s : State) (src stamp reason : Nat) : State :=
  if !(s.enabled pTRN) || !((s.fld pTRN Fd.TRN_QCFG_SRC_EN).testBit (src - 1)) then s.inc pTRN Cn.TRN_TRIG_MASKED
  else
    let s := s.inc pTRN Cn.TRN_TRIGGERS
    match s.quoteMatch stamp with
    | some e =>
      let tr := smGet [] e s.trn.trigs
      let s := s.setTrn { s.trn with trigs := smSet [] e (tr ++ [⟨stamp, src, reason⟩]) s.trn.trigs }
      let s := (s.setQF e En.QENT_TRIG_N (min 16 (s.qF e En.QENT_TRIG_N + 1))).inc pTRN Cn.TRN_MERGED
      s.quoteMark e (s.qF e En.QENT_GEN) src reason stamp true
    | none =>
      match (List.range 4).find? fun e => s.qF e En.QENT_STATE = 0 with
      | some e =>
        let pre := s.fld pTRN Fd.TRN_QWIN_PRE_S * 1000000000
        let s := s.quoteOpen e src stamp reason (stamp - pre) (stamp + s.fld pTRN Fd.TRN_QWIN_POST_S * 1000000000)
        s.quoteMark e (s.qF e En.QENT_GEN) src reason stamp false
      | none =>
        let s := (s.inc pTRN Cn.TRN_TRIG_LOST).raise pTRN Iq.TRN_TRIG_LOST
        let s := s.err pTRN Er.TRN_TRIG_LOST src
        s.draw.quoteMark 0xFF (Config.free s.draws % 2 ^ 32) src reason stamp false

/-- The pins of an entry are dropped (R335, Table 6). -/
def State.unpin (s : State) (e : Nat) : State :=
  let s := (smGet [] e s.trn.pins).foldl (fun s i => s.setSegF i En.SEGD_PINS (s.segF i En.SEGD_PINS - 1)) s
  s.setTrn { s.trn with pins := smSet [] e [] s.trn.pins, trigs := smSet [] e [] s.trn.trigs }

/-- An entry becomes FREE. -/
def State.quoteFree (s : State) (e : Nat) : State :=
  let s := (s.unpin e).setQF e En.QENT_STATE 0
  (s.setFld pTRN Fd.TRN_QSTAT_BUSY (s.fld pTRN Fd.TRN_QSTAT_BUSY &&& (15 - 2 ^ e))).trnLevels

/-- An accepted write of TRN_QTRIG. -/
def State.qtrigWrite (s : State) (v : Nat) : State := if v.testBit 31 then s.quote 1 s.now (v % 256) else s

/-- QTRIG: a write of TRN_QTRIG with GO = 1 raises a host trigger (Table 5). -/
def execQtrig (t d v : Nat) (s : State) : Res :=
  live t s fun s => s.judged d (pTRN * 4096 + Reg.TRN_QTRIG) 32 v fun s => s.qtrigWrite v

/-- HELD_TRIGGER_OFFER: a WAKE_IN quote trigger held from Comma or Period is offered once, with its edge stamp (R334).
DEDUCED, unsafe (notes/assumptions/67.md). -/
def execHeldTriggerOffer (t input : Nat) (s : State) : Res :=
  running t s fun s =>
    match s.trn.held.find? fun x => x.1 = input with
    | some x =>
      if s.enabled pTRN && s.pwr = .clause then
        (s.setTrn { s.trn with held := s.trn.held.filter fun y => y.1 ≠ input }).quote 2 x.2 input
      else s
    | none => s

/-- QUOTATION_WINDOW_CLOSE: at END + 10 ms (R335). -/
def execQuotationWindowClose (t entry : Nat) (s : State) : Res :=
  running t s fun s =>
    if entry < 4 && s.qF entry En.QENT_STATE = 1 && s.qF entry En.QENT_END + 10000000 ≤ s.now then s.quoteClose entry else s

/-- An accepted write of TRN_QREL by domain `d`: releases the pins of a PINNED entry, refused while its capsule is WAITING
or COPYING (Table 6). -/
def State.qrelWrite (s : State) (d v : Nat) : State :=
  let e := v % 4
  if !(v.testBit 31) || s.qF e En.QENT_STATE ≠ 2 then s
  else if s.qF e En.QENT_CAP = 1 || s.qF e En.QENT_CAP = 2 then
    s.refuse d (pTRN * 4096 + Reg.TRN_QREL) v Er.REG_BAD_VALUE
  else s.quoteFree e

/-- QREL: domain `d` writes TRN_QREL. -/
def execQrel (t d v : Nat) (s : State) : Res :=
  live t s fun s => s.judged d (pTRN * 4096 + Reg.TRN_QREL) 32 v fun s => s.qrelWrite d v

/-! ### Export (R343) -/

/-- An accepted write of TRN_XCMD by domain `d`: the export of a closed segment starts and pins it. -/
def State.xcmdWrite (s : State) (d v : Nat) : State :=
  let seg := v % 2 ^ 14
  let dom := v / 2 ^ 16 % 8
  let addr := s.rd64 pTRN Reg.TRN_XADDR_LO
  if !(v.testBit 31) then s
  else if s.flag pTRN Fd.TRN_XSTAT_BUSY || !(s.segList.contains seg) || s.segF seg En.SEGD_STATE ≠ 2 || 4 ≤ dom || addr % 4096 ≠ 0 then
    s.refuse d (pTRN * 4096 + Reg.TRN_XCMD) v Er.REG_BAD_VALUE
  else
    let s := (s.setSegF seg En.SEGD_PINS (s.segF seg En.SEGD_PINS + 1)).setFlag pTRN Fd.TRN_XSTAT_BUSY true
    (s.setTrn { s.trn with exp := some ⟨seg, dom, addr⟩ }).trnLevels

/-- XCMD: domain `d` writes TRN_XCMD. -/
def execXcmd (t d v : Nat) (s : State) : Res :=
  live t s fun s => s.judged d (pTRN * 4096 + Reg.TRN_XCMD) 32 v fun s => s.xcmdWrite d v

/-- The export in progress ends: with success (code 0), or with ERROR and the code, which is logged. -/
def State.exportEnd (s : State) (code : Nat) : State :=
  match s.trn.exp with
  | none => s
  | some x =>
    let s := (s.setSegF x.seg En.SEGD_PINS (s.segF x.seg En.SEGD_PINS - 1)).setFlag pTRN Fd.TRN_XSTAT_BUSY false
    let s := (s.setTrn { s.trn with exp := none }).trnLevels
    if code = 0 then
      ((s.setFlag pTRN Fd.TRN_XSTAT_DONE true).inc pTRN Cn.TRN_EXPORTED).raise pTRN Iq.TRN_EXPORT_DONE
    else
      ((s.setFlag pTRN Fd.TRN_XSTAT_ERROR true).setFld pTRN Fd.TRN_XSTAT_ERR code).err pTRN code x.seg

/-- EXPORT_DONE: the export in progress has crossed PCIe whole (code 0), or ended with a PCIe error (TRN_EXPORT_ERR) or
an uncorrectable DRAM error (TRN_ECC). The 1,048,576 bytes go to the bus address (R343). A frozen block pauses it. -/
def execExportDone (t code : Nat) (s : State) : Res :=
  live t s fun s =>
    if s.frozen pTRN then s
    else
      match s.trn.exp with
      | none => s
      | some x =>
        let s := if code = 0 || code = Er.TRN_ECC then s.emit (.sent "export" [x.dom, x.addr, x.seg]) else s
        let s := if code = Er.TRN_ECC then (s.inc pTRN Cn.TRN_ECC_UNCORR).raise pTRN Iq.TRN_ECC else s
        s.exportEnd (if code = 0 then 0 else if code = Er.TRN_ECC then Er.TRN_ECC else Er.TRN_EXPORT_ERR)

/-! ### Time search (R331) -/

/-- Segments of a class that hold data, in take order. -/
def State.segsOfClass (s : State) (cls : Nat) : List Nat :=
  (s.segList.filter fun i => s.segF i En.SEGD_STATE ≠ 0 && s.segF i En.SEGD_CLASS = cls).mergeSort
    fun a b => (s.seg a).ord ≤ (s.seg b).ord

/-- The result of a search: TRN_WIN_RESULT and the directory entry. -/
def State.searchResult (s : State) (r : Option Nat) : State :=
  match r with
  | some i =>
    let s := (s.setFlag pTRN Fd.TRN_WIN_RESULT_FOUND true).setFld pTRN Fd.TRN_WIN_RESULT_SEG i
    s.setWinData pTRN (s.ent pTRN 1 0 i)
  | none => s.setFlag pTRN Fd.TRN_WIN_RESULT_FOUND false

/-- FIND: the earliest segment of a class, in take order, whose LAST is at or after a stamp (R331). -/
def State.trnFind (s : State) (d v : Nat) : State :=
  s.winCmd d pTRN v (fun _ => none) fun s =>
    let x := s.winData pTRN
    s.searchResult ((s.segsOfClass (bitsOf x 64 1)).find? fun i => bitsOf x 0 64 ≤ s.segF i En.SEGD_LAST)

/-- FIND (R331). -/
def execTrnFind (t d : Nat) (s : State) : Res := live t s fun s => s.trnFind d 8

/-- TRN_NEXT: the segment of the same class taken next after segment WIN_ADDR.INDEX (R331). -/
def State.trnNext (s : State) (d v : Nat) : State :=
  s.winCmd d pTRN v (fun _ => none) fun s =>
    let i := s.fld pTRN Fd.WIN_INDEX
    s.searchResult ((s.segsOfClass (s.segF i En.SEGD_CLASS)).find? fun j => (s.seg i).ord < (s.seg j).ord)

/-- TRN_NEXT (R331). -/
def execTrnNext (t d : Nat) (s : State) : Res := live t s fun s => s.trnNext d 9

/-! ### The MRAM control page and data window -/

/-- An accepted write of MRAM_SLOT by domain `d`: KEEP, then ERASE, which is refused for an OPEN slot. -/
def State.mramSlotWrite (s : State) (d slot v : Nat) : State :=
  let a := pMRAM * 4096 + Reg.MRAM_SLOT + 4 * slot
  if 7 ≤ slot then s
  else if v.testBit 3 && s.fld pMRAM (Fd.MRAM_SLOT_STATE.at 4 slot) = 1 then s.refuse d a v Er.REG_BAD_VALUE
  else
    let s := s.store a v
    if v.testBit 3 then (s.setFld pMRAM (Fd.MRAM_SLOT_STATE.at 4 slot) 0).mramPut (slotBase slot) (leBytes 8 0) else s

/-- ERASE: a write of MRAM_SLOT.ERASE sets the slot's STATE to EMPTY, refused while it is OPEN (Table 15). The register's
KEEP takes the value written with it. -/
def execErase (t d slot : Nat) (s : State) : Res :=
  live t s fun s =>
    let v := 8 + 4 * s.fld pMRAM (Fd.MRAM_SLOT_KEEP.at 4 slot)
    s.judged d (pMRAM * 4096 + Reg.MRAM_SLOT + 4 * slot) 32 v fun s => s.mramSlotWrite d slot v

/-- A refused write to the MRAM data window (R340).
DEDUCED, unsafe (notes/assumptions/68.md). -/
def State.mramRefuse (s : State) (d v : Nat) : State :=
  (s.inc pMRAM Cn.MRAM_WRITE_REFUSED).errBy d pMRAM Er.MRAM_WRITE 0 v

/-- MRAM_WRITE: a write to the MRAM data window is refused with MRAM_WRITE, latched in the MRAM control page; a width or
alignment error comes first (R340, R555).
DEDUCED, unsafe (notes/assumptions/68.md). -/
def execMramWrite (t d a bits v : Nat) (s : State) : Res :=
  live t s fun s =>
    if !(inMramWindow (a / 4096)) then s
    else s.judged d a bits v fun s => s.mramRefuse d v

/-! ### Stops, freezes and resets of the block -/

/-- ENABLE 0 to 1: SEQ restarts at 0, and the suspensions are judged (R320, R330). -/
def State.trnEnable (s : State) : State := (s.setTrn { s.trn with seqs := [], lost := [] }).trnLevels

/-- Every Quotation entry is freed; a capsule being copied becomes ABORTED and its slot stays OPEN (Table 6). -/
def State.trnFreeAll (s : State) : State :=
  let s := match s.trn.cap with
    | some c => (s.setQF c.entry En.QENT_CAP 6).setTrn { s.trn with cap := none }
    | none => s
  let s := (s.setFlag pMRAM Fd.MRAM_STATUS_BUSY false).setFld pMRAM Fd.MRAM_STATUS_OPEN 7
  foldN 4 (fun e s => if s.qF e En.QENT_STATE = 0 then s else s.quoteFree e) s

/-- ENABLE = 0: the open segments close, entries are freed, and records not yet in the ring are dropped.
DEDUCED, unsafe (notes/assumptions/66.md). -/
def State.trnDisable (s : State) : State :=
  let s := s.closeHeads.trnFreeAll
  s.setTrn { s.trn with low := [], high := [] }

/-- SOFT_RESET: the ring is emptied and every entry freed (R344). -/
def State.trnSoftReset (s : State) : State :=
  let s := s.closeHeads.trnFreeAll
  let s := s.segList.foldl (fun s i => s.setEnt pTRN 1 0 i 0) s
  let s := foldN 4 (fun e s => s.setEnt pTRN 2 0 e 0) s
  let s := s.setTrn { s.trn with low := [], high := [], seqs := [], lost := [], samp := [], segs := [], last := none, wrap := 0, taken := 0, exp := none }
  s.trnLevels

end Sys2Proof.Machine
end

