-- ==== Sys2Proof/Machine/KeyOps.lean ====
section
/-!
DEFINITION. The key store's shared operations (R386 to R395): slot entries, handles, staleness, uses of a key, and the
check of a binding.
-/

namespace Sys2Proof.Machine

/-! ### Attributes: the bits of KEY_ATTR, which sit at the same places in a slot entry -/

def kaType (a : Nat) : Nat := a / 16 % 16
def kaUses (a : Nat) : Nat := a / 256 % 16
def kaWorld (a : Nat) : Nat := a / 4096 % 2
def kaDomains (a : Nat) : Nat := a / 65536 % 256
def kaLc (a : Nat) : Nat := a / 2 ^ 24 % 64

/-- Uses: bits of USES. -/
def useCmac : Nat := 0
def useGcm : Nat := 1
def useKdf : Nat := 2
def useSign : Nat := 3

/-- The set of bits `x` lies within `y`. -/
def subMask (x y : Nat) : Bool := x &&& y = x

/-- The slot entry (Table 9); the store is one, read through every port's TABLE 0. -/
def State.slot (s : State) (n : Nat) : Entry := s.ent (pKEY 0) 0 0 n

def State.setSlot (s : State) (n : Nat) (e : Entry) : State := s.setEnt (pKEY 0) 0 0 n e

def State.slotF (s : State) (n : Nat) (f : Fld) : Nat := fget (s.slot n) f

/-- Bits [31:0] of the entry: attributes with the flags. -/
def State.slotAttr (s : State) (n : Nat) : Nat := (s.slot n).toNat % 2 ^ 32

def State.slotValid (s : State) (n : Nat) : Bool := s.slotF n En.KSLOT_VALID = 1

/-- The life-cycle code of this start (R375, R378). -/
def State.lc (s : State) : Nat := s.fld pOTP Fd.OTP_STATUS_LC

/-- The handle of slot `n` (R386). -/
def State.handleOf (s : State) (n : Nat) : Nat := s.slotF n En.KSLOT_GEN * 65536 + n

/-- A handle that names a valid slot with its GEN (R386); with KEY disabled every use finds no key (R396). -/
def State.keyCurrent (s : State) (h : Nat) : Bool := s.slotValid (h % 256) && h = s.handleOf (h % 256)

/-- The material of a key, and its length in bits. -/
def State.keyMat (s : State) (h : Nat) : Nat × Nat :=
  (if kaType (s.slotAttr (h % 256)) = 1 then 128 else 256, smGet 0 (h % 256) s.keys.mat)

/-- The next GEN: it wraps from 65,535 to 1. -/
def nextGen (g : Nat) : Nat := if g = 65535 then 1 else g + 1

/-- KEY_FREE of every port follows the slots. -/
def State.keyLevels (s : State) : State :=
  let n := ((List.range 256).filter fun i => 2 ≤ i && !(s.slotValid i)).length
  foldN 4 (fun k s => s.setFld (pKEY k) Fd.KEY_FREE_FREE n) s

/-- A slot becomes invalid under its next GEN (R386, R393); its material is zeroised by `keyZero`. -/
def State.slotFree (s : State) (n : Nat) : State :=
  (s.setSlot n (fput 0 En.KSLOT_GEN (nextGen (s.slotF n En.KSLOT_GEN)))).keyLevels

def State.keyZero (s : State) (n : Nat) : State := { s with keys := { s.keys with mat := smSet 0 n 0 s.keys.mat } }

/-- A hardware use finds its handle stale: counted, raised and logged once per run per handle (R393). -/
def State.staleUse (s : State) (h : Nat) : State :=
  ((s.inc (pKEY 0) Cn.KEY_STALE_USES).raise (pKEY 0) Iq.KEY_STALE_USE).errRun (pKEY 0) Er.KEY_STALE h (h % 256)

/-- A use of a bound handle: the key's bits and material, or none when it is stale or KEY is disabled. -/
def State.keyUse (s : State) (h : Nat) : Option (Nat × Nat) × State :=
  if !(s.enabled (pKEY 0)) then (none, s)
  else if s.keyCurrent h then (some (s.keyMat h), s.endRun (pKEY 0) Er.KEY_STALE h)
  else (none, s.staleUse h)

/-- Domain `d` may use the key of slot `n`: in DOMAINS, and secure when WORLD = 1 (R390, R394). -/
def State.keyAllows (s : State) (d n : Nat) : Bool :=
  (kaDomains (s.slotAttr n)).testBit d && (kaWorld (s.slotAttr n) = 0 || s.secure d)

/-- The check of a binding of handle `h` by domain `d` for use bit `use` and the TYPEs a block accepts (R394). -/
def State.bindCheck (s : State) (d h use : Nat) (types : List Nat) : Option Nat :=
  let n := h % 256
  if !(s.keyCurrent h) then some Er.KEY_STALE
  else if !(s.keyAllows d n) then some Er.KEY_DENIED
  else if !((kaUses (s.slotAttr n)).testBit use) then some Er.KEY_DENIED
  else if !(types.contains (kaType (s.slotAttr n))) then some Er.KEY_DENIED
  else none

/-- SP 800-108 in counter mode with AES-CMAC (R391). -/
def kdf (bits key : Nat) (label ctx : List Nat) (len : Nat) : Nat :=
  let block := fun i => cmac bits key (beBytes 4 i ++ label ++ [0] ++ ctx ++ beBytes 4 len)
  beNat (((List.range (len / 128)).flatMap fun i => beBytes 16 (block (i + 1))).take (len / 8))

/-- A derived key of TYPE `ty` (R391): 128, 256 or 384 bits of output, the last reduced to a scalar. -/
def kdfKey (ty bits key : Nat) (label ctx : List Nat) : Nat :=
  if ty = 1 then kdf bits key label ctx 128
  else if ty = 2 then kdf bits key label ctx 256
  else kdf bits key label ctx 384 % (p256Order - 1) + 1

/-! ### OTP words -/

/-- A word of the OTP as the device uses it: 0 after an uncorrectable error (R374). -/
def State.otpWord (s : State) (w : Nat) : Nat := if s.otp.bad.contains w then 0 else smGet 0 w s.otp.words

/-- `n` words from `w` as one number, the first word least significant.
DEDUCED, unsafe (notes/assumptions/40.md). -/
def State.otpNum (s : State) (w n : Nat) : Nat := (List.range n).foldr (fun k x => s.otpWord (w + k) + 2 ^ 32 * x) 0

/-- The device identifier, 8 bytes, big-endian (R379, R387). -/
def State.uid (s : State) : List Nat := beBytes 8 (s.otpNum 0 2)

/-- Words that are key material: the two roots, DEBUG_KEY and RMA_KEY (Table 1). -/
def otpSecret (w : Nat) : Bool := 0x010 ≤ w && w ≤ 0x027

end Sys2Proof.Machine
end

