-- ==== Sys2Proof/Machine/AuthOps.lean ====
section
/-!
DEFINITION. The tag scheme (R400 to R405): the message, the trailer, verification and generation under a profile.
-/

namespace Sys2Proof.Machine

/-- A profile entry and a field of it. -/
def State.prof (s : State) (n : Nat) (f : Fld) : Nat := s.entF (pMSEC 0) 0 0 n f

/-- The value of a freshness slot (R405). -/
def State.fresh (s : State) (n : Nat) : Nat := s.entF (pMSEC 0) 1 0 n En.FRSH_FV

def State.setFresh (s : State) (n x : Nat) : State := s.setEntF (pMSEC 0) 1 0 n En.FRSH_FV x

/-- Count one in a profile counter; it wraps without a flag (Table 6). -/
def State.profCount (s : State) (n : Nat) (f : Fld) : State :=
  s.setEntF (pMSEC 0) 2 0 n f (s.entF (pMSEC 0) 2 0 n f + 1)

/-- The bytes of the trailer (R401). -/
def State.trailerLen (s : State) (n : Nat) : Nat := (s.prof n En.PROF_FV_TX_BITS + s.prof n En.PROF_TAG_BITS + 7) / 8

/-- The tag, as a number of TAG_BITS bits (R400): `id` is the identifier word of bytes 2 to 5 of M. -/
def State.tagOf (s : State) (n : Nat) (key : Nat × Nat) (id : Nat) (payload : List Nat) (fv : Nat) : Nat :=
  let idw := if s.prof n En.PROF_ID_BIND = 1 then id else 0
  let m := beBytes 2 (s.prof n En.PROF_DATA_ID) ++ beBytes 4 idw ++ beBytes 2 payload.length ++ payload ++ beBytes 8 fv
  cmac key.1 key.2 m / 2 ^ (128 - s.prof n En.PROF_TAG_BITS)

/-- The trailer: freshness bits, tag, zero bits to a whole byte (R401). -/
def State.trailer (s : State) (n : Nat) (tag fv : Nat) : List Nat :=
  let fb := s.prof n En.PROF_FV_TX_BITS
  let tb := s.prof n En.PROF_TAG_BITS
  let k := s.trailerLen n
  beBytes k ((fv % 2 ^ fb * 2 ^ tb + tag) * 2 ^ (8 * k - fb - tb))

/-- The use of a profile: none while MSEC is disabled or the entry is not valid for the direction. -/
def State.profOk (s : State) (n dir : Nat) : Bool :=
  s.enabled (pMSEC 0) && s.prof n En.PROF_VALID = 1 && s.prof n En.PROF_DIR = dir

/-- A verification fails and counts in one of the profile's three fields (R404). -/
def State.verifyFail (s : State) (n : Nat) (f : Fld) : State := (s.profCount n f).inc (pMSEC 0) Cn.MSEC_TAGS_FAIL

/-- Verify a frame under profile `n` (R403): the authentic payload, or none.
DEDUCED, unsafe (notes/assumptions/43.md). -/
def State.authVerify (s : State) (n id : Nat) (bytes : List Nat) : Option (List Nat) × State :=
  if !(s.profOk n 0) then (none, s.verifyFail n En.PCNT_OTHER)
  else
    let k := s.trailerLen n
    let plen := s.prof n En.PROF_PLEN
    let l := if plen = 0 then bytes.length - k else plen
    if bytes.length < l + k then (none, s.verifyFail n En.PCNT_OTHER)
    else
      let fb := s.prof n En.PROF_FV_TX_BITS
      let tb := s.prof n En.PROF_TAG_BITS
      let slot := s.prof n En.PROF_FRESH
      let v := s.fresh slot
      let x := beNat ((bytes.drop l).take k) / 2 ^ (8 * k - fb - tb)
      let r := x / 2 ^ tb % 2 ^ fb
      let c0 := v / 2 ^ fb * 2 ^ fb + r
      let c := if fb = 0 then v + 1 else if c0 ≤ v then c0 + 2 ^ fb else c0
      match s.keyUse (s.prof n En.PROF_KEY) with
      | (none, s) => (none, s.verifyFail n En.PCNT_OTHER)
      | (some key, s) =>
        let payload := bytes.take l
        if c < 2 ^ 64 && s.tagOf n key id payload c = x % 2 ^ tb then
          (some payload, ((s.setFresh slot c).profCount n En.PCNT_OK).inc (pMSEC 0) Cn.MSEC_TAGS_OK)
        else
          let replay := fb ≠ 0 && r = v % 2 ^ fb
          (none, s.verifyFail n (if replay then En.PCNT_REPLAY else En.PCNT_TAG_FAIL))

/-- A generation that sends nothing (R404).
DEDUCED, unsafe (notes/assumptions/43.md). -/
def State.genFail (s : State) (n : Nat) : State :=
  ((s.inc (pMSEC 0) Cn.MSEC_GEN_FAIL).raise (pMSEC 0) Iq.MSEC_AUTH_GEN_FAIL).errRun (pMSEC 0) Er.MSEC_AUTH_GEN_FAIL n n

/-- Generate the trailer of a payload under profile `n` (R402 steps 2 and 3), or none.
DEDUCED, unsafe (notes/assumptions/43.md). -/
def State.authGen (s : State) (n id : Nat) (payload : List Nat) : Option (List Nat) × State :=
  if !(s.profOk n 1) then (none, (s.profCount n En.PCNT_OTHER).genFail n)
  else
    let slot := s.prof n En.PROF_FRESH
    match s.keyUse (s.prof n En.PROF_KEY) with
    | (none, s) => (none, (s.profCount n En.PCNT_OTHER).genFail n)
    | (some key, s) =>
      let v := s.fresh slot
      if s.entF (pMSEC 0) 1 0 slot En.FRSH_EXHAUSTED = 1 then (none, s.genFail n)
      else if v + 1 = 2 ^ 64 then (none, (s.setEntF (pMSEC 0) 1 0 slot En.FRSH_EXHAUSTED 1).genFail n)
      else
        let s := (s.setFresh slot (v + 1)).endRun (pMSEC 0) Er.MSEC_AUTH_GEN_FAIL n
        let tag := s.tagOf n key id payload (v + 1)
        (some (s.trailer n tag (v + 1)), (s.profCount n En.PCNT_OK).inc (pMSEC 0) Cn.MSEC_TAGS_GEN)

end Sys2Proof.Machine
end

