-- ==== Sys2Proof/Machine/Operands.lean ====
section
/-!
DEFINITION. What the operands of a register access name (R23, R42, R96, R503): the words a byte range touches, the entry of a
register array, the field of a written word, the word queue behind a register, and whether the line die holds it.
-/

namespace Sys2Proof.Machine

/-- A field of a written word. -/
def wf (v : Nat) (f : Fld) : Nat := fget (BitVec.ofNat 32 v) f

/-- The index of offset `off` in a register array, or none. -/
def arrIx (off base stride count : Nat) : Option Nat :=
  if base ≤ off && (off - base) % stride = 0 && (off - base) / stride < count then some ((off - base) / stride) else none

/-- The words that a read of `bits` bits at byte address `a` touches: the first, and whether there is a second. -/
def spanWords (a bits : Nat) : Nat × Bool := (a / 4 * 4, 4 < a % 4 + (bits + 7) / 8)

/-- The word queue behind a register, if it is one (R96). -/
def queueAt (p off : Nat) : Option Nat :=
  match pageRow p with
  | some (r, i, _) =>
    match r.blk with
    | .canc => if off = Reg.CANC_RXQ then some i else none
    | .linc => if off = Reg.LINC_RXQ then some (24 + i) else none
    | .ser => if off = Reg.SER_RXQ then some (32 + i) else none
    | .srt => if off = Reg.SRT_EVQ && isControlPage p then some 36 else none
    | .log => if off = Reg.LOG_FIFO && isControlPage p then some 37 else none
    | _ => none
  | none => none

/-- The page offset of the register of word queue `k` (R96). -/
def queueOff (k : Nat) : Nat :=
  if k < 24 then Reg.CANC_RXQ else if k < 32 then Reg.LINC_RXQ else if k < 36 then Reg.SER_RXQ
  else if k = 36 then Reg.SRT_EVQ else Reg.LOG_FIFO

/-- The register at offset `off` of page `p` is held by the line die and reached over the management link. -/
def onLineDie (p off : Nat) : Bool :=
  (p = pLINE && 0x040 ≤ off && off < 0x800) || (p = pPWR && off = Reg.PWR_TIMER)
    || (p = pNM && (off = Reg.NM_T1S_ACT || (Reg.NM_WAKEIN ≤ off && off < Reg.NM_WAKEIN + 32)))

end Sys2Proof.Machine
end

