-- ==== Sys2Proof/Machine/FaultLog.lean ====
section
/-!
DEFINITION. The fault log (R505 to R518): acceptance, merging, the circular buffer, the paths an entry takes, the parity
error, and the device watchdog's kick and warning. The watchdog's reset stage is in Startup.
-/

namespace Sys2Proof.Machine

/-- The severity of a code (Table 3, R510). -/
def sevOfCode (code : Nat) : Nat := sevOf code

/-- The 32 bytes of a log entry (Table 1). -/
def logBytes (r : Report) (seq : Nat) : List Nat :=
  leBytes 8 r.stamp ++ leBytes 2 r.frac ++ leBytes 2 r.code
    ++ [sevOf r.code + 8 * b2n r.coarse + 16 * b2n r.lost + 32 * b2n r.latched, r.src % 8]
    ++ leBytes 2 seq ++ leBytes 2 r.page ++ leBytes 2 0 ++ leBytes 4 r.arg0 ++ leBytes 4 r.arg1 ++ leBytes 4 0

/-- Fields of a log entry in its window form (R115: byte j in bits [8j+7:8j]). -/
def leStamp (e : Entry) : Nat := bitsOf e 0 64
def leCode (e : Entry) : Nat := bitsOf e 80 16
def lePage (e : Entry) : Nat := bitsOf e 128 16
def leRepeat (e : Entry) : Nat := bitsOf e 144 16
def leArg0 (e : Entry) : Nat := bitsOf e 160 32

/-- The index of the newest stored entry. -/
def State.logNewest (s : State) : Nat := (s.fld pLOG Fd.LOG_STATUS_HEAD + 1023) % 1024

/-- The report merges into the newest entry (R507). -/
def State.logMerges (s : State) (r : Report) : Bool :=
  let e := s.ent pLOG 0 0 s.logNewest
  let us := s.fld pLOG Fd.LOG_CFG_MERGE_US
  us ≠ 0 && s.fld pLOG Fd.LOG_STATUS_COUNT ≠ 0 && leCode e = r.code && lePage e = r.page && leArg0 e = r.arg0 % 2 ^ 32
    && r.stamp ≤ leStamp e + us * 1000 && leRepeat e < 65535

/-- The first overwrite or discard after a clear raises OVERFLOW (R508). -/
def State.logOverflow (s : State) : State :=
  if s.logOvf then s else { s.raise pLOG Iq.LOG_OVERFLOW with logOvf := true }

/-- Store an entry at HEAD, overwriting the oldest or discarding it when the buffer is full (R508). -/
def State.logStore (s : State) (bytes : List Nat) : State :=
  let n := s.fld pLOG Fd.LOG_STATUS_COUNT
  let h := s.fld pLOG Fd.LOG_STATUS_HEAD
  if n = 1024 && s.flag pLOG Fd.LOG_CFG_OVF_MODE then (s.inc pLOG Cn.LOG_DISCARDED).logOverflow
  else
    let full := n = 1024
    let s := (s.setEnt pLOG 0 0 h (bytesToEntry bytes)).inc pLOG Cn.LOG_ENTRIES
    let s := s.setFld pLOG Fd.LOG_STATUS_HEAD ((h + 1) % 1024)
    let s := if h = 1023 then s.setFlag pLOG Fd.LOG_STATUS_WRAPPED true else s
    if full then (s.inc pLOG Cn.LOG_OVERWRITTEN).logOverflow else s.setFld pLOG Fd.LOG_STATUS_COUNT (n + 1)

/-- The paths of an entry: FIFO, interrupt, pin, Transcript and Quotation, each independently (R511, R512). -/
def State.logPaths (s : State) (r : Report) (bytes : List Nat) : State :=
  let sev := sevOf r.code
  let s := if s.fld pLOG Fd.LOG_CFG_FIFO_SEV ≤ sev then s.wqPut 37 ((sev * 65536 + r.code) :: packWords bytes) else s
  let s := if s.fld pLOG Fd.LOG_CFG_IRQ_SEV ≤ sev then s.raise pLOG Iq.LOG_ENTRY else s
  let s := if sev = 5 then s.raise pLOG Iq.LOG_CRITICAL else s
  let s := if s.fld pLOG Fd.LOG_CFG_PIN_SEV ≤ sev then s.setFlag pLOG Fd.LOG_STATUS_PIN true else s
  let s := if s.flag pTRN Fd.TRN_TAP_MISC_FAULT then s.tap false 0x31 0 r.stamp (b2n r.coarse) bytes else s
  let m := s.fld pTRN Fd.TRN_QCFG_SEV_MIN
  if m ≠ 0 && m ≤ sev then s.quote 6 r.stamp (r.code % 256) else s

/-- Accept one report (R505 to R511). -/
def State.logAccept (s : State) (r : Report) : State :=
  let sev := sevOf r.code
  let s := s.inc pLOG (Cn.LOG_SEV1 + 8 * (sev - 1))
  let s := s.setFld pLOG Fd.LOG_MAXSEV_SEV (max (s.fld pLOG Fd.LOG_MAXSEV_SEV) sev)
  if s.logMerges r then
    let i := s.logNewest
    let e := s.ent pLOG 0 0 i
    (s.setEnt pLOG 0 0 i (putBits e 144 16 (leRepeat e + 1))).inc pLOG Cn.LOG_MERGED
  else
    let seq := s.fld pLOG Fd.LOG_SEQ_NEXT
    let bytes := logBytes r seq
    ((s.setFld pLOG Fd.LOG_SEQ_NEXT (seq + 1)).logStore bytes).logPaths r bytes

/-- FAULT_REPORT: the log accepts the oldest report of a page's buffer; which page it serves in a cycle is the operand
(R505).
DEDUCED, unsafe (notes/assumptions/69.md). -/
def execFaultReport (t page : Nat) (s : State) : Res :=
  always t s fun s =>
    if s.boot = .off then s
    else
      match s.reports.find? fun r => r.page = page with
      | some r => ({ s with reports := s.reports.erase r }).logAccept r
      | none => s

/-- LOG_PARITY: a parity error of a configuration register reloads it with its reset value; of a report path
(offset 0xFFFF_FFFF) it is only logged (R514). -/
def execLogParity (t page off : Nat) (s : State) : Res :=
  always t s fun s =>
    if s.boot = .off then s
    else
      let s := if off = 0xFFFFFFFF then s else
        let a := page * 4096 + off % 4096
        s.setReg a (resetWord a)
      s.err page Er.LOG_PARITY off

/-- CLEAR's effect: every entry goes, COUNT is 0 and the overflow run ends (R509).
DEDUCED, unsafe (notes/assumptions/69.md). -/
def State.logClearAll (s : State) : State :=
  let s := { s with tabs := smDrop (tkey pLOG 0 0 0) (tkey pLOG 0 0 1024) (fun _ => false) s.tabs, logOvf := false }
  (s.setFld pLOG Fd.LOG_STATUS_COUNT 0).setFlag pLOG Fd.LOG_STATUS_WRAPPED false

/-- PIN_ACK's effect: PIN clears outside the Interjection state (R511). -/
def State.logPinAck (s : State) : State :=
  if s.boot = .interjection then s else s.setFlag pLOG Fd.LOG_STATUS_PIN false

/-- A write of LOG_CLEAR. -/
def State.logClearWrite (s : State) (v : Nat) : State :=
  let s := if v.testBit 0 then s.logClearAll else s
  if v.testBit 1 then s.logPinAck else s

/-- CLEAR: a write of LOG_CLEAR.CLEAR = 1 (R509). -/
def execLogClear (t d : Nat) (s : State) : Res :=
  live t s fun s => s.judged d (pLOG * 4096 + Reg.LOG_CLEAR) 32 1 fun s => s.logClearWrite 1

/-- PIN_ACK: a write of LOG_CLEAR.PIN_ACK = 1 (R511). -/
def execPinAck (t d : Nat) (s : State) : Res :=
  live t s fun s => s.judged d (pLOG * 4096 + Reg.LOG_CLEAR) 32 2 fun s => s.logClearWrite 2

/-! ### The device watchdog (R515, R516) -/

/-- The first deadline D1. -/
def State.wdogD1 (s : State) : Nat := s.wdogBase + s.fld pLOG Fd.LOG_WDOG_CFG_WARN_MS * 1000000

/-- The second deadline D2. -/
def State.wdogD2 (s : State) : Nat := s.wdogD1 + s.fld pLOG Fd.LOG_WDOG_CFG_RESET_MS * 1000000

/-- The first stage acts: WARNED, WDOG_WARN, and LOG_WDOG_WARN stamped D1. -/
def State.wdogWarn (s : State) : State :=
  let s := ((s.setFld pLOG Fd.LOG_WDOG_STAT_STAGE 2).inc pLOG Cn.LOG_WDOG_WARNS).raise pLOG Iq.LOG_WDOG_WARN
  s.errAt pLOG Er.LOG_WDOG_WARN 0 0 s.wdogD1

/-- The watchdog starts a new first stage now, or is off with WARN_MS = 0. -/
def State.wdogStart (s : State) : State :=
  { s.setFld pLOG Fd.LOG_WDOG_STAT_STAGE (b2n (s.fld pLOG Fd.LOG_WDOG_CFG_WARN_MS ≠ 0)) with wdogBase := s.now }

/-- An accepted write of LOG_WDOG_KICK by domain `d`: the right key restarts the watchdog when it comes at or before D2; a
kick after D1 leaves the warning to act first (R515, R516). -/
def State.logKickWrite (s : State) (d v : Nat) : State :=
  if v / 65536 % 65536 ≠ 0x71C5 then s.refuse d (pLOG * 4096 + Reg.LOG_WDOG_KICK) v Er.REG_BAD_VALUE
  else if s.boot ≠ .ready || s.fld pLOG Fd.LOG_WDOG_STAT_STAGE = 0 then s
  else
    let s := if s.fld pLOG Fd.LOG_WDOG_STAT_STAGE = 1 && s.wdogD1 < s.now then s.wdogWarn else s
    if s.fld pLOG Fd.LOG_WDOG_CFG_RESET_MS ≠ 0 && s.wdogD2 < s.now then s else s.wdogStart

/-- LOG_WDOG_KICK: domain `d` writes LOG_WDOG_KICK. -/
def execLogWdogKick (t d v : Nat) (s : State) : Res :=
  live t s fun s => s.judged d (pLOG * 4096 + Reg.LOG_WDOG_KICK) 32 v fun s => s.logKickWrite d v

/-- LOG_WDOG_WARN: 4 µs after D1 without a kick (R515). -/
def execLogWdogWarn (t : Nat) (s : State) : Res :=
  running t s fun s =>
    if s.fld pLOG Fd.LOG_WDOG_STAT_STAGE = 1 && s.wdogD1 + 4000 ≤ s.now then s.wdogWarn else s

end Sys2Proof.Machine
end

