-- ==== Sys2Proof/Machine/CanOps.lean ====
section
/-!
DEFINITION. The CAN controllers' shared operations (R81 to R115): timing check, arbitration order, transmit buffers and
their settlement, the router transmit queue, modes, event items and bus-off.
-/

namespace Sys2Proof

/-! ### Frames and formats -/

/-- The format has a 29-bit identifier. -/
def CanFrame.ext (f : CanFrame) : Bool := f.fmt = 1 || f.fmt = 3

/-- Valid payload lengths of a format (R101). -/
def canLenOk (fmt len : Nat) : Bool :=
  if fmt ≤ 1 then len ≤ 8
  else if fmt ≤ 3 then len ≤ 8 || [12, 16, 20, 24, 32, 48, 64].contains len
  else 1 ≤ len && len ≤ 2048

/-- The identifier as it goes on the bus (R101). -/
def CanFrame.busId (f : CanFrame) : Nat := if f.ext then f.id % 2 ^ 29 else f.id % 2 ^ 11

/-- The arbitration field as a number: the lower wins (R104). Base identifier, RTR or SRR, IDE, identifier extension,
RTR. -/
def CanFrame.arbKey (f : CanFrame) : Nat :=
  if f.ext then f.busId / 2 ^ 18 * 2 ^ 21 + 2 ^ 20 + 2 ^ 19 + f.busId % 2 ^ 18 * 2 + Machine.b2n f.rtr
  else f.busId * 2 ^ 21 + Machine.b2n (f.rtr && f.fmt = 0) * 2 ^ 20

end Sys2Proof

namespace Sys2Proof.Machine

/-! ### What a controller holds -/

/-- What a controller holds. -/
def State.can (s : State) (n : Nat) : Can := smGet {} n s.cans

def State.setCan (s : State) (n : Nat) (c : Can) : State := { s with cans := smSet {} n c s.cans }

/-- CANC_MODE.CUR. -/
def State.canMode (s : State) (n : Nat) : Nat := s.fld (pCANC n) Fd.CANC_MODE_CUR

/-- The on-bus modes (R111): INTEGRATING, NORMAL, LISTEN, ELLIPSIS, LOOP_INT, LOOP_EXT and ARD. -/
def canOnBus (m : Nat) : Bool := (1 ≤ m && m ≤ 6) || m = 8

/-- Modes that transmit frames (R89, R110): NORMAL, LOOP_INT and LOOP_EXT. -/
def canSends (m : Nat) : Bool := m = 1 || m = 4 || m = 5

/-- Modes in which TEC, REC and the error state change (R108). -/
def canCounts (m : Nat) : Bool := m = 1 || m = 5

/-- Change the mode; leaving ELLIPSIS and the like changes nothing else. -/
def State.setCanMode (s : State) (n m : Nat) : State := s.setFld (pCANC n) Fd.CANC_MODE_CUR m

/-- The mode the channel is to be in: ELLIPSIS while the keep-alive engine holds it, else MODE.REQ (R110). -/
def State.canWants (s : State) (n : Nat) : Nat :=
  if s.flag (pCANC n) Fd.CANC_MODE_NM_HELD then 3 else s.fld (pCANC n) Fd.CANC_MODE_REQ

/-- The format is enabled on the channel. -/
def State.canFmtOn (s : State) (n fmt : Nat) : Bool :=
  fmt ≤ 1 || (fmt ≤ 3 && s.flag (pCANC n) Fd.CANC_CFG_FD_EN) || (fmt = 4 && s.flag (pCANC n) Fd.CANC_CFG_XL_EN)

/-! ### Bit timing (R85) -/

/-- Time quanta of a bit in mtq, when TSEG1 is at least 2 and SJW is no larger than TSEG2. -/
def bitMtq (brp tseg1 tseg2 sjw : Nat) : Option Nat :=
  if 2 ≤ tseg1 + 1 && sjw ≤ tseg2 then some ((brp + 1) * (1 + (tseg1 + 1) + (tseg2 + 1))) else none

/-- The checks of R85 on the three timing words. -/
def State.canTimingOk (s : State) (n : Nat) (nb db xb : Word) : Bool :=
  let p := pCANC n
  let data := fun w => bitMtq (fget w Fd.CANC_DBTIM_DBRP) (fget w Fd.CANC_DBTIM_DTSEG1) (fget w Fd.CANC_DBTIM_DTSEG2) (fget w Fd.CANC_DBTIM_DSJW)
  match bitMtq (fget nb Fd.CANC_NBTIM_NBRP) (fget nb Fd.CANC_NBTIM_NTSEG1) (fget nb Fd.CANC_NBTIM_NTSEG2) (fget nb Fd.CANC_NBTIM_NSJW) with
  | none => false
  | some q =>
    let fd := match data db with
      | some d => d ≤ q && 10 ≤ d
      | none => false
    let xl := match data xb with
      | some x => x ≤ q && (if s.flag p Fd.CANC_XLCFG_FAST_EN then 4 else 10) ≤ x
      | none => false
    80 ≤ q && q ≤ 8000 && (!(s.flag p Fd.CANC_CFG_FD_EN) || fd) && (!(s.flag p Fd.CANC_CFG_XL_EN) || xl)

/-- The timing registers pass R85. -/
def State.canTiming (s : State) (n : Nat) : Bool :=
  let p := pCANC n * 4096
  s.canTimingOk n (s.reg (p + Reg.CANC_NBTIM)) (s.reg (p + Reg.CANC_DBTIM)) (s.reg (p + Reg.CANC_XBTIM))

/-- The object range overlaps that of another controller not in OFF (R92). -/
def State.canOverlap (s : State) (n : Nat) : Bool :=
  let base := fun k => s.fld (pCANC k) Fd.CANC_OBJ_RANGE_BASE
  let count := fun k => s.fld (pCANC k) Fd.CANC_OBJ_RANGE_COUNT
  (List.range 24).any fun k => k ≠ n && s.canMode k ≠ 15 && base n < base k + count k && base k < base n + count n

/-- The checks made when MODE.REQ leaves STOP, or a stored request takes effect: none, CAN_TIMING or CAN_OBJ_OVERLAP.
DEDUCED, unsafe (notes/assumptions/29.md). -/
def State.canReqCheck (s : State) (n : Nat) : Option Nat :=
  if !(s.canTiming n) then some Er.CAN_TIMING else if s.canOverlap n then some Er.CAN_OBJ_OVERLAP else none

/-! ### Event items (Table 5) -/

/-- Queue an event item and, when its tap is on, a CAN_EVENT record (Tables 2 and 11 of *Transcript and Quotation*). -/
def State.canEvent (s : State) (n ev stamp : Nat) : State :=
  let p := pCANC n
  let w0 := 2 * 2 ^ 30 + ev * 65536 + s.fld p Fd.CANC_ERR_REC * 256 + s.fld p Fd.CANC_ERR_TEC
  let ws := [w0, stamp % 2 ^ 32, stamp / 2 ^ 32]
  let s := s.wqPut n ws
  if s.flag pTRN Fd.TRN_TAP_MISC_CAN_EVENT && (s.fld pTRN Fd.TRN_TAP_CAN_RX).testBit n then
    s.tap false 0x11 n stamp s.coarseBit (ws.flatMap (leBytes 4))
  else s

/-! ### Host transmit buffers -/

/-- State of host buffer `b` in CANC_TXB_STAT. -/
def txbFld (b : Nat) : Fld := ⟨Reg.CANC_TXB_STAT, 4 * b, 4⟩

def State.txbState (s : State) (n b : Nat) : Nat := s.fld (pCANC n) (txbFld b)

def State.setTxbState (s : State) (n b x : Nat) : State := s.setFld (pCANC n) (txbFld b) x

def State.txb (s : State) (n b : Nat) : Txb := smGet {} b (s.can n).txb

def State.setTxb (s : State) (n b : Nat) (x : Txb) : State :=
  let c := s.can n
  s.setCan n { c with txb := smSet {} b x c.txb }

/-- The frame that the header and data of buffer `b` describe; FORMAT alone decides the identifier kind (R101). ESI
follows the error state. -/
def State.txbFrame (s : State) (n b : Nat) : CanFrame :=
  let p := pCANC n
  let h := s.ent p 2 0 b
  let fmt := fget h En.TXH_FORMAT
  let len := fget h En.TXH_LENGTH
  let rtr := fget h En.TXH_RTR = 1
  let bytes := (List.range ((len + 31) / 32)).flatMap fun k => entryToBytes (s.ent p 3 0 (64 * b + k))
  let id := fget h En.TXH_ID
  { fmt := fmt, rtr := rtr, id := if fmt = 1 || fmt = 3 then id else id % 2 ^ 11, len := len
    brs := fget h En.TXH_BRS = 1, esi := (fmt = 2 || fmt = 3) && s.fld p Fd.CANC_ERR_STATE = 1
    data := if rtr then [] else bytes.take len
    vcid := if fmt = 4 then fget h En.TXH_VCID else 0, sdt := if fmt = 4 then fget h En.TXH_SDT else 0
    sec := fmt = 4 && fget h En.TXH_SEC = 1, af := if fmt = 4 then fget h En.TXH_AF else 0 }

/-- A buffer reaches a final state: TXB_DONE to the host, unless the keep-alive engine holds buffer 2; a buffer that waits
to change hands changes them (R352, Table 6). -/
def State.txbFinal (s : State) (n b st : Nat) : State :=
  let c := s.can n
  let s := (s.setTxb n b {}).setTxbState n b st
  if b ≠ 2 || c.nmBuf = 0 then s.raise (pCANC n) (Iq.CANC_TXB_DONE + b)
  else if c.nmBuf = 1 then
    let s := s.raise (pCANC n) (Iq.CANC_TXB_DONE + b)
    s.setCan n { s.can n with nmBuf := 2 }
  else if c.nmBuf = 3 then
    let s := (s.setTxbState n 2 0).setEnt (pCANC n) 2 0 2 0
    let s := foldN 64 (fun k s => s.setEnt (pCANC n) 3 0 (128 + k) 0) s
    s.setCan n { s.can n with nmBuf := 0 }
  else s

/-- A cancel of buffer `b` stamped `c` (R107): a PENDING buffer, or an ACTIVE one whose start stamp is not before `c`, is
CANCELLED without SOF; another ACTIVE one keeps the cancel stamp for its end. -/
def State.txbCancel (s : State) (n b c : Nat) : State :=
  if s.txbState n b = 1 then s.txbFinal n b 4
  else if s.txbState n b = 2 then
    match (s.can n).attempt with
    | some a =>
      if a.src = b && c ≤ a.start then (s.setCan n { s.can n with attempt := none }).txbFinal n b 4
      else
        let x := s.txb n b
        s.setTxb n b { x with cancel := some (match x.cancel with | some k => min k c | none => c) }
    | none => s
  else s

/-- A REQ of buffer `b`: the code that refuses it, or none (R101). -/
def State.txbReqCheck (s : State) (n b : Nat) : Option Nat :=
  let h := s.ent (pCANC n) 2 0 b
  let fmt := fget h En.TXH_FORMAT
  let st := s.txbState n b
  if st = 1 || st = 2 then some Er.CAN_TXB_LOCKED
  else if fget h En.TXH_VALID = 0 || 4 < fmt || !(canLenOk fmt (fget h En.TXH_LENGTH)) || (fget h En.TXH_RTR = 1 && 1 < fmt)
      || !(s.canFmtOn n fmt) then some Er.REG_BAD_VALUE
  else none

/-- The buffer becomes PENDING with its enqueue stamp. -/
def State.txbPend (s : State) (n b : Nat) : State := (s.setTxb n b { enq := s.now }).setTxbState n b 1

/-- The keep-alive engine may not lose buffer 2 to the host (R351). -/
def State.nmOwnsTxb (s : State) (n b : Nat) : Bool := b = 2 && s.entF pNM 0 0 n En.NMCH_NM_TX = 1

/-- A write of CANC_TXB_CMD: CANCEL bits first, then REQ bits, each judged on its own; the first refusal is latched, every
refusal is logged (R101, R351). -/
def State.txbCmd (s : State) (d n v : Nat) : State :=
  let a := pCANC n * 4096 + Reg.CANC_TXB_CMD
  let cancel := fun b (s : State) =>
    if !(v.testBit (8 + b)) then s
    else if s.nmOwnsTxb n b then s.refuse d a v Er.REG_BAD_VALUE
    else s.txbCancel n b s.now
  let req := fun b (s : State) =>
    if !(v.testBit b) then s
    else if s.nmOwnsTxb n b then s.refuse d a v Er.REG_BAD_VALUE
    else match s.txbReqCheck n b with
      | some c => if c = Er.CAN_TXB_LOCKED then s.errBy d (pCANC n) c b v else s.refuse d a v c
      | none => s.txbPend n b
  foldN 3 req (foldN 3 cancel s)

/-! ### The router transmit queue (R103) -/

/-- RTQ_STAT follows the queue. -/
def State.setRtq (s : State) (n : Nat) (q : List Rtq) : State :=
  let s := s.setCan n { s.can n with rtq := q }
  (s.setFld (pCANC n) Fd.CANC_RTQ_STAT_LEVEL q.length).setFlag (pCANC n) Fd.CANC_RTQ_STAT_FULL (q.length = 32)

/-- Is an entry into the queue refused? In OFF, BUS_OFF and RECOVERING always; otherwise when 32 frames wait. -/
def State.rtqRefuses (s : State) (n : Nat) : Bool :=
  let m := s.canMode n
  m = 15 || m = 9 || m = 10 || 32 ≤ (s.can n).rtq.length

/-- Enter a frame, or raise RTQ_FULL when the queue is full and the channel not off. -/
def State.rtqEnter (s : State) (n : Nat) (f : CanFrame) (stamp ctm : Nat) : State :=
  let m := s.canMode n
  if m = 15 || m = 9 || m = 10 then s
  else if 32 ≤ (s.can n).rtq.length then s.raise (pCANC n) Iq.CANC_RTQ_FULL
  else s.setRtq n ((s.can n).rtq ++ [⟨f, stamp, 0, ctm⟩])

/-- Entry `a` goes before entry `b`: it wins arbitration, or has identical arbitration fields and the earlier stamp. -/
def rtqBefore (a b : Rtq) : Bool :=
  a.frame.arbKey < b.frame.arbKey || (a.frame.arbKey = b.frame.arbKey && a.stamp < b.stamp)

/-- The head: the entry no other goes before, the earliest entered of equals. -/
def rtqHead : List Rtq → Option Rtq
  | [] => none
  | a :: l => match rtqHead l with
    | some b => if rtqBefore b a then some b else some a
    | none => some a

/-- The candidate among PENDING host buffers (R102). -/
def State.txbCandidate (s : State) (n : Nat) : Option Nat :=
  let pend := (List.range 3).filter fun b => s.txbState n b = 1
  if s.flag (pCANC n) Fd.CANC_CFG_TX_ORDER then pend.head?
  else
    let before := fun a b =>
      let x := (s.txbFrame n a).arbKey
      let y := (s.txbFrame n b).arbKey
      x < y || (x = y && (s.txb n a).enq < (s.txb n b).enq)
    pend.foldl (fun best b => match best with
      | some a => if before b a then some b else some a
      | none => some b) none

/-- The choice before an arbitration (R104): the host candidate or the router-queue head. -/
def State.canChoose (s : State) (n : Nat) : Option Attempt :=
  let host := (s.txbCandidate n).map fun b => (⟨b, none, s.txbFrame n b, s.now, false⟩ : Attempt)
  let rtq := (rtqHead (s.can n).rtq).map fun r => (⟨3, some r, r.frame, s.now, false⟩ : Attempt)
  match host, rtq with
  | some h, some r =>
    let hk := h.frame.arbKey
    let rk := r.frame.arbKey
    let enq := (s.txb n h.src).enq
    let stamp := match r.ent with
      | some e => e.stamp
      | none => 0
    if hk < rk || (hk = rk && enq < stamp) then some h else some r
  | some h, none => some h
  | none, r => r

/-- A reference message that leaves the queue unsent is no longer pending (R77). -/
def State.ctmGone (s : State) (r : Rtq) : State :=
  if r.ctm = 0 then s else s.setFlag pTIME (Fd.TIME_CTM_STATUS_PENDING.at 0x10 (r.ctm - 1)) false

/-- Flush the router queue; each frame counts in RTQ_FLUSH. -/
def State.rtqFlush (s : State) (n : Nat) : State :=
  let q := (s.can n).rtq
  q.foldl State.ctmGone ((s.addCnt (pCANC n) Cn.CANC_RTQ_FLUSH q.length).setRtq n [])

/-! ### Error counters -/

/-- Warning sources latch when a counter reaches its threshold (R108). -/
def State.canWarn (s : State) (n tec0 rec0 : Nat) : State :=
  let p := pCANC n
  let edge := fun old new th => old < th && th ≤ new
  let tec := s.fld p Fd.CANC_ERR_TEC
  let rec' := s.fld p Fd.CANC_ERR_REC
  let s := if edge tec0 tec (s.fld p Fd.CANC_EWL_TEC_WARN) then s.raise p Iq.CANC_TEC_WARN else s
  if edge rec0 rec' (s.fld p Fd.CANC_EWL_REC_WARN) then s.raise p Iq.CANC_REC_WARN else s

/-- Bus-off handling (R106): the router queue is flushed, host buffers fail or stay, and recovery starts by itself with
AUTO_RECOVER = 1. -/
def State.canBusOff (s : State) (n : Nat) : State :=
  let p := pCANC n
  let s := (s.setFld p Fd.CANC_ERR_STATE 2).setCan n { s.can n with attempt := none }
  let s := ((s.inc p Cn.CANC_BUS_OFF).raise p Iq.CANC_BUS_OFF).err p Er.CAN_BUS_OFF n
  let s := s.canEvent n 3 s.now
  let s := if (s.can n).rtq.isEmpty then s else (s.rtqFlush n).err p Er.CAN_RTQ_FLUSH n
  let s := foldN 3 (fun b s =>
    if s.txbState n b = 1 || s.txbState n b = 2 then
      if s.flag p Fd.CANC_CFG_BOFF_ABORT then s.txbFinal n b 6
      else match (s.txb n b).cancel with
        | some _ => s.txbFinal n b 4
        | none => s.setTxbState n b 1
    else s) s
  if s.flag p Fd.CANC_CFG_AUTO_RECOVER then (s.setCanMode n 10).setFld p Fd.CANC_ERR_STATE 3 else s.setCanMode n 9

/-- TEC and REC take new values in NORMAL or LOOP_EXT; the error state follows (Table 2). `tec` may exceed 255. -/
def State.canErrState (s : State) (n tec rec' : Nat) : State :=
  let p := pCANC n
  let tec0 := s.fld p Fd.CANC_ERR_TEC
  let rec0 := s.fld p Fd.CANC_ERR_REC
  let s := (s.setFld p Fd.CANC_ERR_TEC (min tec 255)).setFld p Fd.CANC_ERR_REC (min rec' 255)
  let s := s.canWarn n tec0 rec0
  if 255 < tec then s.canBusOff n
  else if s.fld p Fd.CANC_ERR_STATE = 0 && (128 ≤ tec || 128 ≤ rec') then
    let s := ((s.setFld p Fd.CANC_ERR_STATE 1).raise p Iq.CANC_ERR_PASSIVE).err p Er.CAN_ERR_PASSIVE n
    s.canEvent n 1 s.now
  else if s.fld p Fd.CANC_ERR_STATE = 1 && tec < 128 && rec' < 128 then (s.setFld p Fd.CANC_ERR_STATE 0).canEvent n 2 s.now
  else s

/-! ### Modes -/

/-- Automatic rate detection: candidate `i` is valid and its timing passes R85 (R88). -/
def State.ardOk (s : State) (n i : Nat) : Bool :=
  let e := s.ent (pCANC n) 4 0 i
  bitsOf e 0 1 = 1 && s.canTimingOk n (BitVec.ofNat 32 (bitsOf e 1 32)) (BitVec.ofNat 32 (bitsOf e 33 32))
    (s.reg (pCANC n * 4096 + Reg.CANC_XBTIM))

/-- ARD ends after ROUNDS passes: FAIL, the log, STOP (R87). -/
def State.ardFail (s : State) (n : Nat) : State :=
  (((s.setFlag (pCANC n) Fd.CANC_ARD_STATUS_FAIL true)).setCanMode n 0).err (pCANC n) Er.CAN_ARD_FAIL n

/-- Apply the next usable candidate from `i` on; past LAST a pass is complete. -/
def State.ardTry (s : State) (n i : Nat) : State :=
  let p := pCANC n
  let last := s.fld p Fd.CANC_ARD_CFG_LAST
  let ok := fun k => k ≤ last && s.ardOk n k
  let apply := fun k (s : State) =>
    (s.setFld p Fd.CANC_ARD_STATUS_INDEX k).setCan n { s.can n with ardMatch := 0, ardFrom := s.now }
  match (List.range 8).find? fun k => i ≤ k && ok k with
  | some k => apply k s
  | none =>
    let r := (s.can n).ardRound + 1
    let s := s.setCan n { s.can n with ardRound := r }
    if s.fld p Fd.CANC_ARD_CFG_ROUNDS ≤ r then s.ardFail n
    else match (List.range 8).find? ok with
      | some k => apply k s
      | none => s.ardFail n

/-- Enter a mode from integration or at bus idle; entering ARD starts the search (R87). -/
def State.canEnter (s : State) (n m : Nat) : State :=
  let s := s.setCanMode n m
  if m = 6 then
    let s := (s.setFlag (pCANC n) Fd.CANC_ARD_STATUS_FAIL false).setFlag (pCANC n) Fd.CANC_ARD_STATUS_LOCKED false
    let s := s.setCan n { s.can n with ardRound := 0 }
    s.ardTry n 0
  else s

/-- The channel freezes from its mode (R111). -/
def State.canFreezeNow (s : State) (n : Nat) : State :=
  let m := s.canMode n
  ((s.setCan n { s.can n with frozenFrom := m }).setCanMode n 11).setFlag (pCANC n) Fd.STATUS_FROZEN true

/-- Bus idle without a frame in flight: Comma, FREEZE or a changed request takes effect (Table 2). -/
def State.canIdle (s : State) (n : Nat) : State :=
  let m := s.canMode n
  if !(canOnBus m) || (s.can n).attempt.isSome then s
  else if (s.can n).comma then (s.setCan n { s.can n with commaMode := m }).setCanMode n 0
  else if s.frozen (pCANC n) then s.canFreezeNow n
  else if m ≠ 8 && s.canWants n ≠ m then s.canEnter n (s.canWants n)
  else s

/-- CTRL.FREEZE = 1 (R111): on-bus modes finish their frame first, STOP and the bus-off modes are held at once, OFF waits.
DEDUCED, unsafe (notes/assumptions/29.md). -/
def State.canFreeze (s : State) (n : Nat) : State :=
  let m := s.canMode n
  if m = 0 || m = 9 || m = 10 then s.canFreezeNow n else s

/-- CTRL.FREEZE = 0 (R111). -/
def State.canThaw (s : State) (n : Nat) : State :=
  if s.canMode n ≠ 11 then s
  else
    let s := s.setFlag (pCANC n) Fd.STATUS_FROZEN false
    let m := (s.can n).frozenFrom
    if canOnBus m then s.setCanMode n 8
    else if m = 9 || m = 10 then
      if s.flag (pCANC n) Fd.CANC_CFG_AUTO_RECOVER then (s.setCanMode n 10).setFld (pCANC n) Fd.CANC_ERR_STATE 3
      else (s.setCanMode n 9).setFld (pCANC n) Fd.CANC_ERR_STATE 2
    else s.setCanMode n 0

/-- Enter STOP from OFF; a FREEZE already set takes effect then (R111). -/
def State.canStop (s : State) (n : Nat) : State :=
  let s := s.setCanMode n 0
  if s.frozen (pCANC n) then s.canFreezeNow n else s

/-- The keep-alive engine holds the channel in ELLIPSIS (R110, R348): an on-bus channel changes at the next idle, one in
STOP integrates first. -/
def State.canHold (s : State) (n : Nat) : State :=
  let s := s.setFlag (pCANC n) Fd.CANC_MODE_NM_HELD true
  if s.canMode n = 0 && (s.canReqCheck n).isNone && !((s.can n).comma) then s.setCanMode n 8 else s

/-- The hold ends: the stored request is checked against the timing and ranges in force; one that fails puts the
controller in STOP (R110). -/
def State.canRelease (s : State) (n : Nat) : State :=
  if !(s.flag (pCANC n) Fd.CANC_MODE_NM_HELD) then s
  else
    let s := s.setFlag (pCANC n) Fd.CANC_MODE_NM_HELD false
    if canOnBus (s.canMode n) && s.canWants n ≠ 0 then
      match s.canReqCheck n with
      | some c => (s.setCanMode n 0).err (pCANC n) c n
      | none => s
    else s

/-- ENABLE = 0 and SOFT_RESET take the controller to OFF (R556): the frame in progress is abandoned, host buffers empty,
the router queue flushed, the error state cleared. -/
def State.canOff (s : State) (n : Nat) : State :=
  let p := pCANC n
  let s := (s.setCan n { s.can n with attempt := none, txb := [] }).rtqFlush n
  let s := s.wr p Reg.CANC_TXB_STAT 0
  let s := foldN 3 (fun b s => s.setEnt p 2 0 b 0) s
  let s := foldN 192 (fun k s => s.setEnt p 3 0 k 0) s
  let s := if (s.can n).nmBuf = 1 then s.setCan n { s.can n with nmBuf := 2 }
    else if (s.can n).nmBuf = 3 then s.setCan n { s.can n with nmBuf := 0 } else s
  let s := (((s.setFld p Fd.CANC_ERR_TEC 0).setFld p Fd.CANC_ERR_REC 0).setFld p Fd.CANC_ERR_LEC 0).setFld p Fd.CANC_ERR_STATE 0
  (s.setFlag p Fd.STATUS_FROZEN false).setCanMode n 15

/-- The domain that owns the page resets (R112): PENDING buffers are cancelled, ACTIVE ones settled at the reset; buffer 2
of the engine is left alone. -/
def State.canDomReset (s : State) (n : Nat) : State :=
  foldN 3 (fun b s => if s.nmOwnsTxb n b then s else s.txbCancel n b s.now) s

/-! ### Receive objects -/

/-- An object's header and data by absolute index: one memory for all controllers, held under the first CANC page. -/
def State.canObj (s : State) (a : Nat) : Entry := s.ent (pCANC 0) 0 0 a

def State.setCanObj (s : State) (a : Nat) (e : Entry) : State := s.setEnt (pCANC 0) 0 0 a e

/-- The object of the range that takes a frame: the lowest valid one with its XL, IDE and identifier (R93). -/
def State.canMatchObj (s : State) (n : Nat) (f : CanFrame) : Option Nat :=
  let base := s.fld (pCANC n) Fd.CANC_OBJ_RANGE_BASE
  (List.range (s.fld (pCANC n) Fd.CANC_OBJ_RANGE_COUNT)).find? fun i =>
    let e := s.canObj (base + i)
    let xl := f.fmt = 4
    fget e En.OBJ_VALID = 1 && decide (fget e En.OBJ_XL = 1) = decide xl
      && (if xl then fget e En.OBJ_ID % 2 ^ 11 = f.busId
          else decide (fget e En.OBJ_IDE = 1) = f.ext && (if f.ext then fget e En.OBJ_ID = f.busId else fget e En.OBJ_ID % 2 ^ 11 = f.busId))

/-- Write a frame into an object (R94). -/
def State.canObjWrite (s : State) (n i : Nat) (f : CanFrame) (sof eof : Nat) : State :=
  let a := s.fld (pCANC n) Fd.CANC_OBJ_RANGE_BASE + i
  let e := s.canObj a
  let was := fget e En.OBJ_NEW = 1
  let put := fun (x : Fld × Nat) (e : Entry) => fput e x.1 x.2
  let e := [(En.OBJ_SEC, b2n f.sec), (En.OBJ_AF, f.af), (En.OBJ_VCID, f.vcid), (En.OBJ_SDT, f.sdt), (En.OBJ_EOF_STAMP, eof),
    (En.OBJ_SOF_STAMP, sof), (En.OBJ_LENGTH, f.len), (En.OBJ_ESI, b2n f.esi), (En.OBJ_BRS, b2n f.brs), (En.OBJ_FORMAT, f.fmt),
    (En.OBJ_RTR, b2n f.rtr), (En.OBJ_NEW, 1), (En.OBJ_LOST, if was then 1 else fget e En.OBJ_LOST)].foldr put e
  let s := s.setCanObj a e
  let s := if f.rtr then s else
    (s.setEnt (pCANC 0) 1 0 (2 * a) (bytesToEntry f.data)).setEnt (pCANC 0) 1 0 (2 * a + 1) (bytesToEntry (f.data.drop 32))
  let s := if was then s.inc (pCANC n) Cn.CANC_OBJ_OVERWRITE else s
  if fget e En.OBJ_IRQ_EN = 1 then s.raise (pCANC n) Iq.CANC_RX_OBJ else s

/-! ### Queue items (Table 4) -/

/-- Word 1 of an item. -/
def canWord1 (f : CanFrame) : Nat := b2n f.esi * 2 ^ 31 + b2n f.brs * 2 ^ 30 + b2n f.ext * 2 ^ 29 + f.busId

/-- One item: type, SEG, LAST, SEGNO field, and the data bytes it carries; `xl` adds the two CAN XL words.
DEDUCED, safe (notes/assumptions/30.md). -/
def canItem (typ : Nat) (seg last : Bool) (segno : Nat) (f : CanFrame) (sof eof : Nat) (xl : Bool) (bytes : List Nat) : List Nat :=
  let body := [canWord1 f, sof % 2 ^ 32, sof / 2 ^ 32, eof % 2 ^ 32, eof / 2 ^ 32]
    ++ (if xl then [f.vcid * 65536 + f.sdt * 256 + b2n f.sec, f.af] else []) ++ packWords bytes
  (typ * 2 ^ 30 + b2n seg * 2 ^ 28 + b2n last * 2 ^ 27 + f.fmt * 2 ^ 24 + b2n f.rtr * 2 ^ 23 + (body.length + 1) * 2 ^ 17
    + segno * 2 ^ 12 + f.len) :: body

/-- Queue `left` segments of a long CAN XL frame from number `k` on, 64 bytes each; once one is dropped the rest are
dropped too (R96, R98). In a TX echo the SEGNO field names the source.
DEDUCED, safe (notes/assumptions/30.md). -/
def State.canSegs (s : State) (n typ src : Nat) (f : CanFrame) (sof eof : Nat) : Nat → Nat → State
  | 0, _ => s
  | left + 1, k =>
    let it := canItem typ true (left = 0) (if typ = 1 then src else k) f sof eof (k = 0) ((f.data.drop (64 * k)).take 64)
    let drops := ((s.wq n).room it.length).isNone
    if drops then s.wqPut n it else (s.wqPut n it).canSegs n typ src f sof eof left (k + 1)

/-- Queue a frame: one item, or the segments of a CAN XL frame longer than 64 bytes (R96). -/
def State.canQueue (s : State) (n typ src : Nat) (f : CanFrame) (sof eof : Nat) : State :=
  if f.fmt = 4 && 64 < f.len then s.canSegs n typ src f sof eof ((f.len + 63) / 64) 0
  else s.wqPut n (canItem typ false true (if typ = 1 then src else 0) f sof eof (f.fmt = 4) f.data)

/-- The host path of a received frame (R93). -/
def State.canHost (s : State) (n : Nat) (f : CanFrame) (sof eof : Nat) : State :=
  if f.fmt = 4 && 64 < f.len then s.canQueue n 0 0 f sof eof
  else match s.canMatchObj n f with
    | some i => s.canObjWrite n i f sof eof
    | none =>
      if s.flag (pCANC n) Fd.CANC_CFG_RXQ_UNMATCHED then s.canQueue n 0 0 f sof eof else s.inc (pCANC n) Cn.CANC_UNMATCHED

/-- The payload of a CAN record (R322). -/
def canRecPayload (f : CanFrame) (sof eof : Nat) : List Nat :=
  leBytes 4 (canWord1 f) ++ leBytes 4 (f.fmt + 8 * b2n f.rtr + 256 * f.sdt + 65536 * f.vcid + 2 ^ 24 * b2n f.sec)
    ++ leBytes 4 f.af ++ leBytes 4 (eof - sof) ++ f.data

/-- The channel's stamp of an edge: less 12 ns on channels 0 to 15 (R90). -/
def canStamp (n edge : Nat) : Nat := if n < 16 then edge - 12 else edge

end Sys2Proof.Machine
end

