-- ==== Sys2Proof/Machine/RouterIn.lean ====
section
/-!
DEFINITION. The signal router's input queue and event items (R139, R171, R173), which the field-bus controllers and the
router share.
-/

namespace Sys2Proof.Machine

/-- The router's own state. -/
def State.setSrt (s : State) (r : Srt) : State := { s with srt := r }

/-- Event item of the router (Table 10): queued, raised by its interrupt source when it has one, and recorded when the
router tap is on. -/
def State.srtEvent (s : State) (ev route stamp map ch dst : Nat) (auth : Bool) : State :=
  let ws := [2 * 2 ^ 30 + b2n auth * 2 ^ 28 + ev * 65536 + route, stamp % 2 ^ 32, stamp / 2 ^ 32 % 2 ^ 32, map * 65536 + ch % 256 * 256 + dst % 256]
  let s := s.wqPut 36 ws
  let bit := match ev with
    | 1 => some Iq.SRT_TIMEOUT
    | 2 => some Iq.SRT_LATE
    | 4 => some Iq.SRT_SRC_CLASH
    | 6 => some Iq.SRT_DISAGREE
    | 7 => some Iq.SRT_AUTH_FAIL
    | 8 => some Iq.SRT_MATCH
    | 9 => some Iq.SRT_DST_FULL
    | 10 => some Iq.SRT_INQ_OVF
    | 11 => some Iq.SRT_SEQ_GAP
    | _ => none
  let s := match bit with
    | some b => s.raise pSRT b
    | none => s
  if s.flag pTRN Fd.TRN_TAP_MISC_ROUTER then s.tap false 0x20 0 stamp s.coarseBit (ws.flatMap (leBytes 4) ++ (match s.srt.avtp with | some a => leBytes 4 a | none => [])) else s

/-- The level of the input queue follows (SRT_INQ_STAT). -/
def State.srtLevel (s : State) : State :=
  let n := s.srt.field.length + s.srt.tunnel.length
  (s.setFld pSRT Fd.SRT_INQ_STAT_LEVEL n).setFld pSRT Fd.SRT_INQ_STAT_PEAK (max n (s.fld pSRT Fd.SRT_INQ_STAT_PEAK))

/-- An input reaches the router: discarded without count while the router is disabled (R557), lost when 1,024 wait (R171),
else held.
DESIGN CHOICE, safe (notes/assumptions/13.md). -/
def State.srtPut (s : State) (x : RIn) : State :=
  if !(s.enabled pSRT) then s
  else if 1024 ≤ s.srt.field.length + s.srt.tunnel.length then
    ((s.inc pSRT Cn.SRT_INQ_OVF).srtEvent 10 0 x.stamp 0 x.ch 0 false).errRun pSRT Er.SRT_INQ_OVF 0 0
  else
    let r := s.srt
    let r := if x.kind = 3 then { r with tunnel := r.tunnel ++ [x] } else { r with field := r.field ++ [x] }
    ((s.setSrt r).srtLevel).endRun pSRT Er.SRT_INQ_OVF 0

end Sys2Proof.Machine
end

