-- ==== Sys2Proof/Machine/LinOps.lean ====
section
/-!
DEFINITION. The LIN channels' shared operations (R116 to R124): event items, mode changes, sleep and wake pulses, frame
ends, which the commands of the channels and the keep-alive engine use.
-/

namespace Sys2Proof.Machine

def State.lin (s : State) (n : Nat) : Lin := smGet {} n s.lins

def State.setLin (s : State) (n : Nat) (x : Lin) : State := { s with lins := smSet {} n x s.lins }

/-- LINC_MODE.CUR: 0 STOP, 1 RUN, 2 SLEEP, 11 FROZEN, 15 OFF. -/
def State.linMode (s : State) (n : Nat) : Nat := s.fld (pLINC n) Fd.LINC_MODE_CUR

def State.setLinMode (s : State) (n m : Nat) : State := s.setFld (pLINC n) Fd.LINC_MODE_CUR m

/-- LINC_CFG.ROLE: 0 master, 1 slave, 2 monitor. -/
def State.linRole (s : State) (n : Nat) : Nat := s.fld (pLINC n) Fd.LINC_CFG_ROLE

/-- An event item of a LIN channel (Table 1, R132). -/
def State.linEvent (s : State) (n ev stamp : Nat) : State :=
  s.wqPut (24 + n) [2 * 2 ^ 30 + ev * 65536, stamp % 2 ^ 32, stamp / 2 ^ 32]

/-- RUN to SLEEP, with the SLEEP event item (Table 3). -/
def State.linSleep (s : State) (n : Nat) : State :=
  ((s.setLinMode n 2).linEvent n 1 s.now).raise (pLINC n) Iq.LINC_SLEEP

/-- SLEEP to RUN on a received or sent wake pulse; a master sends no header for 100 ms (R124). -/
def State.linAwake (s : State) (n ev : Nat) : State :=
  let s := ((s.setLinMode n 1).linEvent n ev s.now).raise (pLINC n) Iq.LINC_WAKE
  s.setLin n { s.lin n with holdoff := s.now + 100000000, lastAct := s.now, gts := false, gtsNow := false }

/-- A wake pulse is sent from SLEEP (R124). -/
def State.linWakePulse (s : State) (n : Nat) : State :=
  if s.linMode n = 2 then
    (s.emit (.sent "lin wake" [n, s.fld (pLINC n) Fd.LINC_TIMING_WAKE_US])).linAwake n 3
  else s

/-- One bit time of the channel, in sixteenths of an mtq. -/
def State.linBit16 (s : State) (n : Nat) : Nat := s.fld (pLINC n) Fd.LINC_BAUD_DIV * 16 + s.fld (pLINC n) Fd.LINC_BAUD_FRAC

/-- The nominal time of a frame of `len` data bytes, in ns: header of BREAK + 21 bits and ten bits per response byte. -/
def State.linFrameNs (s : State) (n len : Nat) : Nat :=
  (s.fld (pLINC n) Fd.LINC_TIMING_BREAK + 21 + 10 * (len + 1)) * s.linBit16 n * 25 / 32

/-- Fields of a response entry, and of the entries of schedules A and B. -/
def State.linResp (s : State) (n id : Nat) : Entry := s.ent (pLINC n) 0 0 id

def State.linSched (s : State) (n tab pos : Nat) : Entry := s.ent (pLINC n) (1 + tab) 0 pos

end Sys2Proof.Machine
end

