-- ==== Sys2Proof/Machine/SwcOps.lean ====
section
/-!
DEFINITION. The switch core's memory and queues (R259 to R286): cells, queue entries, the three segments of a queue and
its spill state, and flushes. Admission is in Switch.
-/

namespace Sys2Proof.Machine

/-- Cells of `n` bytes. -/
def cellsOf (n : Nat) : Nat := (n + 63) / 64

/-- The cells a copy covers. -/
def Copy.cells (c : Copy) : Nat := c.mem

/-- The cells of a list of copies. -/
def cellSum (l : List Copy) : Nat := (l.map Copy.cells).foldl (· + ·) 0

/-- The spill blocks that copies in M take: 32 cells each (R266, R271).
DEDUCED, unsafe (notes/assumptions/49.md). -/
def spillBlocks (l : List Copy) : Nat := (cellSum l + 31) / 32

/-! ### Free cells and queue entries -/

def State.free (s : State) : Nat := s.fld pSWC Fd.SWC_FREE_FREE

/-- F takes a new value: SWC_FREE_MIN, BUF_LOW and the spill ACTIVE flag follow (R262, R272). -/
def State.setFree (s : State) (f : Nat) : State :=
  let old := s.free
  let s := s.setFld pSWC Fd.SWC_FREE_FREE f
  let s := s.setFld pSWC Fd.SWC_FREE_MIN_MIN (min f (s.fld pSWC Fd.SWC_FREE_MIN_MIN))
  let w := s.fld pSWC Fd.SWC_FREE_WARN_LEVEL
  let s := if f < w && w ≤ old then s.raise pSWC Iq.SWC_BUF_LOW else s
  let on := s.fld pSWC Fd.SWC_SPILL_ON_LEVEL
  if f < on && on ≤ old then
    if s.flag pSWC Fd.SWC_SPILL_STAT_ACTIVE then s
    else (s.setFlag pSWC Fd.SWC_SPILL_STAT_ACTIVE true).raise pSWC Iq.SWC_SPILL_ON
  else if s.fld pSWC Fd.SWC_SPILL_OFF_LEVEL < f then s.setFlag pSWC Fd.SWC_SPILL_STAT_ACTIVE false
  else s

/-- The cells a packet holds: those its largest reference covers. -/
def Cells.held (c : Cells) : Nat := c.refs.foldl max 0

/-- A new packet with one reference of `n` cells; its number is the old `nextPkt`. -/
def State.pktNew (s : State) (n : Nat) : State :=
  let w := s.swc
  ({ s with swc := { w with cells := smSet {} w.nextPkt ⟨[n]⟩ w.cells, nextPkt := w.nextPkt + 1 } }).setFree (s.free - n)

/-- One more reference of `n` cells to packet `id`. -/
def State.pktRef (s : State) (id n : Nat) : State :=
  let c := smGet {} id s.swc.cells
  { s with swc := { s.swc with cells := smSet {} id ⟨n :: c.refs⟩ s.swc.cells } }

/-- One reference of `n` cells goes; cells that no other reference covers return to the pool (R261). -/
def State.pktUnref (s : State) (id n : Nat) : State :=
  let c := smGet {} id s.swc.cells
  let c' : Cells := ⟨c.refs.erase n⟩
  ({ s with swc := { s.swc with cells := smSet {} id c' s.swc.cells } }).setFree (s.free + (c.held - c'.held))

/-- Free queue entries change by one copy. -/
def State.qentryTake (s : State) : State :=
  let f := s.fld pSWC Fd.SWC_QENTRY_FREE_FREE
  let s := s.setFld pSWC Fd.SWC_QENTRY_FREE_FREE (f - 1)
  if f = 4096 then s.raise pSWC Iq.SWC_QENTRY_LOW else s

def State.qentryGive (s : State) : State :=
  s.setFld pSWC Fd.SWC_QENTRY_FREE_FREE (s.fld pSWC Fd.SWC_QENTRY_FREE_FREE + 1)

/-- A copy held on chip goes: its references and its queue entry are given back. -/
def State.copyFree (s : State) (c : Copy) : State :=
  (match c.pkt with
    | some id => s.pktUnref id c.cells
    | none => s).qentryGive

/-- A packet of `bytes` enters pipeline `side` (0 A, 1 B) with its cells.
DESIGN CHOICE, safe (notes/assumptions/13.md). -/
def State.frontPut (s : State) (side : Nat) (bytes : List Nat) (m : Meta) : State :=
  let id := s.swc.nextPkt
  let s := s.pktNew (cellsOf bytes.length)
  let c : Copy := { pkt := some id, bytes := bytes, mem := cellsOf bytes.length, enq := 0, info := m }
  { s with swc := { s.swc with front := smSet [] side (smGet [] side s.swc.front ++ [c]) s.swc.front } }

/-! ### Queues -/

/-- Queue numbers (TABLE 1 of the SWC window): 8p + q, and 288 for port 36. -/
def qkey (p q : Nat) : Nat := if p = 36 then 288 else 8 * p + q

/-- The traffic class of a queue number. -/
def qclass (k : Nat) : Nat := if k = 288 then 0 else k % 8

/-- The egress port of a queue number. -/
def qport (k : Nat) : Nat := k / 8

def State.queue (s : State) (k : Nat) : Queue := smGet {} k s.swc.queues

/-- The fields of a queue's state entry that mirror its segments. -/
def qstOf (e : Entry) (q : Queue) : Entry :=
  let e := fput e En.QST_H_CELLS (cellSum q.h)
  let e := fput e En.QST_T_CELLS (cellSum q.t)
  let e := fput e En.QST_M_BLOCKS (spillBlocks q.m)
  fput e En.QST_PACKETS (q.h.length + q.m.length + q.t.length)

/-- Replace a queue; its state entry, SPILL_STAT.USED and RECIRC_STAT follow. -/
def State.setQueue (s : State) (k : Nat) (q : Queue) : State :=
  let used := s.fld pSWC Fd.SWC_SPILL_STAT_USED + spillBlocks q.m - spillBlocks (s.queue k).m
  let s := { s with swc := { s.swc with queues := smSet {} k q s.swc.queues } }
  let s := (s.setEnt pSWC 1 0 k (qstOf (s.ent pSWC 1 0 k) q)).setFld pSWC Fd.SWC_SPILL_STAT_USED used
  if k = 288 then s.setFld pSWC Fd.SWC_RECIRC_STAT_LEVEL q.h.length else s

/-- State of a queue: 0 LOCAL, 1 SPILL, 2 REFILL (Table 3). -/
def State.qstate (s : State) (k : Nat) : Nat := s.entF pSWC 1 0 k En.QST_STATE

def State.setQstate (s : State) (k x : Nat) : State := s.setEntF pSWC 1 0 k En.QST_STATE x

/-- The occupancy of R266. -/
def Queue.occupancy (q : Queue) : Nat := cellSum q.h + cellSum q.t + 32 * spillBlocks q.m

/-- Spill is possible for the class of queue `k` (R271). -/
def State.maySpill (s : State) (k : Nat) : Bool :=
  k ≠ 288 && s.flag pSWC Fd.SWC_CFG_SPILL_EN && s.fld pSWC Fd.SWC_SPILL_BLOCKS_BLOCKS ≠ 0
    && s.flag pSWC (Fd.SWC_CLASS_CFG_SPILL_EN.at 8 (qclass k))

/-- A free spill block exists. -/
def State.spillSpace (s : State) : Bool := s.fld pSWC Fd.SWC_SPILL_STAT_USED < s.fld pSWC Fd.SWC_SPILL_BLOCKS_BLOCKS

/-- Split a head at `keep` cells in whole packets; a first packet larger than that stays (Table 3). -/
def headSplit (keep used : Nat) : List Copy → List Copy × List Copy
  | [] => ([], [])
  | c :: l =>
    if used = 0 || used + c.cells ≤ keep then
      let r := headSplit keep (used + c.cells) l
      (c :: r.1, r.2)
    else ([], c :: l)

/-- T joins H and the queue becomes LOCAL. -/
def State.qJoin (s : State) (k : Nat) : State :=
  let q := s.queue k
  (s.setQueue k { h := q.h ++ q.t, m := [], t := [], refill := false }).setQstate k 0

/-- One transition of Table 3 for queue `k`, if one applies. -/
def State.qEval (s : State) (k : Nat) : State :=
  let q := s.queue k
  let keep := s.fld pSWC Fd.SWC_SPILL_HEAD_HEAD_KEEP
  let active := s.flag pSWC Fd.SWC_SPILL_STAT_ACTIVE
  if s.qstate k = 0 then
    if active && s.maySpill k && keep < cellSum q.h then
      let (h, t) := headSplit keep 0 q.h
      (s.setQueue k { q with h := h, t := t }).setQstate k 1
    else s
  else if s.qstate k = 1 then
    if q.m.isEmpty && cellSum q.h + cellSum q.t ≤ keep then s.qJoin k
    else if !active || !(s.maySpill k) then s.setQstate k 2
    else if !(s.spillSpace) then
      let s := if s.flag pSWC Fd.SWC_SPILL_STAT_NO_SPACE then s
        else ((s.setFlag pSWC Fd.SWC_SPILL_STAT_NO_SPACE true).raise pSWC Iq.SWC_SPILL_NOSPACE).errRun pSWC Er.SWC_SPILL_NOSPACE 0 0
      s.setQstate k 2
    else s
  else if active && s.maySpill k && s.spillSpace then s.setQstate k 1
  else if q.m.isEmpty then s.qJoin k
  else s

/-- Every queue that holds something follows Table 3. -/
def State.qEvalAll (s : State) : State := (s.swc.queues.map (·.1)).foldl (fun s k => s.qEval k) s

/-- A block is freed: NO_SPACE clears (R275). -/
def State.blockFreed (s : State) : State :=
  if s.spillSpace then (s.setFlag pSWC Fd.SWC_SPILL_STAT_NO_SPACE false).endRun pSWC Er.SWC_SPILL_NOSPACE 0 else s

/-- Count in a 32- or 48-bit counter of a queue's state entry; it wraps without a flag. -/
def State.qCount (s : State) (k : Nat) (f : Fld) : State := s.setEntF pSWC 1 0 k f (s.entF pSWC 1 0 k f + 1)

/-- An admitted copy joins its queue: H while LOCAL, T otherwise (Table 2). -/
def State.qPut (s : State) (k : Nat) (c : Copy) : State :=
  let q := s.queue k
  let q := if s.qstate k = 0 then { q with h := q.h ++ [c] } else { q with t := q.t ++ [c] }
  ((((s.setQueue k q).qentryTake).qCount k En.QST_ENQ).inc pSWC Cn.SWC_ENQ).qEval k

/-- The head copy leaves H. -/
def State.qPop (s : State) (k : Nat) : State :=
  let q := s.queue k
  (s.setQueue k { q with h := q.h.drop 1 }).qEval k

/-- A copy is taken out of the on-chip segments of a queue and freed (push-out, aging). -/
def State.qRemove (s : State) (k : Nat) (c : Copy) : State :=
  let q := s.queue k
  let q := if q.t.contains c then { q with t := q.t.erase c } else { q with h := q.h.erase c }
  ((s.setQueue k q).copyFree c).qEval k

/-- The head copy is discarded by the switch core for the reason of a counter (R284). -/
def State.qDropHead (s : State) (k cnt : Nat) : State :=
  match (s.queue k).h with
  | c :: _ => (((s.qPop k).copyFree c).qCount k En.QST_DROPS).inc pSWC cnt
  | [] => s

/-- Flush a queue (R276): all its copies leave it at once; cells and blocks return at FLUSH_RELEASE_DONE. The queue becomes
LOCAL. -/
def State.qFlush (s : State) (k : Nat) : State :=
  let q := s.queue k
  let old := smGet ([], []) k s.swc.flushed
  let s := { s with swc := { s.swc with flushed := smSet ([], []) k (old.1 ++ q.h ++ q.t, old.2 ++ q.m) s.swc.flushed } }
  let used := s.fld pSWC Fd.SWC_SPILL_STAT_USED
  ((s.setQueue k {}).setQstate k 0).setFld pSWC Fd.SWC_SPILL_STAT_USED used

/-- Copies in a queue. -/
def Queue.count (q : Queue) : Nat := q.h.length + q.m.length + q.t.length

/-- A flushed queue's cells return to the pool and its blocks are freed (R276). -/
def State.qRelease (s : State) (k : Nat) : State :=
  let old := smGet ([], []) k s.swc.flushed
  let s := { s with swc := { s.swc with flushed := smSet ([], []) k ([], []) s.swc.flushed } }
  let s := old.1.foldl (fun s c => s.copyFree c) s
  let s := old.2.foldl (fun s _ => s.qentryGive) s
  let s := s.setFld pSWC Fd.SWC_SPILL_STAT_USED (s.fld pSWC Fd.SWC_SPILL_STAT_USED - spillBlocks old.2)
  (if old.2.isEmpty then s else s.blockFreed).qEvalAll

end Sys2Proof.Machine
end

