-- ==== Sys2Proof/Machine/EthOps.lean ====
section
/-!
DEFINITION. The Ethernet ports' shared operations (R176 to R197): port states, flushes, sleep and wake of TC10 and
10BASE-T1S ports.
-/

namespace Sys2Proof.Machine

def State.eth (s : State) (p : Nat) : Eth := smGet {} p s.eths

def State.setEth (s : State) (p : Nat) (x : Eth) : State := { s with eths := smSet {} p x s.eths }

def State.egr (s : State) (p : Nat) : Egress := smGet {} p s.egress

def State.setEgr (s : State) (p : Nat) (x : Egress) : State := { s with egress := smSet {} p x s.egress }

/-- EPRT_STATE.STATE: 0 DISABLED, 1 TRAINING, 2 UP, 3 HOLD, 4 DOWN, 5 SLEEP (Table 5). -/
def State.ethSt (s : State) (p : Nat) : Nat := s.fld (pEPRT p) Fd.EPRT_STATE_STATE

def State.setEthSt (s : State) (p x : Nat) : State := s.setFld (pEPRT p) Fd.EPRT_STATE_STATE x

/-- TC10 state: 0 NORMAL, 1 SLEEP_PENDING, 2 SLEEP, 3 WAKING (Table 4). -/
def State.tcSt (s : State) (p : Nat) : Nat := s.fld (pEPRT p) Fd.EPRT_TC10_TSTATE

def State.setTcSt (s : State) (p x : Nat) : State := s.setFld (pEPRT p) Fd.EPRT_TC10_TSTATE x

/-- Copies in the eight queues of a port. -/
def State.portCount (s : State) (p : Nat) : Nat :=
  ((List.range 8).map fun q => (s.queue (qkey p q)).count).foldl (· + ·) 0

/-- The eight queues of a port are flushed; each copy counts in FLUSHED of an external port, or in FLUSHED_INT; credits go
to 0 (R194, R276, R284, R294). -/
def State.portFlush (s : State) (p : Nat) : State :=
  let n := s.portCount p
  let s := foldN 8 (fun q s => s.qFlush (qkey p q)) s
  let s := s.setEgr p { s.egr p with credit := [], deficit := [] }
  if p < 32 then s.addCnt (pEPRT p) Cn.EPRT_FLUSHED n else s.addCnt pSWC Cn.SWC_FLUSHED_INT n

/-- The frame on a port's line, and a suspended one, are lost and counted in TX_ABORT (R192). -/
def State.txAbort (s : State) (p : Nat) : State :=
  let e := s.egr p
  let drop := fun (o : Option OnLine) (s : State) => match o with
    | some x => ((s.copyFree x.copy).inc (pEPRT p) Cn.EPRT_TX_ABORT).raise (pEPRT p) Iq.EPRT_TX_ABORT
    | none => s
  drop e.susp (drop e.line (s.setEgr p { e with line := none, susp := none }))

/-- A port that the device puts to sleep: queues flushed at once, no hold, no log (R196). -/
def State.portSleep (s : State) (p : Nat) : State :=
  ((s.portFlush p).setEthSt p 5).setEth p { s.eth p with flushed := false }

/-- SLEEP_REQ in NORMAL with the link up sends the sleep request (Table 4). -/
def State.tcSleepReq (s : State) (p : Nat) : State :=
  if s.tcSt p = 0 && s.flag (pEPRT p) Fd.EPRT_STATE_LINK then
    ((s.emit (.sent "tc10 sleep request" [p])).setTcSt p 1).setEth p { s.eth p with tcAt := s.now }
  else s

/-- WAKE_REQ in SLEEP sends the wake-up pulse and starts training (Table 4). -/
def State.tcWakeReq (s : State) (p : Nat) : State :=
  if s.tcSt p = 2 then
    ((s.emit (.sent "tc10 wake-up pulse" [p])).setTcSt p 3).setEth p { s.eth p with tcAt := s.now }
  else s

/-- Both ends have asked for sleep: the port sleeps (Table 4, R196). -/
def State.tcSleep (s : State) (p : Nat) : State :=
  ((s.portSleep p).setTcSt p 2).setFlag (pEPRT p) Fd.EPRT_STATE_LINK false

/-- A 10BASE-T1S port leaves SLEEP (R361). -/
def State.t1sWake (s : State) (p : Nat) : State :=
  let s := { s with ldie := { s.ldie with t1sArmed := s.ldie.t1sArmed.filter (· ≠ p) } }
  if s.ethSt p = 5 then s.setEthSt p 2 else s

/-- A 10BASE-T1S port enters SLEEP and its activity detector is armed (R357). -/
def State.t1sSleep (s : State) (p : Nat) : State :=
  let s := { s with ldie := { s.ldie with t1sArmed := p :: s.ldie.t1sArmed.filter (· ≠ p) } }
  if s.ethSt p = 0 then s else s.portSleep p

end Sys2Proof.Machine
end

