-- ==== Sys2Proof/Machine/NmOps.lean ====
section
/-!
DEFINITION. The keep-alive engine's shared operations (R347 to R369): clusters and their segments, wakes, NM frames and
the commit, which the field-bus and Ethernet commands call.
-/

namespace Sys2Proof.Machine

/-! ### Clusters -/

def State.cl (s : State) (c : Nat) : Cluster := smGet {} c s.clusters

def State.setCl (s : State) (c : Nat) (x : Cluster) : State := { s with clusters := smSet {} c x s.clusters }

/-- A field of a cluster's register block. -/
def State.clF (s : State) (c : Nat) (f : Fld) : Nat := s.fld pNM (f.at 0x40 c)

def State.setClF (s : State) (c : Nat) (f : Fld) (x : Nat) : State := s.setFld pNM (f.at 0x40 c) x

/-- NM_CL_STATE.STATE: 0 OFF, 1 BUS_SLEEP, 2 CHECK, 3 REPEAT_MESSAGE, 4 NORMAL, 5 READY_SLEEP, 6 PREPARE_BUS_SLEEP,
7 COMMITTING. -/
def State.clSt (s : State) (c : Nat) : Nat := s.clF c Fd.NM_CL_STATE_STATE

/-- The cluster runs. -/
def State.clOn (s : State) (c : Nat) : Bool := s.clSt c ≠ 0

/-- Members of a cluster. -/
def State.clCan (s : State) (c : Nat) : List Nat := (List.range 24).filter fun n => (s.clF c Fd.NM_CL_CAN_CH).testBit n

def State.clLin (s : State) (c : Nat) : List Nat := (List.range 8).filter fun n => (s.clF c Fd.NM_CL_SEG_LIN).testBit n

def State.clTc (s : State) (c : Nat) : List Nat :=
  ((List.range 12).filter fun i => (s.clF c Fd.NM_CL_SEG_TC10).testBit i).map (12 + ·)

def State.clT1s (s : State) (c : Nat) : List Nat :=
  ((List.range 8).filter fun i => (s.clF c Fd.NM_CL_SEG_T1S).testBit i).map (24 + ·)

/-- The running clusters that a segment belongs to: at most one (R347). -/
def State.clOfCan (s : State) (n : Nat) : List Nat := (List.range 8).filter fun c => s.clOn c && (s.clCan c).contains n

def State.clOfLin (s : State) (n : Nat) : List Nat := (List.range 8).filter fun c => s.clOn c && (s.clLin c).contains n

def State.clOfPort (s : State) (p : Nat) : List Nat :=
  (List.range 8).filter fun c => s.clOn c && ((s.clTc c).contains p || (s.clT1s c).contains p)

/-- SLEEP_MODE of a CAN channel's entry (Table 8). -/
def State.sleepMode (s : State) (n : Nat) : Nat := s.entF pNM 0 0 n En.NMCH_SLEEP_MODE

/-- NM_STATUS follows the clusters: ASLEEP, and LOW_POWER_OK while every running cluster is in BUS_SLEEP with SEG_AWAKE = 0
and no member in SLEEP_MODE 2 (R359). DEDUCED: with no cluster enabled it reads its reset value 0 (notes/assumptions/63.md). Its rise starts AUTO_DELAY_MS (R495). -/
def State.nmStatus (s : State) : State :=
  let asleep := ((List.range 8).filter fun c => s.clSt c = 1).foldl (fun x c => x + 2 ^ c) 0
  let ok := (List.range 8).any s.clOn && (List.range 8).all fun c => !(s.clOn c) ||
    (s.clSt c = 1 && s.clF c Fd.NM_CL_STATE_SEG_AWAKE = 0 && (s.clCan c).all fun n => s.sleepMode n ≠ 2)
  let was := s.flag pNM Fd.NM_STATUS_LOW_POWER_OK
  let s := (s.setFld pNM Fd.NM_STATUS_ASLEEP asleep).setFlag pNM Fd.NM_STATUS_LOW_POWER_OK ok
  if was = ok then s else { s with pow := { s.pow with lowSince := if ok then some s.now else none } }

/-- Enter a state with an entry stamp. -/
def State.clEnter (s : State) (c st stamp : Nat) : State :=
  ((s.setClF c Fd.NM_CL_STATE_STATE st).setCl c { s.cl c with entered := stamp }).nmStatus

/-- NM_TIMEOUT_MS in ns, and the NM deadline D (R354). -/
def State.nmTimeoutNs (s : State) (c : Nat) : Nat := s.clF c Fd.NM_CL_TIME1_NM_TIMEOUT_MS * 1000000

def State.nmDeadline (s : State) (c : Nat) : Nat := (s.cl c).l + s.nmTimeoutNs c

/-- The false-wake deadline of CHECK (R365). -/
def State.fwDeadline (s : State) (c : Nat) : Nat :=
  max (s.cl c).entered (s.cl c).lastAny + s.clF c Fd.NM_CL_TIME3_FW_IDLE_MS * 1000000

/-! ### Segments -/

def State.setStandby (s : State) (n m : Nat) : State :=
  { s with ldie := { s.ldie with standby := smSet 0 n m s.ldie.standby } }

/-- CAN transceivers return to normal, LIN masters send a wake pulse (a bus wake into CHECK, R353). -/
def State.wakeBuses (s : State) (c : Nat) : State :=
  let s := (s.clCan c).foldl (fun s n => s.setStandby n 0) s
  (s.clLin c).foldl (fun s n =>
    let s := { s with ldie := { s.ldie with linArmed := s.ldie.linArmed.filter (· ≠ n) } }
    if s.linRole n = 0 then s.linWakePulse n else s) s

/-- A full wake of every segment (R361). -/
def State.fullWake (s : State) (c : Nat) : State :=
  let s := s.wakeBuses c
  let s := (s.clCan c).foldl (fun s n => s.canRelease n) s
  let s := (s.clTc c).foldl (fun s p => s.tcWakeReq p) s
  let s := (s.clT1s c).foldl (fun s p => s.t1sWake p) s
  s.setClF c Fd.NM_CL_STATE_SEG_AWAKE 0

/-- The commit action of a CAN channel (Table 3 of *Network Sleep*). -/
def State.sleepCan (s : State) (n : Nat) : State :=
  let m := s.sleepMode n
  let s := s.canHold n
  if m = 0 then s.setStandby n 1 else if m = 1 then s.setStandby n 2
  else if m = 3 && n < 16 then s.setStandby n 3 else s

/-- The commit action of a LIN channel. -/
def State.sleepLin (s : State) (n : Nat) : State :=
  if s.linRole n = 0 then (if s.linMode n = 1 then s.setLin n { s.lin n with gts := true } else s)
  else { s with ldie := { s.ldie with linArmed := n :: s.ldie.linArmed.filter (· ≠ n) } }

/-- The commit actions of every segment (Table 3). -/
def State.sleepSegs (s : State) (c : Nat) : State :=
  let s := (s.clCan c).foldl (fun s n => s.sleepCan n) s
  let s := (s.clLin c).foldl (fun s n => s.sleepLin n) s
  let s := (s.clTc c).foldl (fun s p => s.tcSleepReq p) s
  (s.clT1s c).foldl (fun s p => s.t1sSleep p) s

/-! ### Transitions -/

/-- REASON, SRC and the stamp of a wake are latched (R361). -/
def State.latchWake (s : State) (c : Nat) (w : Wake) : State :=
  let s := (s.setClF c Fd.NM_CL_STATE_REASON w.reason).setClF c Fd.NM_CL_STATE_SRC w.src
  s.wr64 pNM (Reg.NM_CL_WAKE_STAMP_LO + 0x40 * c) w.stamp

/-- Enter REPEAT_MESSAGE now: the deadline counts from its entry stamp and NM frames are due from it (R351, R354). -/
def State.toRepeat (s : State) (c : Nat) (rmr aw : Bool) : State :=
  let s := s.clEnter c 3 s.now
  s.setCl c { s.cl c with l := max (s.cl c).l s.now, due := s.now, rmr := rmr, aw := aw }

/-- Counted wake out of BUS_SLEEP or CHECK. -/
def State.countWake (s : State) (c : Nat) : State := (s.inc pNM Cn.NM_WAKES).raise pNM (Iq.NM_WAKE + c)

/-- A local wake: START, HOST and WAKE_IN (Table 4). -/
def Wake.isLocal (w : Wake) : Bool := w.reason ≤ 2

/-- The cluster leaves BUS_SLEEP for REPEAT_MESSAGE with a full wake. -/
def State.wakeFull (s : State) (c : Nat) (w : Wake) : State :=
  ((((s.latchWake c w).fullWake c).countWake c)).toRepeat c false w.isLocal

/-- An event of R355 stamped at or before K aborts the sleep. -/
def State.abortSleep (s : State) (c : Nat) (rmr aw : Bool) : State := (s.inc pNM Cn.NM_ABORTS).toRepeat c rmr aw

/-- A wake that does not stop the commit: the first is latched, late when stamped at or before K (R356).
DEDUCED, unsafe (notes/assumptions/64.md). -/
def State.latchInCommit (s : State) (c : Nat) (w : Wake) : State :=
  let x := s.cl c
  match x.latched with
  | some _ => s.inc pNM Cn.NM_WAKES
  | none =>
    let late := w.stamp ≤ x.k && s.clSt c = 7
    let s := s.setCl c { x with latched := some (w, late) }
    if late then
      (((s.setClF c Fd.NM_CL_STATE_LATE 1).inc pNM Cn.NM_LATE_WAKES).raise pNM Iq.NM_LATE_WAKE).errAt pNM Er.NM_LATE_WAKE c 0 w.stamp
    else s

/-- An event stamped `stamp` lies after a deadline of the cluster on which the engine has not acted: it waits for the action,
and is then judged in the state that the action leaves (R20, R354, R365).
DEDUCED, unsafe (notes/assumptions/65.md). -/
def State.clBehind (s : State) (c stamp : Nat) : Bool :=
  let st := s.clSt c
  ((st = 3 || st = 4 || st = 5) && s.nmDeadline c < stamp) || (st = 2 && s.fwDeadline c < stamp)

def State.nmHold (s : State) (c : Nat) (h : NmHeld) : State := s.setCl c { s.cl c with held := (s.cl c).held ++ [h] }

/-- A wake reaches a cluster (Table 2, R355, R356, R361). -/
def State.nmWake (s : State) (c : Nat) (w : Wake) : State :=
  if s.clBehind c w.stamp then s.nmHold c (.wake w) else
  match s.clSt c with
  | 1 =>
    let s := (s.setClF c Fd.NM_CL_STATE_LATE 0).setClF c Fd.NM_CL_STATE_AFTER_COMMIT 0
    if w.isLocal then s.wakeFull c w
    else ((((s.latchWake c w).wakeBuses c).setClF c Fd.NM_CL_STATE_SEG_AWAKE 0).countWake c).clEnter c 2 s.now
  | 2 => if w.isLocal then s.wakeFull c w else s
  | 5 => (s.latchWake c w).toRepeat c false w.isLocal
  | 6 => if w.stamp ≤ (s.cl c).k then (s.latchWake c w).abortSleep c false w.isLocal else s.latchInCommit c w
  | 7 => s.latchInCommit c w
  | _ => s

/-- A device wake is latched once in the line die, which hands it to NM_DEV_WAKE at the exit (R361); coarse: stamped by the
line die. -/
def State.latchDevWake (s : State) (w : Wake) : State :=
  match s.ldie.devWake with
  | some _ => s
  | none => { s with ldie := { s.ldie with devWake := some (w, s.coarse && s.pwr ≠ .comma) } }

/-- An exit from Comma or Period is due, for the source `src` (R498). -/
def State.exitDue (s : State) (src stamp : Nat) : State :=
  if s.pow.exit.isSome then s else { s with pow := { s.pow with exit := some (src, stamp) } }

/-- A pending entry is aborted (R496, R497): counted, raised, STATE CLAUSE. A Period entry that has begun its actions resumes
as a Comma exit does. -/
def State.entryAbort (s : State) : State :=
  let s := ((s.inc pPWR Cn.PWR_ABORTS).raise pPWR Iq.PWR_ENTRY_ABORTED).setFld pPWR Fd.PWR_STATE_STATE 0
  if s.pwr = .commaPending then { s with pwr := .clause } else { s with pow := { s.pow with abort := true } }

/-- A wake of Table 4 reaches the device (R361, R496 to R498, R501, Table 2 of *Supplies and Power States*).
DEDUCED, unsafe (notes/assumptions/64.md). -/
def State.deviceWake (s : State) (w : Wake) : State :=
  let early := w.stamp ≤ s.pow.commit
  let s := if s.fld pLINE Fd.LINE_STATUS_SEQ = 5 then
      { s.setFld pLINE Fd.LINE_STATUS_SEQ 0 with pow := { s.pow with touts := 0 } }
    else s
  match s.pwr with
  | .commaPending =>
    if early && s.now < s.pow.commit + 50000 then s.entryAbort
    else
      let s := if early then s.errAt pPWR Er.PWR_LATE_WAKE w.src 0 w.stamp else s
      (s.latchDevWake w).exitDue 1 w.stamp
  | .comma =>
    let s := if early then s.errAt pPWR Er.PWR_LATE_WAKE w.src 0 w.stamp else s
    (s.latchDevWake w).exitDue 1 w.stamp
  | .periodPending =>
    if s.pow.abort then s
    else if !s.coarse || early then s.entryAbort
    else (s.latchDevWake w).exitDue 1 w.stamp
  | .period =>
    let s := if early then { s with pow := { s.pow with logs := s.pow.logs ++ [(Er.PWR_LATE_WAKE, w.src, w.stamp)] } } else s
    (s.latchDevWake w).exitDue 1 w.stamp
  | .pfHold => s.latchDevWake w
  | _ => if s.boot ≠ .ready && s.pow.cause = 2 then s.latchDevWake w else s

/-- The engine works: its block is enabled and its logic die is up. -/
def State.nmUp (s : State) : Bool := s.enabled pNM && s.boot = .ready && s.pwr ≠ .period && s.pwr ≠ .pfHold

/-- The stamp of a line-die source (R360): in Clause and Comma the wake strobe's, less the 12 ns of the bridge (R10); while
the line die carries the FRC, the tick's as it is given (R50). -/
def State.wakeStamp (s : State) (x : Nat) : Nat :=
  if s.boot = .off || s.pwr = .period || s.pwr = .pfHold then x else x - 12

/-- A wake of a segment reaches its clusters, or the device. -/
def State.segWake (s : State) (cs : List Nat) (w : Wake) : State :=
  let s := if s.nmUp then cs.foldl (fun s c => s.nmWake c w) s else s
  s.deviceWake w

/-! ### NM frames -/

/-- Is a received frame an NM frame of cluster `c` (R350)? -/
def State.isNmFrame (s : State) (c : Nat) (f : CanFrame) : Bool :=
  let mask := s.clF c Fd.NM_CL_IDMASK_MASK
  f.fmt ≠ 4 && !f.rtr && 2 ≤ f.len && f.busId &&& mask = s.clF c Fd.NM_CL_ID_BASE &&& mask
    && decide (s.clF c Fd.NM_CL_ID_IDE = 1) = f.ext

/-- Does an NM frame count for its cluster (R350)? -/
def State.nmCounts (s : State) (c : Nat) (f : CanFrame) : Bool :=
  let b1 := nth 0 f.data 1
  let pn := leNat (fitTo 0 6 (f.data.drop 2))
  let mask := s.clF c Fd.NM_CL_PNMASK_LO_PN + 2 ^ 32 * s.clF c Fd.NM_CL_PNMASK_HI_PN
  s.clF c Fd.NM_CL_CFG_PN_EN = 0 || !(b1.testBit 2) || pn &&& mask ≠ 0

/-- Update the offender entry of a received counting frame (R368). -/
def State.offender (s : State) (c ch : Nat) (f : CanFrame) (stamp : Nat) : State :=
  let b1 := nth 0 f.data 1
  let idx := fun k => 16 * ch + k
  let mine := fun k => s.entF pNM 1 0 (idx k) En.OFFE_VALID = 1 && s.entF pNM 1 0 (idx k) En.OFFE_ID = f.busId
    && decide (s.entF pNM 1 0 (idx k) En.OFFE_IDE = 1) = f.ext
  let upd := fun (k : Nat) (e : Entry) =>
    let e := fput e En.OFFE_COUNT (satAdd 32 (fget e En.OFFE_COUNT) 1)
    let e := fput e En.OFFE_LAST stamp
    let e := fput e En.OFFE_NODE (nth 0 f.data 0)
    let e := fput e En.OFFE_RMR_SEEN (fget e En.OFFE_RMR_SEEN ||| b1 % 2)
    let e := fput e En.OFFE_AW_SEEN (fget e En.OFFE_AW_SEEN ||| b1 / 2 % 2)
    s.setEnt pNM 1 0 (idx k) e
  match (List.range 16).find? mine with
  | some k => upd k (s.ent pNM 1 0 (idx k))
  | none =>
    match (List.range 16).find? fun k => s.entF pNM 1 0 (idx k) En.OFFE_VALID = 0 with
    | some k =>
      let e := fput (fput (fput (fput (0 : Entry) En.OFFE_VALID 1) En.OFFE_ID f.busId) En.OFFE_IDE (b2n f.ext)) En.OFFE_FIRST stamp
      upd k e
    | none =>
      let s := s.inc pNM Cn.NM_OFF_OVF
      if (s.cl c).ovf then s else (s.setCl c { s.cl c with ovf := true }).err pNM Er.NM_OFF_OVF ch

/-- A counting NM frame of the cluster, sent or received, with its EOF stamp (R350, R354 to R356, R368). -/
def State.nmFrame (s : State) (c ch : Nat) (f : CanFrame) (stamp : Nat) (received : Bool) : State :=
  if s.clBehind c stamp then s.nmHold c (.frame ch f stamp received) else
  let rmr := received && (nth 0 f.data 1).testBit 0
  let st := s.clSt c
  let x := s.cl c
  let s := if received && (st = 5 || st = 6) then s.offender c ch f stamp else s
  let w : Wake := ⟨7, ch, stamp⟩
  match st with
  | 1 => if received then s.nmWake c w else s
  | 2 => if received then ((s.fullWake c).countWake c).toRepeat c false false else s
  | 6 =>
    if stamp ≤ x.entered then
      ((s.setCl c { s.cl c with l := stamp }).clEnter c 5 s.now).errAt pNM Er.NM_LATE_FRAME c 0 stamp
    else if stamp ≤ x.k then (s.setCl c { s.cl c with l := max x.l stamp }).abortSleep c false false
    else s.latchInCommit c w
  | 7 => if received then s.latchInCommit c w else s
  | 0 => s
  | _ =>
    let s := s.setCl c { s.cl c with l := max x.l stamp }
    if rmr && (st = 4 || st = 5) then s.toRepeat c false false else s

/-- Filter of a channel entry (R362): IDE, masked identifier, DLC, masked payload; a remote frame never matches while data
is compared. -/
def State.wufMatch (s : State) (n : Nat) (f : CanFrame) : Bool :=
  let e := s.ent pNM 0 0 n
  let mask := fget e En.NMCH_IDMASK
  let dm := fget e En.NMCH_DATAMASK
  fget e En.NMCH_VALID = 1 && decide (fget e En.NMCH_IDE = 1) = f.ext && f.busId &&& mask = fget e En.NMCH_ID &&& mask
    && (fget e En.NMCH_DLC_EN = 0 || fget e En.NMCH_DLC = f.len)
    && (if f.rtr then dm = 0 else (leNat (fitTo 0 8 f.data) ^^^ fget e En.NMCH_DATA) &&& dm = 0)

/-- A frame received on a member channel of cluster `c` (R350, R363, R365). -/
def State.clCanRx (s : State) (c n : Nat) (f : CanFrame) (eof : Nat) : State :=
  if s.clBehind c eof then s.nmHold c (.frame n f eof true)
  else
    let s := s.setCl c { s.cl c with lastAny := max (s.cl c).lastAny eof }
    let s := if s.isNmFrame c f then
        let s := s.inc pNM Cn.NM_NM_RX
        if s.nmCounts c f then s.nmFrame c n f eof true else s
      else s
    if s.sleepMode n = 2 && s.canMode n = 3 && f.fmt ≤ 1 && s.wufMatch n f && (s.clSt c = 1 || s.clSt c = 7) then
      s.nmWake c ⟨6, n, eof⟩
    else s

/-- The keep-alive engine sees a frame received on a CAN channel (Table 3 of *CAN*). -/
def State.nmCanRx (s : State) (n : Nat) (f : CanFrame) (eof : Nat) : State :=
  if !(s.nmUp) then s else (s.clOfCan n).foldl (fun s c => s.clCanRx c n f eof) s

/-- Any frame on a member LIN channel extends CHECK, unless it is stamped after the deadline (R365). -/
def State.nmLinRx (s : State) (n stamp : Nat) : State :=
  if !(s.nmUp) then s
  else (s.clOfLin n).foldl (fun s c =>
    if s.clBehind c stamp then s else s.setCl c { s.cl c with lastAny := max (s.cl c).lastAny stamp }) s

/-- Enter READY_SLEEP and start an offender episode: the member channels' tables are cleared (R368). -/
def State.toReadySleep (s : State) (c stamp : Nat) : State :=
  let s := s.clEnter c 5 stamp
  let s := (s.clCan c).foldl (fun s n => foldN 16 (fun k s => s.setEnt pNM 1 0 (16 * n + k) 0) s) s
  s.setCl c { s.cl c with episode := stamp, reported := false, ovf := false }

/-! ### Writes of NM_CL_REQ, and what waited for a deadline's action -/

/-- AWAKE = 1 reaches the cluster's state (Table 2, R355). -/
def State.clAwakeOn (s : State) (d c stamp : Nat) : State :=
  match s.clSt c with
  | 5 => (s.clEnter c 4 s.now).setCl c { (s.clEnter c 4 s.now).cl c with due := s.now }
  | _ => s.nmWake c ⟨1, d, stamp⟩

/-- AWAKE = 0: NORMAL to READY_SLEEP (Table 2). -/
def State.clAwakeOff (s : State) (c : Nat) : State := if s.clSt c = 4 then s.toReadySleep c s.now else s

/-- An RMR write (Table 2, R355).
DEDUCED, unsafe (notes/assumptions/64.md). -/
def State.clRmr (s : State) (c stamp : Nat) : State :=
  match s.clSt c with
  | 4 => s.toRepeat c true false
  | 5 => s.toRepeat c true false
  | 6 => if stamp ≤ (s.cl c).k then s.abortSleep c true false else s
  | 2 => ((s.fullWake c).countWake c).toRepeat c true false
  | _ => s

/-- A write of NM_CL_REQ accepted at `stamp` is acted on: AWAKE, then RMR. -/
def State.clReqAct (s : State) (d c v stamp : Nat) : State :=
  if s.clBehind c stamp then s.nmHold c (.req d v stamp)
  else
    let s := if v.testBit 0 then s.clAwakeOn d c stamp else s.clAwakeOff c
    if v.testBit 1 then s.clRmr c stamp else s

/-- What waited for the action at a deadline is judged, oldest first (R20). -/
def State.nmRelease (s : State) (c : Nat) : State :=
  (s.cl c).held.foldl (fun s h =>
    match h with
    | .frame n f stamp received => if received then s.clCanRx c n f stamp else s.nmFrame c n f stamp false
    | .wake w => s.nmWake c w
    | .req d v stamp => s.clReqAct d c v stamp) (s.setCl c { s.cl c with held := [] })

end Sys2Proof.Machine
end

