-- ==== Sys2Proof/Machine/TimeOps.lean ====
section
/-!
DEFINITION. The time base's shared operations: the value of a view at a stamp (R55, R62, R67), the time-view journal
(R66 to R69), view commands (R56 to R61), and the hooks of the CAN time masters (R76, R77).
-/

namespace Sys2Proof.Machine

/-! ### Views -/

def State.setTime (s : State) (x : TimeSt) : State := { s with time := x }

/-- What view `v` holds beside its registers. -/
def State.view (s : State) (v : Nat) : View := smGet {} v s.time.views

def State.setView (s : State) (v : Nat) (x : View) : State := s.setTime { s.time with views := smSet {} v x s.time.views }

/-- A field of view block `v`. -/
def vFld (f : Fld) (v : Nat) : Fld := f.at 0x40 v

/-- V0 is always enabled; another view is while its ENABLED flag is set (R57). -/
def State.viewOn (s : State) (v : Nat) : Bool := v = 0 || s.flag pTIME (vFld Fd.TIME_VIEW_STATE_ENABLED v)

/-- The value of a piece at FRC value `f`, in units of 2^-16 ns (R55): the product is exact, the division rounds towards
negative infinity. -/
def Piece.value (p : Piece) (f : Nat) : Nat :=
  let d : Int := (f : Int) - p.fb
  ((p.tb : Int) + d + Int.fdiv (d * p.rate) (1000000000 * 65536)).toNat

/-- The value at FRC value `f` of a chain, newest piece first (R62, R67): the newest piece whose stamp64 lies strictly
before that of `f`; at the enabling stamp itself the view equals V0; none before it. -/
def chainValue : List Piece → Nat → Option Nat
  | [], _ => none
  | [p], f => if p.fb / 65536 < f / 65536 then some (p.value f) else if p.fb / 65536 = f / 65536 then some f else none
  | p :: q :: l, f => if p.fb / 65536 < f / 65536 then some (p.value f) else chainValue (q :: l) f

/-- The value of view `v` at FRC value `f`, when it has one; V0 is the FRC itself (R48). -/
def State.viewAt (s : State) (v f : Nat) : Option Nat := if v = 0 then some f else chainValue (s.view v).pieces f

/-- The value of view `v` now, in whole ns; 0 when it has none (R57). -/
def State.viewNow (s : State) (v : Nat) : Nat := ((s.viewAt v s.frc).getD 0) / 65536

/-- The current rate of a view: that of its newest piece. -/
def State.viewRate (s : State) (v : Nat) : Int := match (s.view v).pieces with
  | p :: _ => p.rate
  | [] => 0

/-- T(F_b) for a command accepted now (R58, R62): the value under the newest piece. -/
def State.viewBase (s : State) (v : Nat) : Nat := match (s.view v).pieces with
  | p :: _ => p.value s.frc
  | [] => s.frc

/-- HOLDOVER of a view changes: its flag, its history and GPTP_INST_STATE.HOLDOVER of the instance it is bound to. -/
def State.setHoldover (s : State) (v : Nat) (b : Bool) : State :=
  let old := s.flag pTIME (vFld Fd.TIME_VIEW_STATE_HOLDOVER v)
  let s := s.setFlag pTIME (vFld Fd.TIME_VIEW_STATE_HOLDOVER v) b
  let s := if old = b then s else
    let x := s.view v
    s.setView v { x with holds := (s.now, b) :: x.holds }
  if 1 ≤ v && v ≤ 4 then s.setFlag pGPTP (vFld Fd.GPTP_INST_STATE_HOLDOVER (v - 1)) b else s

/-- The view was in holdover at a stamp. -/
def State.holdoverAt (s : State) (v stamp : Nat) : Bool :=
  match (s.view v).holds.find? fun x => x.1 < stamp with
  | some x => x.2
  | none => false

/-- Start a new piece at the current cycle; TIME_VIEW_APPLIED follows. -/
def State.newPiece (s : State) (v tb : Nat) (rate : Int) (step : Bool) : State :=
  let x := s.view v
  let s := s.setView v { x with pieces := ⟨s.frc, tb, rate, step⟩ :: x.pieces }
  let r := unsgn 40 rate
  (s.wr pTIME (Reg.TIME_VIEW_APPLIED + 0x40 * v) r).wr pTIME (Reg.TIME_VIEW_APPLIED_HI + 0x40 * v) (r / 2 ^ 32)

/-! ### The journal (R66 to R69) -/

/-- The 32-byte entry of Table 4: `at` is the event in FRC units, `value` in units of 2^-16 ns. -/
def jnlEntry (ev view typ flags seq : Nat) (value rate : Int) : Entry :=
  BitVec.ofNat 256 (ev % 2 ^ 80 + view % 256 * 2 ^ 80 + typ % 256 * 2 ^ 88 + flags % 65536 * 2 ^ 96 + seq % 65536 * 2 ^ 112
    + unsgn 80 value / 65536 * 2 ^ 128 + unsgn 80 value % 65536 * 2 ^ 192 + unsgn 40 rate * 2 ^ 208)

/-- The bytes STAMP, FRAC sit low word first: stamp64 in bits [63:0], the fraction in [79:64]. -/
def frcBits (ev : Nat) : Nat := ev / 65536 % 2 ^ 64 + ev % 65536 * 2 ^ 64

/-- FLAGS.COARSE: 1 in Comma, 2 while the line die carries the FRC. -/
def State.jnlCoarse (s : State) : Nat := if !s.coarse then 0 else if s.pwr = .comma then 4 else 8

/-- Write one journal entry for an event at FRC value `ev`. -/
def State.jnlAt (s : State) (ev view typ flags : Nat) (value rate : Int) : State :=
  let head := s.fld pTIME Fd.TIME_JNL_STATUS_HEAD
  let seq := s.fld pTIME Fd.TIME_JNL_STATUS_SEQ
  let s := s.setEnt pTIME 0 0 head (jnlEntry (frcBits ev) view typ flags seq value rate)
  let s := s.inc pTIME Cn.TIME_JNL_ENTRIES
  let head' := (head + 1) % 1024
  let s := (s.setFld pTIME Fd.TIME_JNL_STATUS_SEQ ((seq + 1) % 65536)).setFld pTIME Fd.TIME_JNL_STATUS_HEAD head'
  let s := if head' = 0 then s.setFlag pTIME Fd.TIME_JNL_STATUS_WRAPPED true else s
  if !(s.flag pTIME Fd.TIME_CFG_JNL_COPY) then
    (s.setTime { s.time with wait := 0 }).setFld pTIME Fd.TIME_JNL_COPY_NEXT head'
  else if s.time.wait = 1024 then
    ((s.setFld pTIME Fd.TIME_JNL_COPY_NEXT head').inc pTIME Cn.TIME_JNL_LOST).err pTIME Er.TIME_JNL_LOST 0
  else
    let s := s.setTime { s.time with wait := s.time.wait + 1 }
    if s.time.wait = 768 then s.raise pTIME Iq.TIME_JNL_LAG else s

/-- Write one journal entry for an event of this cycle. -/
def State.jnl (s : State) (view typ flags : Nat) (value rate : Int) : State :=
  s.jnlAt s.frc view typ (flags + s.jnlCoarse) value rate

/-! ### View commands (Table 2) -/

/-- Refuse a view command: REFUSALS, the journal entry, the latch and the log, the source code's interrupt. -/
def State.viewRefuse (s : State) (src w v typ flags : Nat) (value rate : Int) (code : Nat) : State :=
  let s := (s.jnl v typ flags value rate).inc pTIME Cn.TIME_REFUSALS
  let s := if code = Er.TIME_JUMP then s.raise pTIME Iq.TIME_TIME_JUMP
    else if code = Er.TIME_STEP_REFUSED then s.raise pTIME Iq.TIME_STEP_REFUSED else s
  s.errBy src pTIME code v w

/-- The largest view value a STEP may reach, in units of 2^-16 ns: 2^64 - 1 ns (Table 2). -/
def viewMax : Int := (2 ^ 64 - 1) * 65536

/-- ARM of an enabled view (R59): armed once since enabling. -/
def State.viewArm (s : State) (v : Nat) : State :=
  let x := s.view v
  ((s.setView v { x with everArmed := true, keyed := false }).setFlag pTIME (vFld Fd.TIME_VIEW_STATE_ARMED v) true).setFlag pTIME
    (vFld Fd.TIME_VIEW_STATE_STEPPED v) false |>.jnl v 0x03 0 0 0

/-- STEP by `delta`, from domain `src` (7: the servo). The lists bound to the view are rephased by the caller.
DEDUCED, unsafe (notes/assumptions/60.md). -/
def State.viewStepOk (s : State) (v : Nat) (delta : Int) : Bool :=
  s.flag pTIME (vFld Fd.TIME_VIEW_STATE_ARMED v) && decide (0 ≤ (s.viewBase v : Int) + delta)
    && decide ((s.viewBase v : Int) + delta ≤ viewMax)

/-- An accepted STEP (Table 2). -/
def State.viewStepDo (s : State) (v flags : Nat) (delta : Int) : State :=
  let tb := ((s.viewBase v : Int) + delta).toNat
  let rate := s.viewRate v
  let key := b2n (s.view v).keyed * 2
  let s := s.newPiece v tb rate true
  let s := (s.setFlag pTIME (vFld Fd.TIME_VIEW_STATE_ARMED v) false).setFlag pTIME (vFld Fd.TIME_VIEW_STATE_STEPPED v) true
  let s := s.setHoldover v false
  let s := s.setView v { s.view v with keyed := false }
  s.jnl v 0x04 (flags + key) tb rate

/-- UPDATE with a requested rate within R56 and an offset within the jump threshold (Table 2). -/
def State.viewUpdateDo (s : State) (v flags : Nat) (req : Int) : State :=
  let tb := s.viewBase v
  let cur := s.viewRate v
  let lim : Int := s.fld pTIME (vFld Fd.TIME_VIEW_CFG_SLEW v) * 65536
  let rate := min (max req (cur - lim)) (cur + lim)
  let s := (s.newPiece v tb rate false).setHoldover v false
  if rate = req then s.jnl v 0x05 flags tb rate
  else (s.jnl v 0x06 flags tb rate).raise pTIME Iq.TIME_RATE_CLAMP

/-- The rate limit of R56. -/
def rateOk (r : Int) : Bool := decide (-65536000000 ≤ r) && decide (r ≤ 65536000000)

/-- An UPDATE past the checks of its source (R56, R59): range, then jump threshold; true when it was accepted. -/
def State.viewUpdate (s : State) (src w v flags : Nat) (delta req : Int) : State × Bool :=
  let thr : Int := s.rd pTIME (Reg.TIME_VIEW_JUMP_THR + 0x40 * v)
  if !(rateOk req) then (s.viewRefuse src w v 0x0B flags delta req Er.TIME_RATE_RANGE, false)
  else if thr ≠ 0 && decide (thr * 65536 < (delta.natAbs : Int)) then
    ((s.setHoldover v true).viewRefuse src w v 0x07 flags delta req Er.TIME_JUMP, false)
  else (s.viewUpdateDo v flags req, true)

/-- DELTA of a view block, signed, in units of 2^-16 ns. -/
def State.viewDelta (s : State) (v : Nat) : Int :=
  sgn 64 (s.rd64 pTIME (Reg.TIME_VIEW_DELTA_LO + 0x40 * v)) * 65536 + s.fld pTIME (vFld Fd.TIME_VIEW_DELTA_FRAC_FRAC v)

/-- The requested rate of a view block. -/
def State.viewReq (s : State) (v : Nat) : Int :=
  sgn 40 (s.rd pTIME (Reg.TIME_VIEW_RATE + 0x40 * v) + 2 ^ 32 * s.fld pTIME (vFld Fd.TIME_VIEW_RATE_HI_PPB_HI v))

/-- A view starts, equal to V0 (R57). -/
def State.viewStart (s : State) (v : Nat) : State :=
  let s := s.setView v { pieces := [], holds := [] }
  let s := (s.wr pTIME (Reg.TIME_VIEW_STATE + 0x40 * v) 1).setFlag pTIME (vFld Fd.TIME_VIEW_CFG_ENABLE v) true
  (s.newPiece v s.frc 0 false).jnl v 0x01 0 s.frc 0

/-- A view ends: its chain is gone and its reads return 0 (R57). -/
def State.viewStop (s : State) (v : Nat) : State :=
  let s := s.setHoldover v false
  let s := (s.setView v {}).jnl v 0x02 0 0 0
  let s := (s.wr pTIME (Reg.TIME_VIEW_STATE + 0x40 * v) 0).setFlag pTIME (vFld Fd.TIME_VIEW_CFG_ENABLE v) false
  (s.wr pTIME (Reg.TIME_VIEW_APPLIED + 0x40 * v) 0).wr pTIME (Reg.TIME_VIEW_APPLIED_HI + 0x40 * v) 0

/-! ### Saving and restoring (R65) -/

/-- The time retention area takes every enabled view. -/
def State.viewsSave (s : State) : State :=
  let l := (List.range 8).filterMap fun v =>
    match (s.view v).pieces with
    | p :: _ => if v ≠ 0 && s.viewOn v then some (v, p, s.rd pTIME (Reg.TIME_VIEW_STATE + 0x40 * v)) else none
    | [] => none
  s.setTime { s.time with saved := some l }

/-- The views come back at a logic-die start: one RESTORE entry each, which repeats the view's last piece, and
HOLDOVER = 1. -/
def State.viewsRestore (s : State) : State :=
  match s.time.saved with
  | none => s
  | some l =>
    let one := fun (s : State) (x : Nat × Piece × Nat) =>
      let (v, p, st) := x
      let s := s.setView v { pieces := [{ p with step := false }], everArmed := true }
      let s := (s.wr pTIME (Reg.TIME_VIEW_STATE + 0x40 * v) st).setFlag pTIME (vFld Fd.TIME_VIEW_CFG_ENABLE v) true
      let r := unsgn 40 p.rate
      let s := (s.wr pTIME (Reg.TIME_VIEW_APPLIED + 0x40 * v) r).wr pTIME (Reg.TIME_VIEW_APPLIED_HI + 0x40 * v) (r / 2 ^ 32)
      (s.setHoldover v true).jnlAt p.fb v 0x12 0 p.tb p.rate
    (l.foldl one s).setTime { (l.foldl one s).time with saved := none }

/-! ### CAN time masters (R76, R77) -/

def State.ctm (s : State) (m : Nat) : Ctm := smGet {} m s.time.ctms

def State.setCtm (s : State) (m : Nat) (x : Ctm) : State := s.setTime { s.time with ctms := smSet {} m x s.time.ctms }

/-- A field of instance `m`. -/
def ctmFld (f : Fld) (m : Nat) : Fld := f.at 0x10 m

/-- The reference message was sent: SEQ moves on, its SOF is the next message's time (R77). -/
def State.ctmSent (s : State) (m sof : Nat) : State :=
  let x := s.ctm m
  let s := s.setCtm m { x with sof1 := some sof, sof2 := x.sof1, prevOk := true }
  let s := s.setFlag pTIME (ctmFld Fd.TIME_CTM_STATUS_PENDING m) false
  let s := s.setFld pTIME (ctmFld Fd.TIME_CTM_STATUS_SEQ m) ((s.fld pTIME (ctmFld Fd.TIME_CTM_STATUS_SEQ m) + 1) % 16)
  s.inc pTIME (Cn.TIME_CTM_SENT + 8 * m)

/-- The view took a STEP between two SOF stamps: a step at F_b changes stamps strictly later (R62). -/
def State.steppedBetween (s : State) (v a b : Nat) : Bool :=
  (s.view v).pieces.any fun p => p.step && a ≤ p.fb / 65536 && p.fb / 65536 < b

/-- The payload of the next message (Table 7).
DEDUCED, unsafe (notes/assumptions/62.md). -/
def State.ctmPayload (s : State) (m : Nat) : List Nat :=
  let x := s.ctm m
  let v := s.fld pTIME (ctmFld Fd.TIME_CTM_CFG_VIEW m)
  let seq := s.fld pTIME (ctmFld Fd.TIME_CTM_STATUS_SEQ m)
  let time := match x.sof1 with
    | some f => if x.prevOk then s.viewAt v (f * 65536) else none
    | none => none
  match time, x.sof1 with
  | some T, some f =>
    let stepped := match x.sof2 with
      | some g => s.steppedBetween v g f
      | none => false
    (seq * 16 + 8 + b2n (s.holdoverAt v f) * 4 + b2n stepped * 2) :: beBytes 7 (T / 65536)
  | _, _ => (seq * 16) :: beBytes 7 0

end Sys2Proof.Machine
end

