-- ==== Sys2Proof/Machine/Can.lean ====
section
/-!
DEFINITION. The commands of the CAN controllers (R81 to R115): modes, reception, errors, transmission, and the transceivers'
protections (R542, R546).
-/

namespace Sys2Proof.Machine

/-- The controller's engine is clocked: the device runs; or it has left for Comma and the channel has still to reach STOP
(R113); or, in the Interjection state, it is the diagnostic channel, the only one enabled (R482). -/
def State.canClocked (s : State) (n : Nat) : Bool :=
  s.runs? || (s.winds && (s.can n).comma && canOnBus (s.canMode n))
    || (s.boot = .interjection && s.pwr = .clause && s.enabled (pCANC n))

/-- A command of channel `n`'s protocol engine. -/
def canRun (t n : Nat) (s : State) (f : State → State) : Res :=
  always t s fun s => if n < 24 && s.canClocked n then f s else s

/-! ### Modes -/

/-- RECOVERING starts (Table 2). -/
def State.canRecover (s : State) (n : Nat) : State :=
  if s.canMode n = 9 then (s.setCanMode n 10).setFld (pCANC n) Fd.CANC_ERR_STATE 3 else s

/-- A write of CANC_MODE: REQ, then RECOVER (Table 2, R85, R92, R110).
DEDUCED, unsafe (notes/assumptions/29.md). -/
def State.canModeWrite (s : State) (d n v : Nat) : State :=
  let p := pCANC n
  let a := p * 4096 + Reg.CANC_MODE
  let req := v % 16
  let keep := fun (s : State) =>
    let s := s.setFld p Fd.CANC_MODE_REQ req
    if v.testBit 12 then s.canRecover n else s
  if 6 < req then s.refuse d a v Er.REG_BAD_VALUE
  else if s.canMode n = 0 && req ≠ 0 && !(s.flag p Fd.CANC_MODE_NM_HELD) then
    match s.canReqCheck n with
    | some c => s.errBy d p c n v
    | none => keep (s.setCanMode n 8)
  else keep s

/-- CANC_MODE_REQ (R85, R89). -/
def execCancModeReq (t d n v : Nat) (s : State) : Res :=
  live t s fun s => if n < 24 then s.judged d (pCANC n * 4096 + Reg.CANC_MODE) 32 v fun s => s.canModeWrite d n v else s

/-- RECOVER: a write of CANC_MODE with RECOVER = 1 and REQ as `v` has it (R89). -/
def execRecover (t d n v : Nat) (s : State) : Res :=
  live t s fun s =>
    if n < 24 then
      s.judged d (pCANC n * 4096 + Reg.CANC_MODE) 32 (v ||| 4096) fun s => s.canModeWrite d n (v ||| 4096)
    else s

/-- INTEGRATION_DONE: 11 consecutive recessive bits end INTEGRATING (Table 2). -/
def execIntegrationDone (t n : Nat) (s : State) : Res :=
  canRun t n s fun s =>
    if s.canMode n ≠ 8 then s
    else if s.frozen (pCANC n) then s.canFreezeNow n
    else s.canEnter n (s.canWants n)

/-- MODE_CHANGE_AT_IDLE: a changed request, FREEZE or Comma takes effect at bus idle (Table 2, R111, R113). -/
def execModeChangeAtIdle (t n : Nat) (s : State) : Res := canRun t n s fun s => s.canIdle n

/-- BUS_ON: 128 occurrences of 11 recessive bits end RECOVERING (Table 2). -/
def execBusOn (t n : Nat) (s : State) : Res :=
  canRun t n s fun s =>
    let p := pCANC n
    if s.canMode n ≠ 10 then s
    else
      let s := ((s.setFld p Fd.CANC_ERR_TEC 0).setFld p Fd.CANC_ERR_REC 0).setFld p Fd.CANC_ERR_STATE 0
      ((s.raise p Iq.CANC_BUS_ON).canEvent n 4 s.now).canEnter n (s.canWants n)

/-! ### Automatic rate detection -/

/-- ARD_DWELL_EXPIRY: a candidate's dwell ends without a lock (R87). -/
def execArdDwellExpiry (t n : Nat) (s : State) : Res :=
  canRun t n s fun s =>
    if s.canMode n = 6 && (s.can n).ardFrom + s.fld (pCANC n) Fd.CANC_ARD_CFG_DWELL_MS * 1000000 ≤ s.now then
      s.ardTry n (s.fld (pCANC n) Fd.CANC_ARD_STATUS_INDEX + 1)
    else s

/-- ARD_LOCK: MATCH consecutive valid frames lock the candidate (R88).
DEDUCED, unsafe (notes/assumptions/29.md). -/
def execArdLock (t n : Nat) (s : State) : Res :=
  canRun t n s fun s =>
    let p := pCANC n
    if s.canMode n = 6 && s.fld p Fd.CANC_ARD_CFG_MATCH ≤ (s.can n).ardMatch then
      let e := s.ent p 4 0 (s.fld p Fd.CANC_ARD_STATUS_INDEX)
      let s := (s.wr p Reg.CANC_NBTIM (bitsOf e 1 32)).wr p Reg.CANC_DBTIM (bitsOf e 33 32)
      let s := (s.setFlag p Fd.CANC_ARD_STATUS_LOCKED true).raise p Iq.CANC_ARD_DONE
      let s := s.canEvent n 7 s.now
      let s := s.setFld p Fd.CANC_MODE_REQ (if s.flag p Fd.CANC_ARD_CFG_THEN then 1 else 2)
      (s.setCan n { s.can n with ardMatch := 0 }).setCanMode n 8
    else s

/-! ### Reception -/

/-- REC after a frame received without error, in NORMAL and LOOP_EXT (ISO 11898-1:2024): one less, and from above 127 to a
value the standard leaves between 119 and 127.
DESIGN CHOICE, safe (notes/assumptions/28.md). -/
def State.canRecDown (s : State) (n : Nat) : State :=
  let r := s.fld (pCANC n) Fd.CANC_ERR_REC
  if !(canCounts (s.canMode n)) || r = 0 then s
  else
    let tec := s.fld (pCANC n) Fd.CANC_ERR_TEC
    if r ≤ 127 then s.canErrState n tec (r - 1)
    else s.draw.canErrState n tec (119 + Sys2Proof.Config.free s.draws % 9)

/-- A CAN frame record (Table 11 of *Transcript and Quotation*). -/
def State.canTap (s : State) (n : Nat) (f : CanFrame) (sof eof : Nat) (tx : Bool) : State :=
  let on := (if tx then s.fld pTRN Fd.TRN_TAP_CANTX_TX else s.fld pTRN Fd.TRN_TAP_CAN_RX).testBit n
  if on then s.tap false 0x10 n eof (s.coarseBit + 2 * b2n tx) (canRecPayload f sof eof) else s

/-- A valid frame goes to the consumers of Table 3. -/
def State.canDeliver (s : State) (n : Nat) (f : CanFrame) (sof eof : Nat) : State :=
  let p := pCANC n
  let m := s.canMode n
  if m = 6 then s.setCan n { s.can n with ardMatch := (s.can n).ardMatch + 1 }
  else if !(1 ≤ m && m ≤ 5) then s
  else if s.boot = .interjection then (s.inc p Cn.CANC_RX_OK).canRecDown n
  else
    let s := s.inc p Cn.CANC_RX_OK
    let s := s.canRecDown n
    let s := if m = 3 then s.inc p Cn.CANC_ELLIPSIS_ACK else s
    let s := if m ≠ 3 && s.flag p Fd.CANC_CFG_TO_ROUTER then s.srtPut { kind := 0, ch := n, stamp := eof, f := f } else s
    let s := s.canTap n f sof eof false
    let s := if m = 3 then s else s.canHost n f sof eof
    s.nmCanRx n f eof

/-- CAN_FRAME_RECEIVED (R90, R91). A frame of a disabled format is none (R83).
DESIGN CHOICE, safe (notes/assumptions/15.md). -/
def execCanFrameReceived (t n : Nat) (f : CanFrame) (sof eof : Nat) (s : State) : Res :=
  canRun t n s fun s => if s.canFmtOn n f.fmt then s.canDeliver n f (canStamp n sof) (canStamp n eof) else s

/-- PROTOCOL_EXCEPTION: with PEX = 1 a recessive FDF or XLF bit of a disabled format (R83). -/
def execProtocolException (t n : Nat) (s : State) : Res :=
  canRun t n s fun s =>
    let p := pCANC n
    let off := !(s.flag p Fd.CANC_CFG_FD_EN) || !(s.flag p Fd.CANC_CFG_XL_EN)
    if s.flag p Fd.CANC_CFG_PEX && off && canOnBus (s.canMode n) && s.canMode n ≠ 8 then
      let s := ((s.inc p Cn.CANC_PEX).raise p Iq.CANC_PEX).canEvent n 6 s.now
      (s.err p Er.CAN_PEX n).setCanMode n 8
    else s

/-! ### Errors -/

/-- LEC code and counter of an error kind (R108, Table 8). -/
def canLec : CanErr → Nat
  | .stuff => 1 | .form => 2 | .ack => 3 | .bit1 => 4 | .bit0 => 5 | .crc => 6

def canErrCnt : CanErr → Nat
  | .stuff => Cn.CANC_STUFF_ERR | .form => Cn.CANC_FORM_ERR | .ack => Cn.CANC_ACK_ERR
  | .bit1 | .bit0 => Cn.CANC_BIT_ERR | .crc => Cn.CANC_CRC_ERR

/-- An identifier clash (R109). -/
def State.canClash (s : State) (n : Nat) (f : CanFrame) : State :=
  let p := pCANC n
  let s := if s.flag p Fd.CANC_CLASH_ID_VALID then s
    else (s.wr p Reg.CANC_CLASH_ID (2 ^ 31 + b2n f.ext * 2 ^ 30 + f.busId)).wr64 p Reg.CANC_CLASH_STAMP_LO s.now
  let s := ((s.raise p Iq.CANC_ID_CLASH).canEvent n 5 s.now).inc p Cn.CANC_ID_CLASH
  s.err p Er.CAN_ID_CLASH n

/-- An attempt has failed: cancelled, exhausted, or back to selection (R105, R107, Table 6). -/
def State.canAttemptFailed (s : State) (n : Nat) (a : Attempt) : State :=
  let p := pCANC n
  let limit := s.fld p Fd.CANC_CFG_TX_RETRY
  let s := s.setCan n { s.can n with attempt := none }
  match a.ent with
  | some r =>
    let q := (s.can n).rtq
    if limit ≠ 0 && limit ≤ r.fails + 1 then ((s.setRtq n (q.erase r)).ctmGone r).inc p Cn.CANC_RTQ_DROP
    else s.setRtq n (q.map fun x => if x = r then { r with fails := r.fails + 1 } else x)
  | none =>
    let x := s.txb n a.src
    if x.cancel.isSome then s.txbFinal n a.src 4
    else if limit ≠ 0 && limit ≤ x.fails + 1 then (s.txbFinal n a.src 6).err p Er.CAN_TX_FAILED a.src
    else (s.setTxb n a.src { x with fails := x.fails + 1 }).setTxbState n a.src 1

/-- A bus error on the channel (R108, R109).
DESIGN CHOICE, safe (notes/assumptions/28.md). -/
def State.canError (s : State) (n : Nat) (e : CanFault) : State :=
  let p := pCANC n
  let m := s.canMode n
  if !(canOnBus m) || m = 8 then s
  else
    let s := (s.setFld p Fd.CANC_ERR_LEC (canLec e.kind)).inc p (canErrCnt e.kind)
    if m = 6 then s.ardTry n (s.fld p Fd.CANC_ARD_STATUS_INDEX + 1)
    else
      let s := match (s.can n).attempt with
        | some a =>
          if !e.tx then s
          else
            let bitErr := e.kind = .bit1 || e.kind = .bit0
            let s := if bitErr && e.afterArb && a.won then s.canClash n a.frame else s
            s.canAttemptFailed n a
        | none => s
      if canCounts m then
        s.canErrState n (s.fld p Fd.CANC_ERR_TEC + e.tecInc) (min 255 (s.fld p Fd.CANC_ERR_REC + e.recInc))
      else s

/-- CAN_ERROR_DETECTED (R108).
DESIGN CHOICE, safe (notes/assumptions/15.md). DEDUCED, unsafe (notes/assumptions/29.md). -/
def execCanErrorDetected (t n : Nat) (e : CanFault) (s : State) : Res := canRun t n s fun s => s.canError n e

/-! ### Transmission -/

/-- CAN_TXB_REQ: a write of CANC_TXB_CMD (R101). -/
def execCanTxbReq (t d n v : Nat) (s : State) : Res :=
  live t s fun s => if n < 24 then s.judged d (pCANC n * 4096 + Reg.CANC_TXB_CMD) 32 v fun s => s.txbCmd d n v else s

/-- CAN_TXB_CANCEL: a write of CANC_TXB_CMD; the CANCEL bits of a word go first, then its REQ bits (R101, R107). -/
def execCanTxbCancel (t d n v : Nat) (s : State) : Res :=
  live t s fun s => if n < 24 then s.judged d (pCANC n * 4096 + Reg.CANC_TXB_CMD) 32 v fun s => s.txbCmd d n v else s

/-- RTQ_ENTRY: a frame enters the router transmit queue, or is refused (R103). -/
def execRtqEntry (t n : Nat) (f : CanFrame) (s : State) : Res := canRun t n s fun s => s.rtqEnter n f s.now 0

/-- The channel selects a frame and commits to drive SOF (R102 to R104). -/
def State.canStart (s : State) (n : Nat) : State :=
  if !(canSends (s.canMode n)) || (s.can n).attempt.isSome || s.frozen (pCANC n) || (s.can n).comma
      || s.canWants n ≠ s.canMode n then s
  else match s.canChoose n with
    | some a =>
      let s := s.setCan n { s.can n with attempt := some a }
      if a.src < 3 then s.setTxbState n a.src 2 else s
    | none => s

/-- The attempt loses arbitration: back to selection, or cancelled (R104, R105, R107). -/
def State.canLost (s : State) (n : Nat) (a : Attempt) : State :=
  let s := (s.setCan n { s.can n with attempt := none }).inc (pCANC n) Cn.CANC_ARB_LOST
  if a.src = 3 then s
  else if (s.txb n a.src).cancel.isSome then s.txbFinal n a.src 4 else s.setTxbState n a.src 1

/-- TX_ARBITRATION: phase 0 selection and SOF, 1 arbitration won, 2 arbitration lost (R104, R107). -/
def execTxArbitration (t n phase : Nat) (s : State) : Res :=
  canRun t n s fun s =>
    match (s.can n).attempt with
    | none => if phase = 0 then s.canStart n else s
    | some a =>
      if a.won || phase = 0 then s
      else if phase = 1 then s.setCan n { s.can n with attempt := some { a with won := true } }
      else s.canLost n a

/-- CANC_TDC_STAT after a frame whose data phase is compensated: a delay above 127 mtq reads 127 and sets TDC_SAT (R86). -/
def State.canTdc (s : State) (n : Nat) (f : CanFrame) (tdcv : Nat) : State :=
  let p := pCANC n
  let put := fun (fd : Fld) => (s.setFld p fd (min tdcv 127)).setFlag p Fd.CANC_TDC_STAT_TDC_SAT (127 < tdcv)
  if f.fmt = 4 then (if s.flag p Fd.CANC_TDC_XTDC_EN then put Fd.CANC_TDC_STAT_XTDCV else s)
  else if (f.fmt = 2 || f.fmt = 3) && f.brs && s.flag p Fd.CANC_TDC_TDC_EN then put Fd.CANC_TDC_STAT_TDCV else s

/-- A transmitted frame reaches its EOF (R91, R96, R107, R114).
DESIGN CHOICE, safe (notes/assumptions/28.md). -/
def State.canSent (s : State) (n : Nat) (a : Attempt) (sof eof tdcv : Nat) : State :=
  let p := pCANC n
  let s := s.setCan n { s.can n with attempt := none }
  let s := (s.inc p Cn.CANC_TX_OK).canTdc n a.frame tdcv
  let tec := s.fld p Fd.CANC_ERR_TEC
  let s := if canCounts (s.canMode n) && tec ≠ 0 then s.canErrState n (tec - 1) (s.fld p Fd.CANC_ERR_REC) else s
  let s := s.canTap n a.frame sof eof true
  let s := if s.flag p Fd.CANC_CFG_TX_ECHO then s.canQueue n 1 a.src a.frame sof eof else s
  let s := s.emit (.can n a.src a.frame)
  match a.ent with
  | some r =>
    let s := s.setRtq n ((s.can n).rtq.erase r)
    if r.ctm = 0 then s else s.ctmSent (r.ctm - 1) sof
  | none =>
    let late : Bool := match (s.txb n a.src).cancel with
      | some c => decide (c ≤ eof)
      | none => false
    let mine := a.src = 2 && 2 ≤ (s.can n).nmBuf
    let cl := (s.can n).nmCl
    let s := if late then
        ((s.inc p Cn.CANC_ABORT_LATE).raise p Iq.CANC_ABORT_LATE).errAt p Er.CAN_ABORT_LATE a.src 0 eof
      else s
    let s := s.txbFinal n a.src (if late then 5 else 3)
    if mine then (s.inc pNM Cn.NM_NM_TX).nmFrame cl n a.frame eof false else s

/-- CAN_TX_SUCCESS (R107). -/
def execCanTxSuccess (t n sof eof tdcv : Nat) (s : State) : Res :=
  canRun t n s fun s =>
    match (s.can n).attempt with
    | some a => if a.won then s.canSent n a (canStamp n sof) (canStamp n eof) tdcv else s
    | none => s

/-! ### Transceiver protections (R542, R546) -/

/-- CAN_DOMINANT_TIMEOUT: the transceiver of an in-package channel releases the bus (R542). -/
def execCanDominantTimeout (t n : Nat) (s : State) : Res :=
  always t s fun s =>
    if n < 16 && !(s.ldie.canReleased.contains n) then
      { s with ldie := { s.ldie with canReleased := n :: s.ldie.canReleased } }
    else s

/-- DRIVER_THERMAL_SHUTDOWN: a CAN or LIN driver switches off at its limit, and back on 15 °C below it (R546). -/
def execDriverThermalShutdown (t : Nat) (lin : Bool) (n : Nat) (off : Bool) (s : State) : Res :=
  always t s fun s =>
    let set := fun (l : List Nat) => if off then n :: l.filter (· ≠ n) else l.filter (· ≠ n)
    if lin then (if n < 8 then { s with ldie := { s.ldie with linHot := set s.ldie.linHot } } else s)
    else if n < 16 then { s with ldie := { s.ldie with canHot := set s.ldie.canHot } } else s

/-! ### Register writes of a CANC page -/

/-- A write of a CANC register that has no row of its own (R84, R92, Table 8).
DEDUCED, safe (notes/assumptions/30.md). -/
def State.cancWrite (s : State) (d n off w : Nat) : State :=
  let p := pCANC n
  let a := p * 4096 + off
  let w' := BitVec.ofNat 32 w
  let bad := s.refuse d a w Er.REG_BAD_VALUE
  let stopOnly := off = Reg.CANC_NBTIM || off = Reg.CANC_DBTIM || off = Reg.CANC_XBTIM || off = Reg.CANC_TDC
    || off = Reg.CANC_XLCFG || off = Reg.CANC_CFG || off = Reg.CANC_OBJ_RANGE
  if stopOnly && s.canMode n ≠ 0 then bad
  else if off = Reg.CANC_XLCFG && w.testBit 0 && (n < 16 || w.testBit 1) then bad
  else if off = Reg.CANC_OBJ_RANGE
      && 8192 < fget w' Fd.CANC_OBJ_RANGE_BASE + fget w' Fd.CANC_OBJ_RANGE_COUNT then bad
  else if off = Reg.CANC_EWL && (fget w' Fd.CANC_EWL_REC_WARN = 0 || fget w' Fd.CANC_EWL_TEC_WARN = 0) then bad
  else if off = Reg.CANC_ARD_CFG && (fget w' Fd.CANC_ARD_CFG_DWELL_MS = 0
      || fget w' Fd.CANC_ARD_CFG_MATCH = 0 || fget w' Fd.CANC_ARD_CFG_ROUNDS = 0) then bad
  else if off = Reg.CANC_EWL then
    -- a threshold at or below a counter raises its source at once (R108)
    let tec := s.fld p Fd.CANC_ERR_TEC
    let rec' := s.fld p Fd.CANC_ERR_REC
    let was := (s.fld p Fd.CANC_EWL_TEC_WARN ≤ tec, s.fld p Fd.CANC_EWL_REC_WARN ≤ rec')
    let s := s.store a w
    let s := if !was.1 && s.fld p Fd.CANC_EWL_TEC_WARN ≤ tec then s.raise p Iq.CANC_TEC_WARN else s
    if !was.2 && s.fld p Fd.CANC_EWL_REC_WARN ≤ rec' then s.raise p Iq.CANC_REC_WARN else s
  else if off = Reg.CANC_CLASH_ID then
    let s := s.store a w
    if w.testBit 31 then s.wr64 p Reg.CANC_CLASH_STAMP_LO 0 else s
  else s.store a w

end Sys2Proof.Machine
end

