-- ==== Sys2Proof/Machine/GateOps.lean ====
section
/-!
DEFINITION. Gate control lists and the credit-based shaper (R294 to R307): positions in a list, gates and hold, guard band
spans, credits, and what a view step or a disabled view does to the lists bound to it.
-/

namespace Sys2Proof.Machine

/-! ### Port and queue entries of EGR -/

/-- MAC rate of a speed code in Mbit/s (Table 8 of *Ethernet Ports and PHYs*). -/
def speedMbps (code : Nat) : Nat := nth 0 [10, 100, 1000, 2500, 5000, 10000] code

/-- The current MAC rate of an external port in Mbit/s; host ports run at 10 Gbit/s. -/
def State.portMbps (s : State) (p : Nat) : Nat := if p < 32 then speedMbps (s.fld (pEPRT p) Fd.EPRT_STATE_SPEED) else 10000

/-- TSA of queue `q` of port `p` (R289). -/
def State.tsa (s : State) (p q : Nat) : Nat := bitsOf (s.ent pEGR 0 0 p) (176 + 2 * q) 2

/-- DWRR weight of queue `q`. -/
def State.weight (s : State) (p q : Nat) : Nat := bitsOf (s.ent pEGR 0 0 p) (192 + 8 * q) 8

/-- A field of the queue entry. -/
def State.eqF (s : State) (p q : Nat) (f : Fld) : Nat := s.entF pEGR 1 0 (8 * p + q) f

/-- Preemption in use on transmit.
DEDUCED, unsafe (notes/assumptions/47.md). -/
def State.pmActive (s : State) (p : Nat) : Bool := p < 32 && s.flag (pEPRT p) Fd.EPRT_PMAC_STAT_ACTIVE

/-- The queue is preemptable: its PMASK bit counts only while ACTIVE = 1 (R187, R291). -/
def State.preemptable (s : State) (p q : Nat) : Bool :=
  s.pmActive p && (s.fld (pEPRT p) Fd.EPRT_PMAC_PMASK).testBit q

/-! ### Lists -/

/-- A field of the operational (bank 0) or administrative (bank 1) list parameters. -/
def State.glpF (s : State) (p bank : Nat) (f : Fld) : Nat := s.entF pEGR 3 bank p f

/-- State of a port's list: 0 OFF, 1 RUNNING, 2 PENDING, 3 ERROR. -/
def State.gclSt (s : State) (p : Nat) : Nat := s.glpF p 0 En.GLP_STATE

/-- Change the list state; EGR_GCL_PENDING and EGR_GCL_ERRMAP follow. -/
def State.setGclSt (s : State) (p x : Nat) : State :=
  let s := s.setEntF pEGR 3 0 p En.GLP_STATE x
  let bit := fun (r : Nat) (on : Bool) (s : State) => s.setFlag pEGR ⟨r, p, 1⟩ on
  bit Reg.EGR_GCL_ERRMAP (x = 3) (bit Reg.EGR_GCL_PENDING (x = 2) s)

/-- The list that runs is the operational one: RUNNING, or PENDING from RUNNING. -/
def State.gclRuns (s : State) (p : Nat) : Bool := s.gclSt p = 1 || (s.gclSt p = 2 && (s.egr p).before = 1)

/-- A segment of a list's cycle: entry, start and end in ns from the cycle start, its entry word. -/
structure GateSeg where
  e : Nat
  lo : Nat
  hi : Nat
  ent : Entry
deriving DecidableEq, Repr

/-- The segments of a list from entry `e`, `left` entries remaining, `lo` ns into a cycle of `cyc` (R297): the last entry
runs to the cycle end, an entry is cut there, and those at or after it are skipped. -/
def State.gateSegs (s : State) (p bank cyc : Nat) : Nat → Nat → Nat → List GateSeg
  | 0, _, _ => []
  | left + 1, e, lo =>
    let w := s.ent pEGR 2 bank (256 * p + e)
    let hi := if left = 0 then cyc else min cyc (lo + fget w En.GLE_INTERVAL)
    if cyc ≤ lo then [] else ⟨e, lo, hi, w⟩ :: s.gateSegs p bank cyc left (e + 1) hi

/-- All segments of a list. -/
def State.segsOf (s : State) (p bank : Nat) : List GateSeg :=
  s.gateSegs p bank (s.glpF p bank En.GLP_CYCLE) (s.glpF p bank En.GLP_LEN) 0 0

/-- The phase of a view value (in ns) in a list: (T - BASE) mod CYCLE (R305). -/
def State.gclPhase (s : State) (p bank T : Nat) : Nat :=
  ((T : Int) - s.glpF p bank En.GLP_BASE).emod (s.glpF p bank En.GLP_CYCLE) |>.toNat

/-- The segment that contains a phase. -/
def gateAt (l : List GateSeg) (φ : Nat) : Option GateSeg := l.find? fun g => g.lo ≤ φ && φ < g.hi

/-- Gates that apply on a port (R298): all open when OFF, FALLBACK in ERROR, those of the entry in progress otherwise. -/
def State.gatesOf (s : State) (p : Nat) : Nat :=
  if 32 ≤ p then 255
  else if s.gclSt p = 3 then s.glpF p 0 En.GLP_FALLBACK
  else if s.gclRuns p then (s.egr p).gates else 255

/-- A hold is in force; one asserted ahead of S counts while the port is PENDING (R302). -/
def State.holdOn (s : State) (p : Nat) : Bool := p < 32 && (s.gclRuns p || s.gclSt p = 2) && (s.egr p).hold

/-- The gate of queue `q` is open. -/
def State.gateOpen (s : State) (p q : Nat) : Bool := (s.gatesOf p).testBit q

/-! ### How long a gate stays open -/

/-- From the segments as they follow each other: the length for which gate `q` stays open, `none` when no segment of them
closes it. -/
def openRun (q : Nat) : List (Nat × Entry) → Nat → Option Nat
  | [], _ => none
  | (len, w) :: l, acc =>
    if len = 0 then openRun q l acc
    else if (fget w En.GLE_GATES).testBit q then openRun q l (acc + len) else some acc

/-- The time for which gate `q` stays open from phase `φ` in a list, across cycle ends; `none`: always. -/
def gateSpan (l : List GateSeg) (φ q : Nat) : Option Nat :=
  let rest := l.filterMap fun g => if φ < g.hi then some (g.hi - max φ g.lo, g.ent) else none
  let all := l.map fun g => (g.hi - g.lo, g.ent)
  openRun q (rest ++ all) 0

/-- W_q of the operational list (R301); `none`: infinite. -/
def State.wq? (s : State) (p q : Nat) : Option Nat :=
  if 32 ≤ p || !(s.gclRuns p) then (if s.gclSt p = 3 && p < 32 && !(s.gateOpen p q) then some 0 else none)
  else
    let l := s.segsOf p 0
    l.foldl (fun m g => match m, gateSpan l g.lo q with
      | some a, some b => some (max a b)
      | _, _ => none) (some 0)

/-! ### When a view reaches a value -/

/-- The FRC value at which a view reaches `T` ns on its newest piece (R55): the least f with T(f) at or after it. -/
def State.viewReach (s : State) (v T : Nat) : Nat :=
  if v = 0 then T * 65536
  else match (s.view v).pieces with
    | p :: _ =>
      let D : Int := 1000000000 * 65536
      let need : Int := (T * 65536 : Nat) - (p.tb : Int)
      if need ≤ 0 then p.fb else p.fb + (Int.fdiv (need * D + (D + p.rate - 1)) (D + p.rate)).toNat
    | [] => T * 65536

/-- The remaining time in ns of the schedule in force for which gate `q` stays open, a change pending at S included
(R299); `none`: without end.
DEDUCED, unsafe (notes/assumptions/51.md). -/
def State.gateLeft (s : State) (p q : Nat) : Option Nat :=
  if 32 ≤ p then none
  else
    let now := if s.gclRuns p then
        gateSpan (s.segsOf p 0) (s.gclPhase p 0 (s.viewNow (s.glpF p 0 En.GLP_VIEW))) q
      else if s.gateOpen p q then none else some 0
    if s.gclSt p ≠ 2 then now
    else
      let e := s.egr p
      let left := (s.viewReach e.changeView e.changeAt - s.frc) / 65536
      let past := match now with
        | some x => left ≤ x
        | none => true
      if !past then now
      else if s.glpF p 1 En.GLP_LEN = 0 then none
      else
        let φ := s.gclPhase p 1 (((s.viewAt (s.glpF p 1 En.GLP_VIEW) (s.viewReach e.changeView e.changeAt)).getD 0) / 65536)
        (gateSpan (s.segsOf p 1) φ q).map fun x => left + x

/-! ### Credits (R294) -/

/-- A frame or fragment of queue `q` is on the line. -/
def State.onLine (s : State) (p q : Nat) : Bool := match (s.egr p).line with
  | some x => x.q = q
  | none => false

/-- One queue's credit after `dt` FRC units, in units of 10^-6 of 2^-16 bit.
DEDUCED, unsafe (notes/assumptions/51.md). -/
def State.creditStep (s : State) (p q dt : Nat) (c : Int) : Int :=
  let idle : Int := s.eqF p q En.EQ_IDLE_SLOPE
  let rate : Int := s.portMbps p * 1000
  let holds := !(s.queue (qkey p q)).count = 0
  if s.onLine p q then c - (rate - idle) * dt
  else if s.gateOpen p q && (holds || decide (c < 0)) then
    let c' := c + idle * dt
    if !holds && decide (0 < c') then 0 else c'
  else if !holds && decide (0 < c) then 0 else c

/-- Bring the credits of a port's shaped queues up to the current cycle; QUEUE.CREDIT follows in whole bits. Every change of
a queue, a gate or the line is preceded by it. -/
def State.creditSync (s : State) (p : Nat) : State :=
  let e := s.egr p
  let dt := s.frc - e.creditAt
  let qs := (List.range 8).filter fun q => s.tsa p q = 1
  let cs := qs.foldl (fun m q => smSet 0 q (s.creditStep p q dt (smGet 0 q e.credit)) m) e.credit
  let s := s.setEgr p { e with credit := cs, creditAt := s.frc }
  qs.foldl (fun s q => s.setEntF pEGR 1 0 (8 * p + q) En.EQ_CREDIT (unsgn 32 (Int.fdiv (smGet 0 q cs) (1000000 * 65536)))) s

/-! ### Gate events -/

/-- An express frame on the line whose gate has closed is an overrun (R300). -/
def State.gateOverrun (s : State) (p : Nat) : State :=
  match (s.egr p).line with
  | some x =>
    if x.pre || s.gateOpen p x.q || (s.egr p).overrun then s
    else
      let s := s.setEgr p { s.egr p with overrun := true }
      let s := s.setEntF pEGR 1 0 (8 * p + x.q) En.EQ_OVERRUN (s.eqF p x.q En.EQ_OVERRUN + 1)
      ((s.inc pEGR Cn.EGR_OVERRUN).raise pEGR Iq.EGR_OVERRUN).errRun pEGR Er.EGR_OVERRUN p p
  | none => s

/-- The gates of a port have changed: an express frame on the line may overrun. A preemptable one is preempted at the next
permissible point, a TRANSMISSION_SELECTION. -/
def State.gateChanged (s : State) (p : Nat) : State := s.gateOverrun p

/-- Join the entry that contains the current phase of the operational list: its GATES and OP apply (R297, R302, R305). -/
def State.gclJoin (s : State) (p : Nat) : State :=
  let φ := s.gclPhase p 0 (s.viewNow (s.glpF p 0 En.GLP_VIEW))
  match gateAt (s.segsOf p 0) φ with
  | some g =>
    let s := s.creditSync p
    let e := s.egr p
    let op := fget g.ent En.GLE_OP
    let hold := if !(s.pmActive p) then e.hold else if op = 1 then true else if op = 2 then false else e.hold
    ((s.setEgr p { e with gates := fget g.ent En.GLE_GATES, hold := hold }).setEntF pEGR 3 0 p En.GLP_ENTRY g.e).gateChanged p
  | none => s

/-- The view a port's schedule hangs on: that of the running list, or of the pending one (a list with LEN = 0 binds none). -/
def State.gclBound (s : State) (p v : Nat) : Bool :=
  let run := (s.gclRuns p || s.gclSt p = 3) && s.glpF p 0 En.GLP_LEN ≠ 0 && s.glpF p 0 En.GLP_VIEW = v
  run || (s.gclSt p = 2 && s.glpF p 1 En.GLP_LEN ≠ 0 && s.glpF p 1 En.GLP_VIEW = v)

/-- A view was stepped: each list bound to it goes on in the entry of its new phase; EGR_GCL_REPHASE is logged (R307). -/
def State.gclRephase (s : State) (v : Nat) : State :=
  foldN 32 (fun p s =>
    if (s.gclSt p = 1 || s.gclSt p = 2) && s.gclBound p v then
      let s := if s.gclRuns p && s.glpF p 0 En.GLP_VIEW = v then s.gclJoin p else s
      s.err pEGR Er.EGR_GCL_REPHASE p
    else s) s

/-- A view was disabled: the ports bound to it enter ERROR with FALLBACK gates, pending changes dropped (R307). -/
def State.gclViewGone (s : State) (v : Nat) : State :=
  foldN 32 (fun p s =>
    if s.gclSt p ≠ 0 && s.gclSt p ≠ 3 && s.gclBound p v then
      let s := (s.creditSync p).setGclSt p 3
      let s := s.setEgr p { s.egr p with hold := false }
      ((s.raise pEGR Iq.EGR_GCL_ERROR).err pEGR Er.EGR_GCL_ERROR p).gateChanged p
    else s) s

end Sys2Proof.Machine
end

