-- ==== Sys2Proof/Machine/FdbOps.lean ====
section
/-!
DEFINITION. The forwarding databases' shared operations (R230 to R251): buckets, lookup, insertion with relocation, the
mirror of a rebuild, learning, and removals. Database 0 is FDB[A], 1 is FDB[B].
-/

namespace Sys2Proof.Machine

def State.fdb (s : State) (i : Nat) : Fdb := smGet {} i s.fdbs

def State.setFdb (s : State) (i : Nat) (x : Fdb) : State := { s with fdbs := smSet {} i x s.fdbs }

/-- The active bank of a database. -/
def State.fdbBank (s : State) (i : Nat) : Nat := s.fld (pFDB i) Fd.FDB_GEN_BANK

/-- A slot of a bank. -/
def State.slotAt (s : State) (i bank idx : Nat) : Entry := s.ent (pFDB i) 0 bank idx

def isValid (e : Entry) : Bool := fget e En.FENT_VALID = 1

def isStatic (e : Entry) : Bool := fget e En.FENT_STATIC = 1

def isXlrn (e : Entry) : Bool := fget e En.FENT_XLRN = 1

/-- A local dynamic entry of port `p`, as the port's COUNT counts it (R240). -/
def localOn (e : Entry) (p : Nat) : Bool :=
  isValid e && !isStatic e && !isXlrn e && fget e En.FENT_GROUP = 0 && fget e En.FENT_DEST = p

/-- Seed `side` of a bank: the active seeds, or the standby seeds (R231). -/
def State.fdbSeed (s : State) (i bank side : Nat) : Nat :=
  s.rd64 (pFDB i) ((if bank = s.fdbBank i then Reg.FDB_SEED0_LO else Reg.FDB_SB_SEED0_LO) + 8 * side)

/-- The bucket of a key on a side (R231). -/
def State.fdbBucket (s : State) (i bank side fid mac : Nat) : Nat :=
  crc32c (leBytes 8 ((fid * 2 ^ 48 + mac) ^^^ s.fdbSeed i bank side)) % 2048

/-- The four slots of a bucket. -/
def bucketSlots (side b : Nat) : List Nat := (List.range 4).map fun k => side * 8192 + b * 4 + k

/-- The slots of a key's bucket on a side. -/
def State.keySlots (s : State) (i bank side fid mac : Nat) : List Nat := bucketSlots side (s.fdbBucket i bank side fid mac)

/-- The entries of the stash. -/
def stashSlots : List Nat := (List.range 64).map fun k => 16384 + k

/-- A slot that holds a valid copy of a key and reads without error (R233, R255). -/
def State.slotHolds (s : State) (i bank fid mac idx : Nat) : Bool :=
  let e := s.slotAt i bank idx
  isValid e && fget e En.FENT_FID = fid && fget e En.FENT_MAC = mac && !((s.fdb i).bad.contains (bank, idx))

/-- The lookup of a key: side 0, then side 1, then the stash (R233). -/
def State.fdbFind (s : State) (i bank fid mac : Nat) : Option Nat :=
  (s.keySlots i bank 0 fid mac ++ s.keySlots i bank 1 fid mac ++ stashSlots).find? (s.slotHolds i bank fid mac)

/-! ### Writes of slots -/

/-- Change a port's COUNT. -/
def State.portCountAdd (s : State) (i p : Nat) (up : Bool) : State :=
  let n := s.entF (pFDB i) 3 0 p En.LPORT_COUNT
  s.setEntF (pFDB i) 3 0 p En.LPORT_COUNT (if up then n + 1 else n - 1)

/-- FDB_COUNT and the port COUNT follow one slot of the active bank. STASH_HI rises with the stash (R247). -/
def State.slotCount (s : State) (i idx : Nat) (old new : Entry) : State :=
  let p := pFDB i
  let adj := fun (f : Fld) (s : State) =>
    if isValid new && !isValid old then s.setFld p f (s.fld p f + 1)
    else if isValid old && !isValid new then s.setFld p f (s.fld p f - 1) else s
  let s := adj Fd.FDB_COUNT_ENTRIES s
  let was := s.fld p Fd.FDB_COUNT_STASH
  let s := if 16384 ≤ idx then adj Fd.FDB_COUNT_STASH s else s
  let lv := s.fld p Fd.FDB_STASH_WARN_LEVEL
  let s := if was < lv && lv ≤ s.fld p Fd.FDB_COUNT_STASH then s.raise p Iq.FDB_STASH_HI else s
  let on := fun (e : Entry) => isValid e && !isStatic e && !isXlrn e && fget e En.FENT_GROUP = 0
  let s := if on old then s.portCountAdd i (fget old En.FENT_DEST) false else s
  if on new then s.portCountAdd i (fget new En.FENT_DEST) true else s

/-- Write one slot of a bank. -/
def State.slotPut (s : State) (i bank idx : Nat) (e : Entry) : State :=
  let old := s.slotAt i bank idx
  let s := s.setEnt (pFDB i) 0 bank idx e
  let s := s.setFdb i { s.fdb i with bad := (s.fdb i).bad.filter (· ≠ (bank, idx)) }
  if bank = s.fdbBank i then s.slotCount i idx old e else s

/-- FDB_COUNT and every port COUNT from the active bank, at a bank switch and after a soft reset. -/
def State.fdbRecount (s : State) (i : Nat) : State :=
  let l := (s.tabList (pFDB i) 0 (s.fdbBank i)).filter fun x => isValid x.2
  let s := s.setFld (pFDB i) Fd.FDB_COUNT_ENTRIES l.length
  let s := s.setFld (pFDB i) Fd.FDB_COUNT_STASH (l.filter fun x => 16384 ≤ x.1).length
  foldN 36 (fun p s =>
    if portOfSide i p then s.setEntF (pFDB i) 3 0 p En.LPORT_COUNT (l.filter fun x => localOn x.2 p).length else s) s

/-! ### Insertion (R244 to R246) -/

/-- A free slot among some. -/
def State.freeSlot (s : State) (i bank : Nat) (l : List Nat) : Option Nat := l.find? fun idx => !isValid (s.slotAt i bank idx)

/-- The slots of the other-side bucket of the entry in a bucket slot. -/
def State.otherSlots (s : State) (i bank idx : Nat) : List Nat :=
  let e := s.slotAt i bank idx
  s.keySlots i bank (if idx < 8192 then 1 else 0) (fget e En.FENT_FID) (fget e En.FENT_MAC)

/-- A slot of a bucket, not yet a mover, whose entry's other bucket has a free slot, with that slot. -/
def State.lastMove (s : State) (i bank : Nat) (path l : List Nat) : Option (Nat × Nat) :=
  l.findSome? fun idx =>
    if path.contains idx then none
    else match s.freeSlot i bank (s.otherSlots i bank idx) with
      | some f => some (idx, f)
      | none => none

/-- The next mover of a bucket: the slot ROT names, or the next in rotation that is no mover yet. -/
def nextMover (path l : List Nat) (rot : Nat) : Option Nat :=
  (List.range 4).findSome? fun k =>
    let idx := nth 0 l ((rot + k) % 4)
    if path.contains idx then none else some idx

/-- The steps of a path search (R245): the movers chosen so far, the current bucket, ROT, steps left; the path from the
first mover to the free slot, and ROT after the search. -/
def State.pathStep (s : State) (i bank : Nat) : Nat → List Nat → List Nat → List Nat → Nat → Option (List Nat) × Nat
  | 0, _, _, _, rot => (none, rot)
  | n + 1, path, cur, also, rot =>
    match s.lastMove i bank path (cur ++ also) with
    | some (m, f) => (some (path ++ [m, f]), (rot + 1) % 4)
    | none =>
      match nextMover path cur rot with
      | some m => s.pathStep i bank n (path ++ [m]) (s.otherSlots i bank m) [] ((rot + 1) % 4)
      | none => (none, (rot + 1) % 4)

/-- Make the moves of a path, far end first (R246): each mover is written into the slot after it, then its own slot is
invalidated. -/
def State.makeMoves (s : State) (i bank : Nat) : List Nat → State
  | a :: b :: r =>
    let s := s.makeMoves i bank (b :: r)
    let e := s.slotAt i bank a
    (((s.slotPut i bank b e).slotPut i bank a 0).inc (pFDB i) Cn.FDB_RELOCATIONS)
  | _ => s

/-- Insert an entry into a bank (R244): the result code of FDB_WIN_RESULT (0 OK, 2 REPLACED, 3 FULL, 4 STASHED) and the
INDEX. -/
def State.bankInsert (s : State) (i bank : Nat) (e : Entry) : Nat × Nat × State :=
  let fid := fget e En.FENT_FID
  let mac := fget e En.FENT_MAC
  match s.fdbFind i bank fid mac with
  | some idx => (2, idx, s.slotPut i bank idx e)
  | none =>
    let b0 := s.keySlots i bank 0 fid mac
    let b1 := s.keySlots i bank 1 fid mac
    match s.freeSlot i bank (b0 ++ b1) with
    | some idx => (0, idx, s.slotPut i bank idx e)
    | none =>
      let (path, rot) := s.pathStep i bank 8 [] b0 b1 (s.fdb i).rot
      let s := s.setFdb i { s.fdb i with rot := rot }
      match path with
      | some (a :: l) => (0, a, (s.makeMoves i bank (a :: l)).slotPut i bank a e)
      | _ =>
        match s.freeSlot i bank stashSlots with
        | some idx => (4, idx, s.slotPut i bank idx e)
        | none => (3, 0, s)

/-! ### The mirror of a rebuild (R252) -/

/-- FDB_STATUS.REBUILD, REBUILT and REHASH_REQ. -/
def fRebuild : Fld := ⟨Reg.STATUS, 10, 2⟩

def fRebuilt : Fld := ⟨Reg.STATUS, 9, 1⟩

def fRehashReq : Fld := ⟨Reg.STATUS, 8, 1⟩

/-- The standby bank is mirrored: REBUILDING or READY. -/
def State.mirrored (s : State) (i : Nat) : Bool := s.fld (pFDB i) fRebuild ≠ 0

/-- The rebuild ends without a bank to commit. -/
def State.rebuildEnd (s : State) (i code : Nat) : State :=
  let s := (s.setFld (pFDB i) fRebuild 0).setFlag (pFDB i) fRebuilt false
  s.setFld (pFDB i) Fd.FDB_WIN_RESULT_CODE code

/-- Apply an insert or update to the mirrored standby bank; one that finds no place leaves the bank incomplete, and the
rebuild ends with FULL.
DEDUCED, unsafe (notes/assumptions/39.md). -/
def State.mirrorPut (s : State) (i : Nat) (e : Entry) : State :=
  if s.mirrored i then
    let (code, _, s') := s.bankInsert i (1 - s.fdbBank i) e
    if code = 3 then (s.rebuildEnd i 3).raise (pFDB i) Iq.FDB_REBUILD_DONE else s'
  else s

/-- Apply a removal to the mirrored standby bank. -/
def State.mirrorDrop (s : State) (i : Nat) (e : Entry) : State :=
  if s.mirrored i then
    let b := 1 - s.fdbBank i
    match s.fdbFind i b (fget e En.FENT_FID) (fget e En.FENT_MAC) with
    | some idx => s.slotPut i b idx 0
    | none => s
  else s

/-- Insert into the active bank, and into the mirror. -/
def State.fdbInsert (s : State) (i : Nat) (e : Entry) : Nat × Nat × State :=
  let (code, idx, s) := s.bankInsert i (s.fdbBank i) e
  (code, idx, if code = 3 then s else s.mirrorPut i e)

/-- Rewrite an entry of the active bank, and of the mirror. -/
def State.fdbUpdate (s : State) (i idx : Nat) (e : Entry) : State := (s.slotPut i (s.fdbBank i) idx e).mirrorPut i e

/-- Remove an entry of the active bank, and of the mirror. -/
def State.fdbRemove (s : State) (i idx : Nat) : State :=
  let e := s.slotAt i (s.fdbBank i) idx
  (s.slotPut i (s.fdbBank i) idx 0).mirrorDrop i e

/-- Remove the entries of the active bank that pass a test; how many, and the state. -/
def State.fdbRemoveAll (s : State) (i : Nat) (f : Entry → Bool) : Nat × State :=
  let l := (s.tabList (pFDB i) 0 (s.fdbBank i)).filter fun x => isValid x.2 && f x.2
  (l.length, l.foldl (fun s x => s.fdbRemove i x.1) s)

/-- A failed insert asks for a rebuild (R247). -/
def State.rehashAsk (s : State) (i : Nat) : State :=
  ((s.setFlag (pFDB i) fRehashReq true).raise (pFDB i) Iq.FDB_REHASH_REQ).err (pFDB i) Er.FDB_REHASH_REQ 0

/-! ### Learning (R238 to R243) -/

/-- A fresh dynamic entry of a key on a port, HIT set, stamped now. -/
def State.newEntry (s : State) (fid mac port : Nat) (xlrn : Bool) : Entry :=
  let e := fput (0 : Entry) En.FENT_VALID 1
  let e := fput e En.FENT_HIT 1
  let e := fput e En.FENT_XLRN (b2n xlrn)
  let e := fput e En.FENT_DEST port
  let e := fput e En.FENT_FID fid
  let e := fput e En.FENT_MAC mac
  fput e En.FENT_STAMP s.now

/-- A learn or move of a port would pass its limit (R240). -/
def State.overLimit (s : State) (i port : Nat) : Bool :=
  let l := s.entF (pFDB i) 3 0 port En.LPORT_LIMIT
  l ≠ 0 && l ≤ s.entF (pFDB i) 3 0 port En.LPORT_COUNT

/-- The limit stops a learn or move: counted, raised and logged once per run per port (R240).
DEDUCED, unsafe (notes/assumptions/39.md). -/
def State.limitHit (s : State) (i port : Nat) : State :=
  let fresh := !(s.runs.contains (pFDB i, Er.FDB_LIMIT, port))
  let s := s.inc (pFDB i) Cn.FDB_LIMIT_HIT
  let s := if fresh then s.raise (pFDB i) Iq.FDB_LIMIT_HIT else s
  s.errRun (pFDB i) Er.FDB_LIMIT port port

/-- A learn or move is offered to the other database (R243). -/
def State.offer (s : State) (i fid mac port : Nat) : State :=
  let o := 1 - i
  if s.flag (pFDB i) Fd.FDB_CFG_XLEARN_OUT && s.flag (pFDB o) Fd.FDB_CFG_XLEARN_IN then
    let x := s.fdb o
    if x.offers.length < 64 then s.setFdb o { x with offers := x.offers ++ [⟨fid, mac, port, 0⟩] }
    else s.inc (pFDB o) Cn.FDB_XLEARN_DROP
  else s

/-- The learn action of Table 4 for a source key on a port, at the cycle in which it is applied.
DEDUCED, unsafe (notes/assumptions/39.md). -/
def State.learnAct (s : State) (i fid mac port : Nat) : State :=
  let p := pFDB i
  match s.fdbFind i (s.fdbBank i) fid mac with
  | none =>
    if s.overLimit i port then s.limitHit i port
    else
      let (code, _, s) := s.fdbInsert i (s.newEntry fid mac port false)
      if code = 3 then (s.inc p Cn.FDB_LEARN_FAIL).rehashAsk i
      else (((s.inc p Cn.FDB_LEARNED).endRun p Er.FDB_LIMIT port).endRun p Er.FDB_MOVE 0).offer i fid mac port
  | some idx =>
    let e := s.slotAt i (s.fdbBank i) idx
    let same := fget e En.FENT_GROUP = 0 && fget e En.FENT_DEST = port
    if isStatic e then
      if same then s.fdbUpdate i idx (fput e En.FENT_HIT 1) else s.inc p Cn.FDB_SA_VIOLATION
    else if same && !isXlrn e then s.fdbUpdate i idx (fput e En.FENT_HIT 1)
    else if s.overLimit i port then s.limitHit i port
    else
      let s := (s.fdbUpdate i idx (s.newEntry fid mac port false)).inc p Cn.FDB_MOVES
      let s := if isXlrn e then s else s.errRun p Er.FDB_MOVE 0 port
      (s.endRun p Er.FDB_LIMIT port).offer i fid mac port

/-- A learn request joins its queue, merged into one for the same key, or is dropped (R241). -/
def State.learnQueue (s : State) (i : Nat) (r : LearnReq) : State :=
  let x := s.fdb i
  if x.learn.any fun y => y.fid = r.fid && y.mac = r.mac then
    s.setFdb i { x with learn := x.learn.map fun y => if y.fid = r.fid && y.mac = r.mac then r else y }
  else if x.learn.length < 64 then s.setFdb i { x with learn := x.learn ++ [r] }
  else s.inc (pFDB i) Cn.FDB_LEARN_DROP

/-- A database operates and is not frozen. -/
def State.fdbOn (s : State) (i : Nat) : Bool := s.enabled (pFDB i) && !(s.frozen (pFDB i))

/-! ### Removals -/

/-- A port has entered DOWN or DISABLED: entries learnt on it go, where its learning entry says so (R251). -/
def State.fdbPortGone (s : State) (p : Nat) : State :=
  let home := if portOfSide 0 p then 0 else 1
  if s.entF (pFDB home) 3 0 p En.LPORT_FLUSH_ON_DOWN = 1 then
    foldN 2 (fun i s =>
      let (n, s) := s.fdbRemoveAll i fun e => !isStatic e && fget e En.FENT_GROUP = 0 && fget e En.FENT_DEST = p
      s.addCnt (pFDB i) Cn.FDB_FLUSHED n) s
  else s

/-- The seeds, bank and flags change at a commit (R253). -/
def State.fdbCommit (s : State) (i : Nat) : State :=
  let p := pFDB i
  let a0 := s.rd64 p Reg.FDB_SEED0_LO
  let a1 := s.rd64 p Reg.FDB_SEED1_LO
  let s := (s.wr64 p Reg.FDB_SEED0_LO (s.rd64 p Reg.FDB_SB_SEED0_LO)).wr64 p Reg.FDB_SEED1_LO (s.rd64 p Reg.FDB_SB_SEED1_LO)
  let s := (s.wr64 p Reg.FDB_SB_SEED0_LO a0).wr64 p Reg.FDB_SB_SEED1_LO a1
  let s := ((s.setFld p fRebuild 0).setFlag p fRebuilt false).setFlag p fRehashReq false
  let s := (s.setFld p Fd.FDB_GEN_BANK (1 - s.fdbBank i)).setFld p Fd.FDB_GEN_GEN (s.fld p Fd.FDB_GEN_GEN + 1)
  s.fdbRecount i

/-- A rebuild in progress or ready is given up (Table 6): SOFT_RESET, or ENABLE = 0. -/
def State.rehashAbort (s : State) (i : Nat) : State := if s.mirrored i then s.rebuildEnd i 5 else s

/-- SOFT_RESET (R256). -/
def State.fdbSoftReset (s : State) (i : Nat) : State :=
  let s := s.rehashAbort i
  let drop := fun (b : Nat) (s : State) =>
    ((s.tabList (pFDB i) 0 b).filter fun x => !isStatic x.2).foldl (fun s x => s.setEnt (pFDB i) 0 b x.1 0) s
  let s := (drop 1 (drop 0 s)).fdbRecount i
  s.setFdb i { s.fdb i with learn := [], late := [], offers := [] }

end Sys2Proof.Machine
end

