-- ==== Sys2Proof/Machine/PipeOps.lean ====
section
/-!
DEFINITION. The Syntax stage, keys, Predicates and meters (R202 to R218): the parser, the four keys, the lane winners, the
merge of their actions, meters and stream filters. Pipeline 0 is PIPE[A], 1 is PIPE[B].
-/

namespace Sys2Proof.Machine

/-! ### The parser (R202 to R206) -/

/-- How a packet is parsed: depth, tags accepted, window in bytes, the alternative TPID with its kind when recognised, the
VXLAN port when recognised, GRE, and the frame without its FCS. -/
structure PCfg where
  depth : Nat
  tagMax : Nat
  win : Nat
  alt : Option (Nat × Bool)
  vxlan : Option Nat
  gre : Bool
  bs : List Nat

/-- What the Syntax stage takes from one frame (Table 1). Offsets count from the first byte of the outer DA. -/
structure Hdr where
  da : Nat := 0
  sa : Nat := 0
  etype : Nat := 0
  tags : Nat := 0
  /-- The first C-tag: its offset and its TCI. -/
  ctag : Option (Nat × Nat) := none
  stag : Option (Nat × Nat) := none
  seq : Option Nat := none
  /-- The R-TAG's offset, and the end of the last VLAN tag. -/
  seqAt : Option Nat := none
  tagEnd : Nat := 12
  /-- IP: 0 none, 4, 6; offset of the header. -/
  ip : Nat := 0
  ipAt : Nat := 0
  sip : Nat := 0
  dip : Nat := 0
  proto : Nat := 0
  dscp : Nat := 0
  frag : Bool := false
  /-- L4 reached: 0 none, else 17, 6 or 1 (ICMP). -/
  l4 : Nat := 0
  sport : Nat := 0
  dport : Nat := 0
  sub : Nat := 0
  sid : Nat := 0
  l2kind : Nat := 0
  ptpMsg : Nat := 0
  ptpDom : Nat := 0
  inner : Option Nat := none
  bad : Bool := false
  deep : Bool := false
deriving DecidableEq, Repr

/-- `n` big-endian bytes at an offset. -/
def PCfg.be (c : PCfg) (o n : Nat) : Nat := beNat ((c.bs.drop o).take n)

/-- `n` bytes at offset `o` can be parsed: 0 yes, 1 the frame ends before them (R204), 2 they lie beyond the window
(R203). -/
def PCfg.fits (c : PCfg) (o n : Nat) : Nat := if c.bs.length < o + n then 1 else if c.win < o + n then 2 else 0

/-- The parse ends at a header that cannot be read whole.
DEDUCED, unsafe (notes/assumptions/37.md). -/
def Hdr.stop (h : Hdr) (f : Nat) : Hdr := if f = 1 then { h with bad := true } else { h with deep := true }

/-- Parse a header of `n` bytes at `o`, or end there. -/
def PCfg.hdr (c : PCfg) (h : Hdr) (o n : Nat) (k : Hdr → Hdr) : Hdr :=
  if c.fits o n = 0 then k h else h.stop (c.fits o n)

/-- PTP common header at `o`.
PRESUMED, unsafe (notes/assumptions/26.md). -/
def PCfg.ptp (c : PCfg) (h : Hdr) (o kind : Nat) : Hdr :=
  c.hdr h o 34 fun h => { h with l2kind := kind, ptpMsg := c.be o 1 % 16, ptpDom := c.be (o + 4) 1 }

/-- AVTP at `o`: subtype, and stream_id when sv = 1.
PRESUMED, unsafe (notes/assumptions/26.md). -/
def PCfg.avtp (c : PCfg) (h : Hdr) (o : Nat) : Hdr :=
  c.hdr h o 4 fun h =>
    let h := { h with l2kind := 1, sub := c.be o 1 }
    if (c.be (o + 1) 1).testBit 7 then c.hdr h o 12 fun h => { h with sid := c.be (o + 4) 8 } else h

/-- The transport header at `o` of protocol `h.proto`; depth 2 and above.
PRESUMED, unsafe (notes/assumptions/26.md). -/
def PCfg.l4 (c : PCfg) (h : Hdr) (o : Nat) : Hdr :=
  if c.depth < 2 then h
  else if h.proto = 17 then
    c.hdr h o 8 fun h =>
      let h := { h with l4 := 17, sport := c.be o 2, dport := c.be (o + 2) 2 }
      if h.dport = 319 || h.dport = 320 then c.ptp h (o + 8) 3
      else if c.vxlan = some h.dport then c.hdr h (o + 8) 8 fun h => { h with inner := some (o + 16) }
      else h
  else if h.proto = 6 then c.hdr h o 20 fun h => { h with l4 := 6, sport := c.be o 2, dport := c.be (o + 2) 2 }
  else if h.proto = 1 || h.proto = 58 then
    c.hdr h o 8 fun h => { h with l4 := 1, sport := c.be o 1 * 256 + c.be (o + 1) 1 }
  else if h.proto = 47 && c.gre then
    c.hdr h o 4 fun h =>
      let fl := c.be o 2
      let n := 4 + 4 * (b2n (fl.testBit 15) + b2n (fl.testBit 13) + b2n (fl.testBit 12))
      if c.be (o + 2) 2 = 0x6558 then c.hdr h o n fun h => { h with inner := some (o + n) } else h
  else h

/-- IPv4 at `o`. -/
def PCfg.ip4 (c : PCfg) (h : Hdr) (o : Nat) : Hdr :=
  c.hdr h o 20 fun h =>
    let ihl := c.be o 1 % 16
    if ihl < 5 then { h with bad := true }
    else c.hdr h o (4 * ihl) fun h =>
      let frag := c.be (o + 6) 2 % 0x2000 ≠ 0
      let h := { h with ip := 4, ipAt := o, sip := c.be (o + 12) 4, dip := c.be (o + 16) 4, proto := c.be (o + 9) 1,
                        dscp := c.be (o + 1) 1 / 4, frag := frag }
      if frag then h else c.l4 h (o + 4 * ihl)

/-- The IPv6 extension headers from `o`, `n` still allowed; a further one ends the parse with its type in NXT. -/
def PCfg.ext (c : PCfg) : Nat → Hdr → Nat → Hdr
  | 0, h, o => if [0, 43, 60, 44].contains h.proto then h else c.l4 h o
  | n + 1, h, o =>
    if h.proto = 44 then
      c.hdr h o 8 fun h =>
        let h' := { h with proto := c.be o 1 }
        if c.be (o + 2) 2 / 8 ≠ 0 then { h' with frag := true } else c.ext n h' (o + 8)
    else if [0, 43, 60].contains h.proto then
      c.hdr h o 8 fun h =>
        let l := 8 * (c.be (o + 1) 1 + 1)
        c.hdr h o l fun h => c.ext n { h with proto := c.be o 1 } (o + l)
    else c.l4 h o

/-- IPv6 at `o`.
PRESUMED, unsafe (notes/assumptions/26.md). -/
def PCfg.ip6 (c : PCfg) (h : Hdr) (o : Nat) : Hdr :=
  c.hdr h o 40 fun h =>
    c.ext 2 { h with ip := 6, ipAt := o, sip := c.be (o + 8) 16, dip := c.be (o + 24) 16, proto := c.be (o + 6) 1,
                     dscp := c.be o 2 / 16 % 256 / 4 } (o + 40)

/-- The headers from the EtherType field at `o` onward; `n` bounds the tags and R-TAGs still to come.
DEDUCED, unsafe (notes/assumptions/37.md). -/
def PCfg.types (c : PCfg) : Nat → Hdr → Nat → Hdr
  | 0, h, _ => h
  | n + 1, h, o =>
    let ty := c.be o 2
    let kind : Option Bool :=
      if ty = 0x8100 then some false else if ty = 0x88A8 then some true
      else match c.alt with
        | some (a, k) => if ty = a then some k else none
        | none => none
    match kind with
    | some isS =>
      if c.tagMax ≤ h.tags then { h with etype := ty, deep := true }
      else c.hdr h (o + 2) 4 fun h =>
        let x := some (o, c.be (o + 2) 2)
        let h := { h with tags := h.tags + 1, tagEnd := o + 4 }
        let h := if isS then (if h.stag.isNone then { h with stag := x } else h)
          else if h.ctag.isNone then { h with ctag := x } else h
        c.types n h (o + 4)
    | none =>
      if ty = 0xF1C1 then
        c.hdr h (o + 2) 6 fun h => c.types n { h with seq := some (h.seq.getD (c.be (o + 4) 2)), seqAt := some (h.seqAt.getD o) } (o + 6)
      else if ty < 0x600 then { h with etype := 0 }
      else
        let h := { h with etype := ty }
        if ty = 0x22F0 then c.avtp h (o + 2)
        else if ty = 0x88F7 then c.ptp h (o + 2) 2
        else if ty = 0x0800 && 1 ≤ c.depth then c.ip4 h (o + 2)
        else if ty = 0x86DD && 1 ≤ c.depth then c.ip6 h (o + 2)
        else h

/-- One Ethernet frame at `o`. -/
def PCfg.frame (c : PCfg) (o : Nat) : Hdr :=
  c.hdr {} o 14 fun h => c.types 8 { h with da := c.be o 6, sa := c.be (o + 6) 6 } (o + 12)

/-- A field of a port entry (Table 9). -/
def State.pportF (s : State) (i port : Nat) (f : Fld) : Nat := s.entF (pPIPE i) 0 0 port f

/-- The parse of a packet on a port: the outer headers, and the inner ones of a recognised tunnel (R203, R205). -/
def State.parse (s : State) (i port : Nat) (bytes : List Nat) : Hdr × Option Hdr :=
  let p := pPIPE i
  let depth := s.pportF i port En.PPORT_DEPTH
  let c : PCfg :=
    { depth := depth, tagMax := s.pportF i port En.PPORT_TAG_MAX, win := nth 64 [64, 128, 128, 192] depth,
      alt := if s.flag p Fd.PIPE_TPID_ALT_EN then some (s.fld p Fd.PIPE_TPID_TPID_ALT, s.flag p Fd.PIPE_TPID_ALT_KIND) else none,
      vxlan := if depth = 3 && s.flag p Fd.PIPE_TUNNEL_VXLAN_EN then some (s.fld p Fd.PIPE_TUNNEL_VXLAN_PORT) else none,
      gre := depth = 3 && s.flag p Fd.PIPE_TUNNEL_GRE_EN, bs := bytes.take (bytes.length - 4) }
  let h := c.frame 0
  (h, h.inner.map fun o => { c with depth := 2, vxlan := none, gre := false }.frame o)

/-- CLASS of a packet (R206): the lowest-indexed valid parse class whose range holds the value its KIND names. An entry with
a memory error does not match (R227). -/
def State.parseClass (s : State) (i bank : Nat) (h : Hdr) (bad : Nat → Nat → Bool) : Nat :=
  let val := fun k => if k = 0 then some h.etype
    else if k = 1 then (if h.l4 = 17 then some h.dport else none)
    else if k = 2 then (if h.l4 = 6 then some h.dport else none)
    else if h.ip = 0 then none else some h.proto
  match (s.tabList (pPIPE i) 1 bank).find? fun x =>
    fget x.2 En.PCLS_VALID = 1 && !(bad 1 x.1) && (match val (fget x.2 En.PCLS_KIND) with
      | some v => fget x.2 En.PCLS_LO ≤ v && v ≤ fget x.2 En.PCLS_HI
      | none => false) with
  | some x => fget x.2 En.PCLS_CLASS
  | none => 0

/-! ### Keys (R207, R208) -/

/-- The tag values of a frame on a port: VID, PCP, DEI (R208). -/
def State.tagOfHdr (s : State) (i port : Nat) (h : Hdr) : Nat × Nat × Nat :=
  match h.ctag with
  | some (_, tci) =>
    let vid := tci % 4096
    (if vid = 0 then s.pportF i port En.PPORT_PVID else vid, tci / 2 ^ 13, tci / 4096 % 2)
  | none => (s.pportF i port En.PPORT_PVID, s.pportF i port En.PPORT_DEF_PCP, 0)

/-- The key of a format, when it is built (Table 3). `sel` is PIPE_CFG.V6_SEL. -/
def keyOf (fmt sel cls port flags : Nat) (h : Hdr) (tag : Nat × Nat × Nat) : Option Nat :=
  let (vid, pcp, dei) := tag
  let low := port * 2 ^ 4 + flags
  let l4 := h.proto * 2 ^ 48 + h.sport * 2 ^ 32 + h.dport * 2 ^ 16 + h.dscp * 2 ^ 10
  if fmt = 0 then
    some (h.da * 2 ^ 72 + h.etype * 2 ^ 56 + vid * 2 ^ 44 + pcp * 2 ^ 41 + dei * 2 ^ 40
      + (match h.stag with
        | some (_, tci) => tci % 4096
        | none => 0) * 2 ^ 28 + min h.tags 3 * 2 ^ 26 + cls * 2 ^ 22 + low)
  else if fmt = 1 then
    some (h.sid * 2 ^ 56 + h.sub * 2 ^ 48 + h.ptpMsg * 2 ^ 44 + h.ptpDom * 2 ^ 36 + vid * 2 ^ 24 + pcp * 2 ^ 21 + cls * 2 ^ 17
      + h.l2kind * 2 ^ 15 + low)
  else if fmt = 2 then if h.ip = 4 then some (h.sip * 2 ^ 88 + h.dip * 2 ^ 56 + l4 + low) else none
  else if h.ip = 6 then
    let a := if sel < 2 then h.dip else h.sip
    some (a / 2 ^ (64 * (sel % 2)) % 2 ^ 64 * 2 ^ 56 + l4 + low)
  else none

/-! ### Predicates (R210, R211) -/

/-- The winner of a lane: the lowest-indexed Predicate of it that matches (R210). -/
def State.laneWinner (s : State) (i bank lane : Nat) (key : Nat → Option Nat) (bad : Nat → Nat → Bool) : Option Nat :=
  ((s.tabList (pPIPE i) 2 bank).find? fun x =>
    let e := x.2
    fget e En.PKEY_VALID = 1 && fget e En.PKEY_LANE = lane && !(bad 2 x.1) && !(bad 3 x.1) && (match key (fget e En.PKEY_FMT) with
      | some k => k &&& fget e En.PKEY_MASK = fget e En.PKEY_VALUE &&& fget e En.PKEY_MASK
      | none => false)).map (·.1)

/-- The fields of an action that merge together, each with the field that enables it (Table 4): the lowest lane whose
enabling field is not 0 gives all of them. -/
def actGroups : List (Fld × List Fld) :=
  [(En.PACT_DROP, [En.PACT_DROP]),
   (En.PACT_REDIRECT_EN, [En.PACT_REDIRECT_EN, En.PACT_DST_KIND, En.PACT_DST]),
   (En.PACT_TRAP, [En.PACT_TRAP, En.PACT_TRAP_PORT, En.PACT_REASON]),
   (En.PACT_MIRROR, [En.PACT_MIRROR, En.PACT_MIRROR_SEL]),
   (En.PACT_SAMPLE_EN, [En.PACT_SAMPLE_EN, En.PACT_SAMPLE_SEL]),
   (En.PACT_TAP, [En.PACT_TAP]),
   (En.PACT_QUOTE, [En.PACT_QUOTE]),
   (En.PACT_LEARN_DIS, [En.PACT_LEARN_DIS]),
   (En.PACT_TC_EN, [En.PACT_TC_EN, En.PACT_TC]),
   (En.PACT_PCP_EN, [En.PACT_PCP_EN, En.PACT_PCP]),
   (En.PACT_DEI_EN, [En.PACT_DEI_EN, En.PACT_DEI]),
   (En.PACT_VID_EN, [En.PACT_VID_EN, En.PACT_VID]),
   (En.PACT_DSCP_EN, [En.PACT_DSCP_EN, En.PACT_DSCP]),
   (En.PACT_METER_EN, [En.PACT_METER_EN, En.PACT_METER]),
   (En.PACT_SF_EN, [En.PACT_SF_EN, En.PACT_SF]),
   (En.PACT_RECIRC, [En.PACT_RECIRC, En.PACT_DECAP])]

/-- The groups that a second pass carries on from the first unless its own action sets them (R219): rewrites, traffic class,
stream handle, redirect and learning.
DEDUCED, unsafe (notes/assumptions/38.md). -/
def carriedGroups : List (Fld × List Fld) :=
  actGroups.filter fun g => [En.PACT_REDIRECT_EN, En.PACT_LEARN_DIS, En.PACT_TC_EN, En.PACT_PCP_EN, En.PACT_DEI_EN, En.PACT_VID_EN,
    En.PACT_DSCP_EN, En.PACT_SF_EN].contains g.1

/-- Merge actions, the first in the list winning, over some groups. -/
def mergeActs (groups : List (Fld × List Fld)) (l : List Entry) : Entry :=
  groups.foldl (fun a g => match l.find? fun e => fget e g.1 ≠ 0 with
    | some e => g.2.foldl (fun a f => fput a f (fget e f)) a
    | none => a) 0

/-! ### Meters (R217) -/

inductive Colour where
  | green | yellow | red
deriving DecidableEq, Repr

def State.pipe (s : State) (i : Nat) : Pipe := smGet {} i s.pipes

def State.setPipe (s : State) (i : Nat) (x : Pipe) : State := { s with pipes := smSet {} i x s.pipes }

/-- Replace a meter's buckets; CT and ET of its state entry show whole bytes. -/
def State.setBucket (s : State) (i m : Nat) (b : Bucket) : State :=
  let s := s.setPipe i { s.pipe i with meters := smSet {} m b (s.pipe i).meters }
  (s.setEntF (pPIPE i) 6 0 m En.MSTATE_CT (b.ct / 65536)).setEntF (pPIPE i) 6 0 m En.MSTATE_ET (b.et / 65536)

/-- A meter's buckets set full (R225), with a last update stamp. -/
def State.fillBucket (s : State) (i m : Nat) (e : Entry) (last : Nat) : State :=
  s.setBucket i m ⟨fget e En.METER_CBS * 65536, fget e En.METER_EBS * 65536, last⟩

/-- The buckets after tokens are added for a packet stamped `stamp`. -/
def refill (e : Entry) (b : Bucket) (stamp : Nat) : Bucket :=
  let d := stamp - b.last
  let cbs := fget e En.METER_CBS * 65536
  let ebs := fget e En.METER_EBS * 65536
  let ct := b.ct + fget e En.METER_CIR * d * 65536 / 8000000
  let ov := ct - cbs
  let et := b.et + fget e En.METER_EIR * d * 65536 / 8000000 + (if fget e En.METER_CF = 1 then ov else 0)
  ⟨min ct cbs, min et ebs, max b.last stamp⟩

/-- The colour of a frame of `len` bytes, and the buckets after it. -/
def colourOf (e : Entry) (b : Bucket) (markRed dei : Bool) (len : Nat) : Colour × Bucket :=
  let l := len * 65536
  let yellowIn := fget e En.METER_CM = 1 && dei
  if markRed then (.red, b)
  else if !yellowIn && l ≤ b.ct then (.green, { b with ct := b.ct - l })
  else if l ≤ b.et then (.yellow, { b with et := b.et - l })
  else (.red, b)

/-- Apply meter `m` of a generation's bank to a frame; an invalid entry, or one with a memory error, passes green and counts
nothing.
DEDUCED, unsafe (notes/assumptions/38.md). -/
def State.meter (s : State) (i bank m len stamp : Nat) (dei : Bool) (bad : Nat → Nat → Bool) : Colour × State :=
  let p := pPIPE i
  let e := s.ent p 4 bank m
  if fget e En.METER_VALID = 0 || bad 4 m then (.green, s)
  else if bad 6 m then (.green, s.fillBucket i m e (smGet {} m (s.pipe i).meters).last)
  else
    let (col, b) := colourOf e (refill e (smGet {} m (s.pipe i).meters) stamp) (s.entF p 6 0 m En.MSTATE_MARK_RED = 1) dei len
    let s := s.setBucket i m b
    let s := if col = .red && fget e En.METER_MARK_RED_EN = 1 && s.entF p 6 0 m En.MSTATE_MARK_RED = 0 then
        ((s.setEntF p 6 0 m En.MSTATE_MARK_RED 1).raise p Iq.PIPE_MARK_RED).err p Er.PIPE_MARK_RED m
      else s
    let f := match col with
      | .green => En.MSTATE_GREEN
      | .yellow => En.MSTATE_YELLOW
      | .red => En.MSTATE_RED
    (col, s.setEntF p 6 0 m f (s.entF p 6 0 m f + 1))

/-- The result of policing: dropped; the DEI a colour-aware meter reads next; a yellow result, which sets DEI; the meter
that has been applied. -/
structure Policed where
  drop : Bool
  dei : Bool
  yellow : Bool
  used : Option Nat

/-- The stream filter of a handle (R216).
DEDUCED, unsafe (notes/assumptions/38.md). -/
def State.streamFilter (s : State) (i bank h len stamp : Nat) (dei : Bool) (bad : Nat → Nat → Bool) : Policed × State :=
  let p := pPIPE i
  let e := s.ent p 5 bank h
  let cnt := fun (f : Fld) (s : State) => s.setEntF p 7 0 h f (s.entF p 7 0 h f + 1)
  let drop := fun (f : Fld) (s : State) => (cnt f s).inc p Cn.PIPE_SF_DROP
  if fget e En.SFILT_VALID = 0 || bad 5 h then (⟨false, dei, false, none⟩, s)
  else
    let s := cnt En.SFCNT_MATCHING s
    if s.entF p 7 0 h En.SFCNT_BLOCKED = 1 then (⟨true, dei, false, none⟩, drop En.SFCNT_NOT_PASSING s)
    else if fget e En.SFILT_MAX_SDU ≠ 0 && fget e En.SFILT_MAX_SDU < len - 4 then
      let s := drop En.SFCNT_NOT_PASSING s
      (⟨true, dei, false, none⟩, if fget e En.SFILT_BLOCK_OVERSIZE_EN = 1 then
          ((s.setEntF p 7 0 h En.SFCNT_BLOCKED 1).raise p Iq.PIPE_SF_BLOCKED).err p Er.PIPE_SF_BLOCKED h
        else s)
    else if fget e En.SFILT_FM_EN = 1 then
      let m := fget e En.SFILT_FM
      let (col, s) := s.meter i bank m len stamp dei bad
      match col with
      | .green => (⟨false, dei, false, some m⟩, cnt En.SFCNT_PASSING s)
      | .yellow =>
        if s.entF p 4 bank m En.METER_DROP_YELLOW = 1 then (⟨true, dei, false, some m⟩, s.inc p Cn.PIPE_SF_DROP)
        else (⟨false, true, true, some m⟩, cnt En.SFCNT_PASSING s)
      | .red => (⟨true, dei, false, some m⟩, drop En.SFCNT_RED s)
    else (⟨false, dei, false, none⟩, cnt En.SFCNT_PASSING s)

/-- The Predicate meter, unless the filter has applied the same meter (R217, R218). -/
def State.predMeter (s : State) (i bank m len stamp : Nat) (x : Policed) (bad : Nat → Nat → Bool) : Policed × State :=
  let p := pPIPE i
  if x.used = some m then (x, s)
  else
    let (col, s) := s.meter i bank m len stamp x.dei bad
    match col with
    | .green => (x, s)
    | .yellow =>
      if s.entF p 4 bank m En.METER_DROP_YELLOW = 1 then ({ x with drop := true }, s.inc p Cn.PIPE_METER_YELLOW_DROP)
      else ({ x with dei := true, yellow := true }, s)
    | .red => ({ x with drop := true }, s.inc p Cn.PIPE_METER_RED)

/-! ### Generations (R222 to R225) -/

/-- A meter's parameters differ between two banks (R225). -/
def meterDiffers (a b : Entry) : Bool :=
  [En.METER_CIR, En.METER_CBS, En.METER_EIR, En.METER_EBS, En.METER_CF, En.METER_CM].any fun f => fget a f ≠ fget b f

/-- The bank switch of a pipeline at C (R223 to R225): GEN, in-flight counts, buckets of changed meters. -/
def State.pipeCommit (s : State) (i : Nat) : State :=
  let p := pPIPE i
  let old := s.fld p Fd.PIPE_GEN_BANK
  let s := (s.setFld p Fd.PIPE_GEN_BANK (1 - old)).setFld p Fd.PIPE_GEN_GEN (s.fld p Fd.PIPE_GEN_GEN + 1)
  let s := s.wr64 p Reg.PIPE_COMMIT_STAMP_LO s.now
  let s := (s.setFld p Fd.PIPE_INFLIGHT_PREV_COUNT (s.fld p Fd.PIPE_INFLIGHT_CUR_COUNT)).setFld p Fd.PIPE_INFLIGHT_CUR_COUNT 0
  let s := s.setPipe i { s.pipe i with c := some s.now }
  let ms := ((s.tabList p 4 old ++ s.tabList p 4 (1 - old)).map (·.1)).eraseDups
  ms.foldl (fun s m =>
    let e := s.ent p 4 (1 - old) m
    if meterDiffers (s.ent p 4 old m) e then s.fillBucket i m e s.now else s) s

/-- SOFT_RESET of a pipeline (Table 5): packets in flight end, meter buckets full, MARK_RED and BLOCKED cleared. -/
def State.pipeSoftReset (s : State) (i : Nat) : State :=
  let p := pPIPE i
  let x := s.pipe i
  let s := s.setPipe i { x with epoch := x.epoch + 1 }
  let s := (s.setFld p Fd.PIPE_INFLIGHT_CUR_COUNT 0).setFld p Fd.PIPE_INFLIGHT_PREV_COUNT 0
  let b := s.fld p Fd.PIPE_GEN_BANK
  let ms := ((s.tabList p 4 b).map (·.1) ++ x.meters.map (·.1)).eraseDups
  let s := ms.foldl (fun s m => s.fillBucket i m (s.ent p 4 b m) (smGet {} m (s.pipe i).meters).last) s
  let s := (s.tabList p 6 0).foldl (fun s y => s.setEntF p 6 0 y.1 En.MSTATE_MARK_RED 0) s
  let s := (s.tabList p 7 0).foldl (fun s y => s.setEntF p 7 0 y.1 En.SFCNT_BLOCKED 0) s
  s.setFlag p Fd.STATUS_DRAINING false

/-- A packet goes into flight for its second pass, or ends its flight, under the generation of a bank (R224). -/
def State.flight (s : State) (i bank : Nat) (up : Bool) : State :=
  let p := pPIPE i
  let f := if bank = s.fld p Fd.PIPE_GEN_BANK then Fd.PIPE_INFLIGHT_CUR_COUNT else Fd.PIPE_INFLIGHT_PREV_COUNT
  s.setFld p f (if up then s.fld p f + 1 else s.fld p f - 1)

/-- A recirculated packet's flight ends (R224), unless a soft reset has ended it. -/
def State.flightEnd (s : State) (i : Nat) (m : Meta) : State :=
  if m.epoch = (s.pipe i).epoch then s.flight i m.bank false else s

end Sys2Proof.Machine
end

