-- ==== Sys2Proof/Machine/Pipe.lean ====
section
/-!
DEFINITION. Pipeline entry (R200 to R221): admission, classification, learning and the forwarding decision (R234 to R238) of
one packet, and the Ethernet taps of the Transcript (R321, R324).
-/

namespace Sys2Proof.Machine

/-! ### Ethernet taps -/

/-- A record of a frame in a tap mode (R321, R324): 2 full, 3 truncated, 4 sampled; other modes make none. -/
def State.ethTap (s : State) (port : Nat) (tx : Bool) (mode stamp : Nat) (bytes : List Nat) (err : Bool) : State :=
  let f := fun (x : Fld) => s.entF pTRN 0 0 port x
  let e := s.eth port
  let n := if tx then f En.ETAP_TX_N else f En.ETAP_RX_N
  let cnt := (if tx then e.txTap else e.rxTap) + 1
  let hit := mode = 2 || mode = 3 || (mode = 4 && n ≤ cnt)
  let s := if mode = 4 then
      let c := if n ≤ cnt then 0 else cnt
      s.setEth port (if tx then { e with txTap := c } else { e with rxTap := c })
    else s
  if !hit then s
  else
    let trunc := mode = 3 || (mode = 4 && f En.ETAP_SAMPLE_TRUNC = 1)
    let payload := if trunc then leBytes 4 bytes.length ++ bytes.take (f En.ETAP_TRUNC * 64 - 4) else bytes
    let flags := s.coarseBit + 2 * b2n tx + 4 * b2n trunc + 8 * b2n (mode = 4) + 16 * b2n err
    s.tap true (if tx then 2 else 1) port stamp flags payload

/-- The receive record of a packet: the port's mode, or the one a Predicate TAP names (R212, R324). -/
def State.rxTap (s : State) (bytes : List Nat) (m : Meta) (act : Nat) : State :=
  let own := if m.port < 32 then s.entF pTRN 0 0 m.port En.ETAP_RX_MODE else 0
  let mode := if act = 0 then own else if act = 1 then 0 else act
  s.ethTap m.port false mode m.stamp (if m.raw.isEmpty then bytes else m.raw) m.bad

/-! ### Edits of a frame -/

/-- A frame with a new FCS over its bytes. -/
def refcs (bs : List Nat) : List Nat := bs ++ fcsOf bs

/-- Bytes replaced at an offset. -/
def setBytes (l : List Nat) (o : Nat) (new : List Nat) : List Nat := l.take o ++ new ++ l.drop (o + new.length)

/-- The ones' complement sum of 16-bit words. -/
def sum16 : List Nat → Nat
  | a :: b :: r => let x := a * 256 + b + sum16 r; x % 65536 + x / 65536
  | [a] => a * 256
  | [] => 0

/-- The DS field of the IP header at an offset takes a new DSCP; an IPv4 header checksum follows (R213). -/
def setDscp (bs : List Nat) (ver o v : Nat) : List Nat :=
  let w := beNat ((bs.drop o).take 2)
  if ver = 4 then
    let bs := setBytes bs (o + 1) [v * 4 + w % 4]
    let h := (bs.drop o).take (4 * (w / 256 % 16))
    let h := setBytes h 10 [0, 0]
    setBytes bs (o + 10) (beBytes 2 (65535 - sum16 h))
  else setBytes bs o (beBytes 2 (w / 4096 * 4096 + (v * 4 + w / 16 % 4) * 16 + w % 16))

/-! ### The forwarding decision (R234, R235) -/

/-- The ports of a mask, rising. -/
def portsOf (m : Nat) : List Nat := (List.range 36).filter m.testBit

/-- What the decision answers: destinations, UNTAG mask, whether the packet is discarded for its VLAN or source, and the
state. -/
structure Fwd where
  dests : List Nat
  untag : Nat
  drop : Bool

/-- Ports of a set that remain: members where `mask` asks it, without the ingress port and the ports a rule excludes. -/
def keepPorts (l : List Nat) (mask : Option Nat) (port : Nat) (out : List Nat) : List Nat :=
  l.filter fun p => p ≠ port && !(out.contains p) && (match mask with
    | some m => m.testBit p
    | none => true)

/-- The destination set of R235 with the VLAN entry `v`: the ports, or the counter of a discard.
DEDUCED, unsafe (notes/assumptions/39.md). -/
def State.destSet (s : State) (i port da fid : Nat) (v : Entry) (redirect : Option (Nat × Nat)) : Except Nat (List Nat) × State :=
  let p := pFDB i
  let member := fget v En.VLAN_MEMBER
  let group := fun (g : Nat) =>
    let e := s.ent p 2 0 g
    if fget e En.GRP_VALID = 1 then some (portsOf (fget e En.GRP_MASK)) else none
  match redirect with
  | some (0, d) => (.ok (keepPorts [d] none port []), s)
  | some (_, g) => (match group g with
    | some l => .ok (keepPorts l none port [])
    | none => .error Cn.FDB_GROUP_MISS, s)
  | none =>
    match (if s.enabled p then s.fdbFind i (s.fdbBank i) fid da else none) with
    | some idx =>
      let e := s.slotAt i (s.fdbBank i) idx
      let s := if isXlrn e then s.fdbUpdate i idx (fput e En.FENT_HIT 1) else s
      if fget e En.FENT_DROP = 1 then (.error Cn.FDB_FDB_DROP, s)
      else if fget e En.FENT_GROUP = 0 then (.ok (keepPorts [fget e En.FENT_DEST] (some member) port [35, 36]), s)
      else (match group (fget e En.FENT_DEST) with
        | some l => .ok (keepPorts l (some member) port [35, 36])
        | none => .error Cn.FDB_GROUP_MISS, s)
    | none =>
      let multi := (da / 2 ^ 40).testBit 0
      if !(s.enabled p) then (.ok [], s)
      else if (!multi && fget v En.VLAN_UNK_UC_DROP = 1) || (multi && da ≠ 2 ^ 48 - 1 && fget v En.VLAN_UNK_MC_DROP = 1) then
        (.error Cn.FDB_UNKNOWN_DROP, s)
      else (.ok (keepPorts (portsOf member) none port [34, 35, 36]), s.inc p Cn.FDB_FLOODED)

/-- The VLAN entry of a VID that a packet from a port may use, or none (R234). -/
def State.vlanFor (s : State) (i port vid : Nat) : Option Entry :=
  let v := s.ent (pFDB i) 1 0 vid
  if vid = 4095 || fget v En.VLAN_VALID = 0 then none
  else if s.flag (pFDB i) Fd.FDB_CFG_INGRESS_FILTER && !((fget v En.VLAN_MEMBER).testBit port) then none
  else some v

/-- The source lookup of a packet and its learn action (R238 to R241): whether the packet is discarded for it. -/
def State.learnFrom (s : State) (i port sa fin : Nat) (v : Entry) (on : Bool) : Bool × State :=
  let p := pFDB i
  let fid := fget v En.VLAN_FID
  let on := on && s.flag p Fd.FDB_CFG_LEARN_EN && s.entF p 3 0 port En.LPORT_LEARN_EN = 1 && fget v En.VLAN_LEARN_EN = 1
  if !(s.fdbOn i) || sa = 0 || (sa / 2 ^ 40).testBit 0 then (false, s)
  else
    let r : LearnReq := ⟨fid, sa, port, fin⟩
    let act := fun (s : State) =>
      if fin ≤ s.now then s.learnAct i fid sa port else s.setFdb i { s.fdb i with late := (s.fdb i).late ++ [r] }
    let full := s.overLimit i port && s.entF p 3 0 port En.LPORT_LIMIT_ACT = 1
    match s.fdbFind i (s.fdbBank i) fid sa with
    | none =>
      if !on then (false, s)
      else if s.overLimit i port then (full, s.limitHit i port)
      else (false, s.learnQueue i r)
    | some idx =>
      let e := s.slotAt i (s.fdbBank i) idx
      let same := fget e En.FENT_GROUP = 0 && fget e En.FENT_DEST = port
      if isStatic e && !same then (fget e En.FENT_SA_LOCK = 1, if on || fget e En.FENT_SA_LOCK = 1 then act s else s)
      else if !on then (false, s)
      else (!isStatic e && (!same || isXlrn e) && full, act s)

/-! ### One pass -/

/-- The packet that the pipeline admits next (R200): a second pass first, then the ingress ports in rotating order after the
port admitted last. It leaves its place. -/
def State.admitFront (s : State) (i : Nat) : Option (Copy × State) :=
  match (s.queue 288).h.find? fun c => portOfSide i c.info.port with
  | some c => some (c, (s.setQueue 288 { (s.queue 288) with h := (s.queue 288).h.erase c }).qentryGive)
  | none =>
    let l := smGet [] i s.swc.front
    let last := (s.pipe i).last
    ((List.range 37).findSome? fun k => l.find? fun c => c.info.port = (last + 1 + k) % 37).map fun c =>
      let s := { s with swc := { s.swc with front := smSet [] i (l.erase c) s.swc.front } }
      (c, s.setPipe i { s.pipe i with last := c.info.port })

/-- A packet leaves the switch without any copy. -/
def State.packetGone (s : State) (c : Copy) : State := match c.pkt with
  | some id => s.pktUnref id c.mem
  | none => s

/-- A packet is discarded at entry; a first pass leaves its receive record. -/
def State.entryDrop (s : State) (c : Copy) (cnt : Nat) (i : Nat) : State :=
  let s := s.inc (pPIPE i) cnt
  let s := if c.info.act.isSome then s.flightEnd i c.info else s.rxTap c.bytes c.info 0
  s.packetGone c

/-- The packet is decided: it waits for its enqueue if any copy is asked for, and is freed otherwise.
DEDUCED, unsafe (notes/assumptions/37.md). -/
def State.settle (s : State) (k : Packet) : State :=
  if k.dests.isEmpty && k.traps.isEmpty && k.mirrors.isEmpty && k.samples.isEmpty && k.recirc.isNone then
    s.pktUnref k.pkt k.mem
  else { s with swc := { s.swc with decided := s.swc.decided ++ [k] } }

/-- gPTP messages (R74): the copies asked for, and whether the engine keeps the message from forwarding.
DEDUCED, unsafe (notes/assumptions/50.md). -/
def State.gptpTrap (s : State) (port : Nat) (h : Hdr) : List (Nat × Nat × Nat) × Bool :=
  if s.enabled pGPTP && port < 24 && h.etype = 0x88F7 && h.tags = 0 then
    let hw := [0, 2, 3, 8, 10].contains h.ptpMsg
    (if !hw || s.flag pGPTP Fd.GPTP_CFG_MIRROR_HW then [(32 + s.fld pGPTP Fd.GPTP_CFG_TRAP_PORT, 4, 0)] else [], true)
  else ([], false)

/-- Steps 3 to 6 of R212 on a packet `k` with its merged action `m` (own pass) and effective action `eff`. -/
def State.actOn (s : State) (i bank : Nat) (pass2 keep : Bool) (m eff : Entry) (h : Hdr) (dei : Bool) (v : Option Entry)
    (k : Packet) (bad : Nat → Nat → Bool) : State :=
  let p := pPIPE i
  let len := k.bytes.length
  let (x, s) := if fget m En.PACT_SF_EN = 1 then s.streamFilter i bank (fget m En.PACT_SF) len k.info.stamp dei bad
    else (⟨false, dei, false, none⟩, s)
  let (x, s) := if !x.drop && fget m En.PACT_METER_EN = 1 then s.predMeter i bank (fget m En.PACT_METER) len k.info.stamp x bad
    else (x, s)
  if x.drop then s.settle k
  else
    let k := { k with dei := if x.yellow then 1 else if fget eff En.PACT_DEI_EN = 1 then fget eff En.PACT_DEI else b2n dei }
    let recirc := fget m En.PACT_RECIRC = 1
    if recirc && !pass2 then
      let body := k.bytes.take (len - 4)
      let body := match k.dscp with
        | some (ver, o, d) => setDscp body ver o d
        | none => body
      let cut := fget m En.PACT_DECAP = 1 && h.inner.isSome
      let body := if cut then body.drop (h.inner.getD 0) else body
      let eff := if x.yellow then fput (fput eff En.PACT_DEI_EN 1) En.PACT_DEI 1 else eff
      let info := { k.info with act := some eff, bank := bank, epoch := (s.pipe i).epoch, decap := cut }
      let out := if k.info.bad then body ++ k.bytes.drop (len - 4) else refcs body
      ((s.inc p Cn.PIPE_RECIRC).flight i bank true).settle { k with recirc := some out, info := info }
    else
      let s := if recirc then (s.inc p Cn.PIPE_RECIRC_LIMIT).errRun p Er.PIPE_RECIRC_LIMIT 0 0
        else if pass2 then s.endRun p Er.PIPE_RECIRC_LIMIT 0 else s
      if keep then s.settle k
      else match v with
        | none => (s.inc (pFDB i) Cn.FDB_VLAN_DROP).settle k
        | some v =>
          let red := if fget eff En.PACT_REDIRECT_EN = 1 then some (fget eff En.PACT_DST_KIND, fget eff En.PACT_DST) else none
          match s.destSet i k.info.port h.da (fget v En.VLAN_FID) v red with
          | (.error c, s) => (s.inc (pFDB i) c).settle k
          | (.ok l, s) =>
            let s := if l.isEmpty then s.inc (pFDB i) Cn.FDB_NO_DEST else s
            s.settle { k with dests := l, untag := fget v En.VLAN_UNTAG &&& fget v En.VLAN_MEMBER }

/-- Classification of an admitted packet (R202 to R221), and its learning and decision. -/
def State.classify (s : State) (i bank : Nat) (c : Copy) (bad : Nat → Nat → Bool) : State :=
  let p := pPIPE i
  let port := c.info.port
  let pass2 := c.info.act.isSome
  let (h, inner) := s.parse i port c.bytes
  let isBad := h.bad || (inner.map (·.bad)).getD false
  let s := if isBad then ((s.inc p Cn.PIPE_PARSE_ERR).raise p Iq.PIPE_PARSE_ERR).errRun p Er.PIPE_PARSE_ERR port port
    else s.endRun p Er.PIPE_PARSE_ERR port
  let s := if h.deep || (inner.map (·.deep)).getD false then s.inc p Cn.PIPE_DEPTH_EXCEEDED else s
  let tagged := [h.ctag, h.stag].any fun x => match x with
    | some (_, tci) => tci % 4096 ≠ 0
    | none => false
  let accept := s.pportF i port En.PPORT_ACCEPT
  if !pass2 && ((accept = 1 && !tagged) || (accept = 2 && tagged)) then
    ((s.inc p Cn.PIPE_ACCEPT_DROP).rxTap c.bytes c.info 0).packetGone c
  else
    let useInner := inner.isSome && s.pportF i port En.PPORT_INNER_KEYS = 1
    let kh := if useInner then inner.getD h else h
    let carried := c.info.act.getD 0
    let overlay := fun (h : Hdr) =>
      let (vid, pcp, dei) := s.tagOfHdr i port h
      (if fget carried En.PACT_VID_EN = 1 then fget carried En.PACT_VID else vid,
        if fget carried En.PACT_PCP_EN = 1 then fget carried En.PACT_PCP else pcp,
        if fget carried En.PACT_DEI_EN = 1 then fget carried En.PACT_DEI else dei)
    let tag := overlay kh
    let cls := s.parseClass i bank kh bad
    let flags := b2n (1 ≤ kh.tags) + 2 * b2n (useInner && !c.info.decap) + 4 * b2n pass2 + 8 * b2n kh.frag
    let key := fun f => keyOf f (s.fld p Fd.PIPE_CFG_V6_SEL) cls port flags kh tag
    let wins := ((List.range 4).filter (s.pportF i port En.PPORT_LANE_MASK).testBit).filterMap
      fun l => s.laneWinner i bank l key bad
    let s := wins.foldl (fun s w => s.setEntF p 8 0 w En.PHIT_HITS (s.entF p 8 0 w En.PHIT_HITS + 1)) s
    let s := if wins.isEmpty then s.inc p Cn.PIPE_NO_HIT else s
    let m := mergeActs actGroups (wins.map fun w => s.ent p 3 bank w)
    let eff := mergeActs actGroups [m, mergeActs carriedGroups [carried]]
    let pcp := if fget eff En.PACT_PCP_EN = 1 then fget eff En.PACT_PCP else tag.2.1
    let (ovid, _, _) := overlay h
    let vid := if fget eff En.PACT_VID_EN = 1 then fget eff En.PACT_VID else ovid
    let tc := if fget eff En.PACT_TC_EN = 1 then fget eff En.PACT_TC
      else s.pportF i port En.PPORT_PCP_TO_TC / 2 ^ (3 * tag.2.1) % 8
    let arr := fun (en sel : Fld) => if !pass2 && s.entF pSWC 0 0 port en = 1 then [s.entF pSWC 0 0 port sel] else []
    let (gp, keep) := if pass2 then ([], false) else s.gptpTrap port h
    let k : Packet :=
      { side := i, pkt := c.pkt.getD 0, mem := c.mem, bytes := c.bytes, info := c.info, tc := tc,
        sf := if fget eff En.PACT_SF_EN = 1 then some (1024 * i + fget eff En.PACT_SF) else none,
        seq := h.seq, vid := vid, pcp := pcp, dei := tag.2.2,
        dscp := if fget eff En.PACT_DSCP_EN = 1 && kh.ip ≠ 0 then some (kh.ip, kh.ipAt, fget eff En.PACT_DSCP) else none,
        ctagAt := h.ctag.map (·.1), stagAt := h.stag.map (·.1), tagEnd := h.tagEnd, rtagAt := h.seqAt,
        traps := (if fget m En.PACT_TRAP = 1 then [(32 + fget m En.PACT_TRAP_PORT, 1, fget m En.PACT_REASON)] else []) ++ gp,
        mirrors := ((if fget m En.PACT_MIRROR = 1 then [fget m En.PACT_MIRROR_SEL] else [])
          ++ arr En.SPORT_RX_MIRROR_EN En.SPORT_RX_MIRROR_SEL).eraseDups,
        samples := ((if fget m En.PACT_SAMPLE_EN = 1 then [fget m En.PACT_SAMPLE_SEL] else [])
          ++ arr En.SPORT_RX_SAMPLE_EN En.SPORT_RX_SAMPLE_SEL).eraseDups,
        decided := s.now }
    let s := if fget m En.PACT_TRAP = 1 then s.inc p Cn.PIPE_TRAP else s
    let s := if fget m En.PACT_QUOTE = 1 then (s.inc p Cn.PIPE_QUOTE).quote 3 c.info.stamp i else s
    let tapAct := fget m En.PACT_TAP
    let s := if pass2 && tapAct < 2 then s else s.rxTap c.bytes c.info tapAct
    let v := s.vlanFor i port vid
    let learn := !c.info.bad && (!pass2 || s.flag (pFDB i) Fd.FDB_CFG_LEARN_PASS2)
    let (gone, s) := match v with
      | some v => if learn then s.learnFrom i port h.sa c.info.fin v (fget eff En.PACT_LEARN_DIS = 0) else (false, s)
      | none => (false, s)
    if fget m En.PACT_DROP = 1 then (s.inc p Cn.PIPE_PRED_DROP).settle k
    else if gone then s.settle k
    else s.actOn i bank pass2 keep m eff h (tag.2.2 = 1) v k bad

/-- The bank that classifies a packet entering now (R219, R223). -/
def State.entryBank (s : State) (i : Nat) (m : Meta) : Nat :=
  let b := s.fld (pPIPE i) Fd.PIPE_GEN_BANK
  if m.act.isSome then m.bank
  else match (s.pipe i).c with
    | some c => if s.now ≤ c then 1 - b else b
    | none => b

/-- PIPELINE_ENTRY: pipeline `i` admits its next packet (R200) and classifies it. `ecc` names the entries (table, index) whose
read for this packet meets an uncorrectable error (R227), `corr` counts corrected ones, `fdbEcc` the slots of the active
bank of its database that read with an uncorrectable error (R255).
DEDUCED, unsafe (notes/assumptions/38.md). -/
def execPipelineEntry (t i : Nat) (ecc : List (Nat × Nat)) (corr : Nat) (fdbEcc : List Nat) (s : State) : Res :=
  running t s fun s =>
    if 2 ≤ i then s
    else
      let p := pPIPE i
      match s.admitFront i with
      | none => s
      | some (c, s) =>
        let pass2 := c.info.act.isSome
        let bad := fun a b => ecc.contains (a, b)
        let s := s.addCnt p Cn.PIPE_ECC_CORR corr
        let s := ecc.foldl (fun s x => s.eccUncorr p Cn.PIPE_ECC_UNCORR Iq.PIPE_ECC Er.PIPE_ECC
          (Fd.PIPE_ECC_LOC_VALID, Fd.PIPE_ECC_LOC_TABLE, Fd.PIPE_ECC_LOC_INDEX) x.1 x.2) s
        let s := fdbEcc.foldl (fun s x => (s.setFdb i { s.fdb i with bad := (s.fdbBank i, x) :: (s.fdb i).bad }).eccUncorr (pFDB i)
          Cn.FDB_ECC_UNCORR Iq.FDB_ECC Er.FDB_ECC (Fd.FDB_ECC_LOC_VALID, Fd.FDB_ECC_LOC_TABLE, Fd.FDB_ECC_LOC_INDEX) 0 x) s
        if !(s.enabled p) || s.frozen p || bad 0 c.info.port || (pass2 && c.info.epoch ≠ (s.pipe i).epoch) then
          s.entryDrop c Cn.PIPE_ENTRY_DROP i
        else if pass2 && c.info.stamp + s.fld p Fd.PIPE_CFG_RECIRC_MAX_US * 1000 < s.now then
          ((s.raise p Iq.PIPE_RECIRC_STALE).errRun p Er.PIPE_RECIRC_STALE 0 0).entryDrop c Cn.PIPE_RECIRC_STALE i
        else
          let s := if pass2 then ((s.inc p Cn.PIPE_PASS2).endRun p Er.PIPE_RECIRC_STALE 0).flightEnd i c.info
            else s.inc p Cn.PIPE_PKTS
          s.classify i (s.entryBank i c.info) c bad

end Sys2Proof.Machine
end

