-- ==== Sys2Proof/Machine/Fdb.lean ====
section
/-!
DEFINITION. The forwarding database's own steps and window commands (R241 to R254): learning, cross-learning, the aging
sweep, searches, inserts, flushes and the rebuild.
-/

namespace Sys2Proof.Machine

/-- LEARN_APPLY: database `i` applies its next learn action whose frame has ended (R239, R241): a source hit that waits for
it, or the oldest ready request of the learn queue. -/
def execLearnApply (t i : Nat) (s : State) : Res :=
  running t s fun s =>
    if 2 ≤ i || !(s.fdbOn i) then s
    else
      let x := s.fdb i
      match x.late.find? fun r => r.ready ≤ s.now with
      | some r => (s.setFdb i { x with late := x.late.erase r }).learnAct i r.fid r.mac r.port
      | none =>
        match x.learn.find? fun r => r.ready ≤ s.now with
        | some r => (s.setFdb i { x with learn := x.learn.erase r }).learnAct i r.fid r.mac r.port
        | none => s

/-- XLEARN_OFFER_APPLY: database `i` takes its oldest offer (R243): ignored for a local or static key, else an XLRN entry is
inserted or updated. -/
def execXlearnOfferApply (t i : Nat) (s : State) : Res :=
  running t s fun s =>
    if 2 ≤ i || !(s.fdbOn i) then s
    else
      match (s.fdb i).offers with
      | [] => s
      | r :: rest =>
        let s := s.setFdb i { s.fdb i with offers := rest }
        let e := s.newEntry r.fid r.mac r.port true
        match s.fdbFind i (s.fdbBank i) r.fid r.mac with
        | some idx => if isXlrn (s.slotAt i (s.fdbBank i) idx) then s.fdbUpdate i idx e else s
        | none =>
          let (code, _, s) := s.fdbInsert i e
          if code = 3 then s.rehashAsk i else s

/-- The sweep moves a stash entry to a bucket with a free slot (R250). -/
def State.unstash (s : State) (i idx : Nat) : State :=
  let b := s.fdbBank i
  let e := s.slotAt i b idx
  let fid := fget e En.FENT_FID
  let mac := fget e En.FENT_MAC
  match s.freeSlot i b (s.keySlots i b 0 fid mac ++ s.keySlots i b 1 fid mac) with
  | some f => ((s.slotPut i b f e).slotPut i b idx 0).inc (pFDB i) Cn.FDB_RELOCATIONS
  | none => s

/-- AGING_SWEEP_STEP: when its step is due, the sweep of database `i` treats the entry at FDB_SWEEP.POS (R248, R250). A slot
that read with an uncorrectable error is invalidated (R255). -/
def execAgingSweepStep (t i : Nat) (s : State) : Res :=
  running t s fun s =>
    let p := pFDB i
    let age := s.fld p Fd.FDB_AGE_AGE_SEC
    if 2 ≤ i || age = 0 || !(s.fdbOn i) || s.now < (s.fdb i).sweepAt + age * 1000000000 / 16448 then s
    else
      let pos := s.fld p Fd.FDB_SWEEP_POS
      let b := s.fdbBank i
      let wasBad := (s.fdb i).bad.contains (b, pos)
      let s := s.setFdb i { s.fdb i with sweepAt := (s.fdb i).sweepAt + age * 1000000000 / 16448 }
      let s := s.setFld p Fd.FDB_SWEEP_POS ((pos + 1) % 16448)
      let e := s.slotAt i b pos
      if wasBad then s.slotPut i b pos 0
      else if !(isValid e) then s
      else if isStatic e then s.fdbUpdate i pos (fput e En.FENT_HIT 0)
      else if fget e En.FENT_HIT = 0 then (s.fdbRemove i pos).inc p Cn.FDB_AGED
      else
        let s := s.fdbUpdate i pos (fput e En.FENT_HIT 0)
        if 16384 ≤ pos then s.unstash i pos else s

/-! ### Window commands (R254) -/

/-- FDB_WIN_RESULT: 0 OK, 1 NOT_FOUND, 2 REPLACED, 3 FULL, 4 STASHED. -/
def State.fdbResult (s : State) (i code idx : Nat) : State :=
  (s.setFld (pFDB i) Fd.FDB_WIN_RESULT_CODE code).setFld (pFDB i) Fd.FDB_WIN_RESULT_INDEX idx

/-- A command of the active bank is refused with BANK = 1 (R254). -/
def State.activeOnly (s : State) (i : Nat) : Option Nat := if s.flag (pFDB i) Fd.WIN_BANK then some Er.WIN_BAD_OP else none

/-- A command that FDB page `i` carries out. -/
def State.fdbCmd (s : State) (d i v : Nat) (chk : State → Option Nat) (f : State → State) : State :=
  if 2 ≤ i then s else s.winCmd d (pFDB i) v chk f

/-- SEARCH: finds the key of DATA0 to DATA7 in the selected bank. -/
def State.fdbSearch (s : State) (d i v : Nat) : State :=
  s.fdbCmd d i v (fun _ => none) fun s =>
    let x := s.winData (pFDB i)
    let b := s.winBank (pFDB i) 0
    match s.fdbFind i b (fget x En.FENT_FID) (fget x En.FENT_MAC) with
    | some idx => (s.setWinData (pFDB i) (s.slotAt i b idx)).fdbResult i 0 idx
    | none => s.fdbResult i 1 0

/-- SEARCH: finds the key of DATA0 to DATA7 in the selected bank. -/
def execSearch (t d i : Nat) (s : State) : Res := live t s fun s => s.fdbSearch d i 8

/-- An entry passes FDB_NEXT_FILTER. -/
def State.nextPass (s : State) (i : Nat) (e : Entry) : Bool :=
  let p := pFDB i
  isValid e
    && (!(s.flag p Fd.FDB_NEXT_FILTER_FID_EN) || fget e En.FENT_FID = s.fld p Fd.FDB_NEXT_FILTER_FID)
    && (!(s.flag p Fd.FDB_NEXT_FILTER_PORT_EN) || (fget e En.FENT_GROUP = 0 && fget e En.FENT_DEST = s.fld p Fd.FDB_NEXT_FILTER_PORT))
    && (!(s.flag p Fd.FDB_NEXT_FILTER_XLRN_ONLY) || isXlrn e)
    && (!(s.flag p Fd.FDB_NEXT_FILTER_STATIC_ONLY) || isStatic e)
    && (!(s.flag p Fd.FDB_NEXT_FILTER_DYN_ONLY) || (!isStatic e && !isXlrn e))

/-- NEXT: the first valid entry at or after WIN_ADDR.INDEX that passes FDB_NEXT_FILTER. -/
def State.fdbNextCmd (s : State) (d i v : Nat) : State :=
  s.fdbCmd d i v (fun _ => none) fun s =>
    let lo := s.fld (pFDB i) Fd.WIN_INDEX
    match (s.tabList (pFDB i) 0 (s.winBank (pFDB i) 0)).find? fun x => lo ≤ x.1 && s.nextPass i x.2 with
    | some x => s.fdbResult i 0 x.1
    | none => s.fdbResult i 1 0

/-- NEXT: the first valid entry at or after WIN_ADDR.INDEX that passes FDB_NEXT_FILTER. -/
def execFdbNext (t d i : Nat) (s : State) : Res := live t s fun s => s.fdbNextCmd d i 9

/-- The values INSERT refuses (Table 1). -/
def insertCheck (x : Entry) : Option Nat :=
  let stat := isStatic x
  let group := fget x En.FENT_GROUP = 1
  if (fget x En.FENT_DROP = 1 || fget x En.FENT_SA_LOCK = 1) && !stat then some Er.REG_BAD_VALUE
  else if !group && (35 < fget x En.FENT_DEST || (fget x En.FENT_MAC / 2 ^ 40).testBit 0) then some Er.REG_BAD_VALUE
  else none

/-- INSERT: inserts the entry of DATA0 to DATA7 into the active bank (R244). -/
def State.fdbInsertCmd (s : State) (d i v : Nat) : State :=
  s.fdbCmd d i v (fun s => (s.activeOnly i).or (insertCheck (s.winData (pFDB i)))) fun s =>
    let x := s.winData (pFDB i) &&& BitVec.ofNat 256 En.FENT_rw
    let (code, idx, s) := s.fdbInsert i (fput (fput x En.FENT_VALID 1) En.FENT_STAMP s.now)
    let s := s.fdbResult i code idx
    if code = 3 then s.rehashAsk i else s

/-- INSERT: inserts the entry of DATA0 to DATA7 into the active bank (R244). -/
def execInsert (t d i : Nat) (s : State) : Res := live t s fun s => s.fdbInsertCmd d i 10

/-- DELETE: removes the key of DATA0 to DATA7 from the active bank. -/
def State.fdbDelete (s : State) (d i v : Nat) : State :=
  s.fdbCmd d i v (fun s => s.activeOnly i) fun s =>
    let x := s.winData (pFDB i)
    match s.fdbFind i (s.fdbBank i) (fget x En.FENT_FID) (fget x En.FENT_MAC) with
    | some idx => (s.fdbRemove i idx).fdbResult i 0 idx
    | none => s.fdbResult i 1 0

/-- DELETE: removes the key of DATA0 to DATA7 from the active bank. -/
def execDelete (t d i : Nat) (s : State) : Res := live t s fun s => s.fdbDelete d i 11

/-- FLUSH_PORT: removes the entries of a port, or of all ports; static ones when asked.
DEDUCED, unsafe (notes/assumptions/39.md). -/
def State.fdbFlushPort (s : State) (d i v : Nat) : State :=
  s.fdbCmd d i v (fun s => s.activeOnly i) fun s =>
    let x := s.winData (pFDB i)
    let (n, s) := s.fdbRemoveAll i fun e =>
      (bitsOf x 6 1 = 1 || !isStatic e) && (bitsOf x 7 1 = 1 || (fget e En.FENT_GROUP = 0 && fget e En.FENT_DEST = bitsOf x 0 6))
    (s.addCnt (pFDB i) Cn.FDB_FLUSHED n).fdbResult i 0 n

/-- FLUSH_PORT: removes the entries of a port, or of all ports; static ones when asked. -/
def execFlushPort (t d i : Nat) (s : State) : Res := live t s fun s => s.fdbFlushPort d i 12

/-- REHASH: clears the standby bank and turns mirroring on (R252); the command stays busy until REHASH_DONE. -/
def State.fdbRehash (s : State) (d i v : Nat) : State :=
  s.fdbCmd d i v (fun s => if s.flag (pFDB i) Fd.WIN_BANK then none else some Er.WIN_BAD_OP) fun s =>
    let b := 1 - s.fdbBank i
    let s := (s.tabList (pFDB i) 0 b).foldl (fun s x => s.setEnt (pFDB i) 0 b x.1 0) s
    (s.setFld (pFDB i) fRebuild 1).setFlag (pFDB i) fRebuilt false

/-- REHASH: clears the standby bank and turns mirroring on (R252); the command stays busy until REHASH_DONE. -/
def execRehash (t d i : Nat) (s : State) : Res := live t s fun s => s.fdbRehash d i 13

/-- The rebuild inserts entries one after another; whether all were placed. -/
def State.rebuildAll (s : State) (i : Nat) : List Entry → Bool × State
  | [] => (true, s)
  | e :: l =>
    let (code, _, s) := s.bankInsert i (1 - s.fdbBank i) e
    if code = 3 then (false, s) else s.rebuildAll i l

/-- REHASH_DONE: the rebuild of database `i` has read every valid active entry: REBUILT, or FULL (R252, Table 6). -/
def execRehashDone (t i : Nat) (s : State) : Res :=
  live t s fun s =>
    if 2 ≤ i || s.fld (pFDB i) fRebuild ≠ 1 then s
    else
      let l := ((s.tabList (pFDB i) 0 (s.fdbBank i)).map (·.2)).filter isValid
      let (ok, s) := s.rebuildAll i l
      let s := if ok then ((s.setFld (pFDB i) fRebuild 2).setFlag (pFDB i) fRebuilt true).fdbResult i 0 0 else s.rebuildEnd i 3
      s.raise (pFDB i) Iq.FDB_REBUILD_DONE

/-- HASH: both buckets of the key under the selected bank's seeds. -/
def State.fdbHashCmd (s : State) (d i v : Nat) : State :=
  s.fdbCmd d i v (fun _ => none) fun s =>
    let x := s.winData (pFDB i)
    let b := s.winBank (pFDB i) 0
    let h := fun side => s.fdbBucket i b side (fget x En.FENT_FID) (fget x En.FENT_MAC)
    ((s.setFld (pFDB i) Fd.FDB_WIN_HASH_B0 (h 0)).setFld (pFDB i) Fd.FDB_WIN_HASH_B1 (h 1)).fdbResult i 0 0

/-- HASH: both buckets of the key under the selected bank's seeds. -/
def execFdbHash (t d i : Nat) (s : State) : Res := live t s fun s => s.fdbHashCmd d i 14

end Sys2Proof.Machine
end

