-- ==== Sys2Proof/Machine/HostOps.lean ====
section
/-!
DEFINITION. Host domains' shared operations (R425 to R434, R452): ring fields, the host region of external memory, writes
to host memory, ring events and stops, and which ring takes a copy.
-/

namespace Sys2Proof.Machine

/-! ### The host region -/

/-- Base and size in bytes of the host region (R452); size 0 while it is closed. -/
def State.hostBase (s : State) : Nat := (s.fld pEMC Fd.EMC_SPILL_MIB + s.fld pEMC Fd.EMC_TRN_SEGS) * 2 ^ 20

def State.hostSize (s : State) : Nat :=
  let l := s.fld pEMC Fd.EMC_HOST_LOG2
  if !(s.enabled pEMC) || l = 0 then 0 else 2 ^ (l - 1) * 2 ^ 20

/-- `n` bytes at an offset lie in the host region. -/
def State.hostHas (s : State) (o n : Nat) : Bool := o + n ≤ s.hostSize

/-- Bytes of the host region. -/
def State.hostBytes (s : State) (o n : Nat) : List Nat := (List.range n).map fun k => s.dramByte (s.hostBase + o + k)

/-- Write for a ring: to host memory of domain `d` (LOC = 0), or to the host region (LOC = 1).
DESIGN CHOICE, safe (notes/assumptions/14.md). -/
def State.dmaPut (s : State) (d loc a : Nat) (bs : List Nat) : State :=
  if loc = 0 then s.emit (.sent "dma write" (d :: a :: bs)) else s.dramPut (s.hostBase + a) bs

/-! ### Rings -/

/-- A field of transmit (tab 0) or receive (tab 1) ring `r` of domain `d`. -/
def State.ringF (s : State) (d tab r : Nat) (f : Fld) : Nat := s.entF (pHDOM d) tab 0 r f

def State.setRingF (s : State) (d tab r : Nat) (f : Fld) (x : Nat) : State := s.setEntF (pHDOM d) tab 0 r f x

/-- The ring is RUNNING. -/
def State.ringRuns (s : State) (d tab r : Nat) : Bool := s.ringF d tab r En.RING_VALID = 1 && s.ringF d tab r En.RING_STATE = 1

/-- No descriptor stands between HEAD and TAIL. -/
def State.ringEmpty (s : State) (d tab r : Nat) : Bool :=
  s.ringF d tab r En.RING_HEAD = s.ringF d tab r En.RING_TAIL % 2 ^ s.ringF d tab r En.RING_LOG2_SIZE

def State.ringRt (s : State) (d tab r : Nat) : RingRt := smGet {} (4 * tab + r) (s.dom d).rings

def State.setRingRt (s : State) (d tab r : Nat) (x : RingRt) : State :=
  s.setDom d { s.dom d with rings := smSet {} (4 * tab + r) x (s.dom d).rings }

/-- The address of the descriptor at HEAD. -/
def State.headAddr (s : State) (d tab r : Nat) : Nat := s.ringF d tab r En.RING_BASE + 32 * s.ringF d tab r En.RING_HEAD

/-- HEAD moves on, modulo the ring's size. -/
def State.headNext (s : State) (d tab r : Nat) : State :=
  s.setRingF d tab r En.RING_HEAD ((s.ringF d tab r En.RING_HEAD + 1) % 2 ^ s.ringF d tab r En.RING_LOG2_SIZE)

/-- A ring event sets the ring latch of the ring's vector (R434). -/
def State.ringEvent (s : State) (d tab r : Nat) : State :=
  let v := s.ringF d tab r En.RING_VEC
  let s := s.setRingRt d tab r { s.ringRt d tab r with coal := 0, since := 0 }
  (s.setDom d { s.dom d with latch := (s.dom d).latch ||| 2 ^ v }).deliver d v

/-- A completion has been written (R434). -/
def State.ringDone (s : State) (d tab r : Nat) : State :=
  let x := s.ringRt d tab r
  let s := s.setRingRt d tab r { x with coal := x.coal + 1, since := if x.coal = 0 then s.now else x.since }
  if s.ringF d tab r En.RING_IRQ_EN = 1 && s.ringF d tab r En.RING_COAL_CNT ≤ x.coal + 1 then s.ringEvent d tab r else s

/-- A ring stops for an error (R432). -/
def State.ringStop (s : State) (d tab r code : Nat) : State :=
  let s := (s.setRingF d tab r En.RING_STATE 2).inc (pHDOM d) Cn.HDOM_DMA_ERR
  (s.raise (pHDOM d) Iq.HDOM_DMA_ERR).err (pHDOM d) code (4 * tab + r)

/-- A descriptor or buffer of a ring with LOC = 1 lies outside the host region (R454). -/
def State.ringRange (s : State) (d tab r : Nat) : State := (s.err pEMC Er.EMC_HOST_RANGE (4 * tab + r)).ringStop d tab r Er.DMA_BUS_ERR

/-! ### Which ring takes a copy (R431) -/

/-- The rings of D0 to D3, domain by domain. -/
def allRings : List (Nat × Nat) := (List.range 16).map fun k => (k / 4, k % 4)

/-- Receive ring `x` names port `p` and queue `q`. -/
def State.ringNames (s : State) (p q : Nat) (x : Nat × Nat) : Bool :=
  s.ringF x.1 1 x.2 En.RING_SRC_PORT = p && (s.ringF x.1 1 x.2 En.RING_QMASK).testBit q

/-- The ring that takes a copy of queue `q` of port `p`. -/
def State.rxRing (s : State) (p q : Nat) : Option (Nat × Nat) :=
  allRings.find? fun x => s.ringRuns x.1 1 x.2 && s.ringNames p q x

/-- A domain whose reset stopped a ring that the copy names (R439). -/
def State.rxReset (s : State) (p q : Nat) : Option Nat :=
  (allRings.find? fun x => (s.dom x.1).resetRings.contains x.2 && s.ringNames p q x).map (·.1)

/-- The host side lets port 32, 33 or 35 release a copy of queue `q`: its ring has a descriptor, or the copy will be
discarded (R281, R431, R439). -/
def State.hostAccepts (s : State) (p q : Nat) : Bool :=
  match s.rxRing p q with
  | some (d, r) => !(s.ringEmpty d 1 r) || s.entF pSWC 0 0 p En.SPORT_FULL_POLICY = 1
  | none => true

/-! ### Host frames in the switch (R430) -/

/-- Change the completion record of a host frame. -/
def State.hostMark (s : State) (m : Meta) (f : TxWait → TxWait) : State :=
  match m.host with
  | some (d, r, n) =>
    let x := s.ringRt d 0 r
    s.setRingRt d 0 r { x with waits := x.waits.map fun w => if w.num = n then f w else w }
  | none => s

/-- Some copy of a host frame is still in the switch. -/
def State.hostLive (s : State) (h : Nat × Nat × Nat) : Bool :=
  let is := fun (m : Meta) => m.host = some h
  (s.swc.front.any fun x => x.2.any fun c => is c.info)
    || (s.swc.decided.any fun k => is k.info)
    || (s.swc.queues.any fun x => (x.2.h ++ x.2.m ++ x.2.t).any fun c => is c.info)
    || (s.egress.any fun x => [x.2.line, x.2.susp].any fun o => match o with
        | some l => is l.copy.info
        | none => false)
    || (s.frer.sets.any fun x => x.contents.any fun c => match c.held with
        | some k => is k.info
        | none => false)

end Sys2Proof.Machine
end

