-- ==== Sys2Proof/Machine/EgrOps.lean ====
section
/-!
DEFINITION. Egress selection's shared operations (R290 to R301): eligibility, line times, size and age checks, and the
choice among queues.
-/

namespace Sys2Proof.Machine

/-- Line time in ns of a frame of `len` bytes on a port (R294); 0 when the port has no rate. -/
def State.lineTime (s : State) (p len : Nat) : Nat :=
  let r := s.portMbps p
  if r = 0 then 0 else (len + 20) * 8 * 1000 / r

/-- The port's transmission is subject to MACsec: its entry has TX_EN (R409). -/
def State.secTx (s : State) (p : Nat) : Bool := p < 24 && s.enabled (pMSEC 0) && s.entF (pMSEC 0) 3 0 p En.MPORT_TX_EN = 1

/-- A frame of the uncontrolled port: EtherType 0x888E or 0x88F7 (R410). -/
def uncontrolled (bytes : List Nat) : Bool := [0x888E, 0x88F7].contains (beNat ((bytes.drop 12).take 2))

/-- The length on the line of a frame (R409): with SecTAG (8 bytes, and 8 of SCI when included) and a 16-byte ICV when the
port protects it. -/
def State.lineLen (s : State) (p : Nat) (bytes : List Nat) : Nat :=
  if s.secTx p && !(uncontrolled bytes) then bytes.length + 24 + 8 * s.entF (pMSEC 0) 3 0 p En.MPORT_INCLUDE_SCI else bytes.length

/-- The port can transmit (R290): an external port UP, not FROZEN, transmit enabled; the egress and the switch core operating
and not frozen. -/
def State.canSend (s : State) (p : Nat) : Bool :=
  s.enabled pEGR && !(s.frozen pEGR) && s.enabled pSWC && !(s.frozen pSWC)
    && (if p < 32 then s.ethSt p = 2 && !(s.flag (pEPRT p) Fd.EPRT_STATE_FROZEN) && s.flag (pEPRT p) Fd.EPRT_CFG_TX_EN else p < 36)

/-- The guard band lets a frame of `len` line bytes start now on queue `q` (R299). -/
def State.guardOk (s : State) (p q len : Nat) : Bool :=
  if 32 ≤ p || s.preemptable p q || s.entF pEGR 0 0 p En.EPORT_GUARD_EN = 0 then true
  else match s.gateLeft p q with
    | some left => s.lineTime p len ≤ left
    | none => true

/-- The head copy of queue `q` is eligible (R290), its age and size checks passed. -/
def State.eligible (s : State) (p q : Nat) : Bool :=
  match (s.queue (qkey p q)).h with
  | [] => false
  | c :: _ =>
    s.canSend p && s.gateOpen p q && !(s.preemptable p q && s.holdOn p)
      && (s.tsa p q ≠ 1 || decide (0 ≤ smGet 0 q (s.egr p).credit))
      && s.guardOk p q (s.lineLen p c.bytes)
      && (if p = 32 || p = 33 || p = 35 then s.hostAccepts p q else true)

/-- The queues of one class of a port, in descending number. -/
def State.classQueues (s : State) (p : Nat) (pre : Bool) : List Nat :=
  ((List.range 8).map fun k => 7 - k).filter fun q => s.preemptable p q = pre

/-- The highest-numbered eligible queue with TSA 0 or 1 (R291). -/
def State.strictPick (s : State) (p : Nat) (pre : Bool) : Option Nat :=
  (s.classQueues p pre).find? fun q => s.tsa p q ≠ 2 && s.eligible p q

/-! ### Deficit weighted round robin (R292) -/

/-- The pointer and the visit flag of a class. -/
def Egress.ptr (e : Egress) (pre : Bool) : Nat × Bool := if pre then (e.ptrP, e.visitP) else (e.ptrE, e.visitE)

def Egress.setPtr (e : Egress) (pre : Bool) (x : Nat × Bool) : Egress :=
  if pre then { e with ptrP := x.1, visitP := x.2 } else { e with ptrE := x.1, visitE := x.2 }

/-- Length of the head copy of a queue, DA to FCS. -/
def State.headLen (s : State) (p q : Nat) : Nat := match (s.queue (qkey p q)).h with
  | c :: _ => s.lineLen p c.bytes
  | [] => 0

/-- The pointer visits queues until one sends: `n` visits at most. -/
def State.dwrrVisit (s : State) (p : Nat) (pre : Bool) : Nat → Egress → Option Nat × Egress
  | 0, e => (none, e)
  | n + 1, e =>
    let (q, seen) := e.ptr pre
    let next := e.setPtr pre ((q + 7) % 8, false)
    if s.preemptable p q = pre && s.tsa p q = 2 && s.eligible p q then
      let D := smGet 0 q e.deficit + (if seen then 0 else s.weight p q * 64)
      let len := s.headLen p q
      if len ≤ D then (some q, { e.setPtr pre (q, true) with deficit := smSet 0 q (D - len) e.deficit })
      else s.dwrrVisit p pre n { next with deficit := smSet 0 q D e.deficit }
    else s.dwrrVisit p pre n next

/-- The choice of R292 among the eligible queues with TSA 2 of a class. -/
def State.dwrrPick (s : State) (p : Nat) (pre : Bool) : Option Nat × Egress :=
  if (s.classQueues p pre).any fun q => s.tsa p q = 2 && s.eligible p q then s.dwrrVisit p pre 1200 (s.egr p)
  else (none, s.egr p)

/-- The choice of R291 in one class: the queue, and the pointers after it. -/
def State.pick (s : State) (p : Nat) (pre : Bool) : Option Nat × Egress :=
  match s.strictPick p pre with
  | some q => (some q, s.egr p)
  | none => s.dwrrPick p pre

/-! ### Age and size checks of a head copy (R197, R301) -/

/-- A copy is aged at check stamp `c` (R197). -/
def State.aged (s : State) (p q c stamp : Nat) : Bool :=
  let l := s.fld (pEPRT p) (Fd.EPRT_AGE_LIMIT.at 4 q)
  p < 32 && l ≠ 0 && stamp + l * 100000 < c

/-- Discard the aged head copies of a queue at check stamp `c`: counted in AGED, raised, logged once per run of aged frames.
`n` bounds the copies looked at. -/
def State.ageQueue (s : State) (p q c : Nat) : Nat → State
  | 0 => s
  | n + 1 =>
    match (s.queue (qkey p q)).h with
    | x :: _ =>
      if s.aged p q c x.info.stamp then
        let s := (s.creditSync p).qPop (qkey p q)
        let s := ((s.copyFree x).inc (pEPRT p) Cn.EPRT_AGED).raise (pEPRT p) Iq.EPRT_AGED
        (s.errRun (pEPRT p) Er.ETH_AGED q q).ageQueue p q c n
      else s.endRun (pEPRT p) Er.ETH_AGED q
    | [] => s

/-- The size checks of R301 on a head copy whose gate is open. -/
def State.oversize (s : State) (p q : Nat) (c : Copy) : Bool :=
  let sdu := s.eqF p q En.EQ_MAX_SDU
  let len := s.lineLen p c.bytes
  p < 32 && s.gateOpen p q && ((sdu ≠ 0 && sdu < c.bytes.length)
    || (s.entF pEGR 0 0 p En.EPORT_GUARD_EN = 1 && !(s.preemptable p q) && (match s.wq? p q with
        | some w => w < s.lineTime p len
        | none => false)))

/-- Discard the oversize head copies of a queue. -/
def State.sizeQueue (s : State) (p q : Nat) : Nat → State
  | 0 => s
  | n + 1 =>
    match (s.queue (qkey p q)).h with
    | x :: _ =>
      if s.oversize p q x then
        let s := ((s.creditSync p).qPop (qkey p q)).copyFree x
        let s := s.setEntF pEGR 1 0 (8 * p + q) En.EQ_OVERSIZE (s.eqF p q En.EQ_OVERSIZE + 1)
        let s := (s.inc pEGR Cn.EGR_GATE_OVERSIZE).raise pEGR Iq.EGR_GATE_OVERSIZE
        (s.errRun pEGR Er.EGR_GATE_OVERSIZE p p).sizeQueue p q n
      else s.endRun pEGR Er.EGR_GATE_OVERSIZE p
    | [] => s

/-- Age and size checks of every head copy of a port at its selection stamp (R290). -/
def State.headChecks (s : State) (p : Nat) : State :=
  foldN 8 (fun q s =>
    let s := s.ageQueue p q s.now ((s.queue (qkey p q)).h.length)
    s.sizeQueue p q ((s.queue (qkey p q)).h.length)) s

end Sys2Proof.Machine
end

