-- ==== Sys2Proof/Machine/MsecOps.lean ====
section
/-!
DEFINITION. MAC security of ports 0 to 23 (R408 to R413): secure channels and associations, the protection of a frame that
leaves and the validation of a frame that arrives. AES-GCM is that of SP 800-38D (notes/assumptions/7.md); the SecTAG follows IEEE
802.1AE-2018 (notes/assumptions/41.md).
-/

namespace Sys2Proof.Machine

/-! ### AES-GCM (R409) -/

/-- The text under the key stream: enciphering and deciphering alike. -/
def gcmText (bits key nonce : Nat) (text : List Nat) : List Nat :=
  ((gcmStream bits key nonce text.length).zip text).map fun x => (x.2 % 256) ^^^ x.1

/-- The 16 bytes of the tag over associated data and enciphered text. -/
def gcmIcv (bits key nonce : Nat) (aad text : List Nat) : List Nat := beBytes 16 (gcmTag bits key nonce aad text)

/-- The deciphered text, when the tag is right. -/
def gcmOpen (bits key nonce : Nat) (aad text icv : List Nat) : Option (List Nat) :=
  if gcmIcv bits key nonce aad text = icv then some (gcmText bits key nonce text) else none

/-! ### Entries -/

/-- A field of port entry `p` (Table 7). -/
def State.mpF (s : State) (p : Nat) (f : Fld) : Nat := s.entF (pMSEC 0) 3 0 p f

/-- A field of secure channel `c`, 0 to 127 (R414). -/
def State.scF (s : State) (c : Nat) (f : Fld) : Nat := s.entF (pMSEC (c / 16)) 4 0 (c % 16) f

/-- A field of association `an` of channel `c`. -/
def State.saF (s : State) (c an : Nat) (f : Fld) : Nat := s.entF (pMSEC (c / 16)) 5 0 (4 * (c % 16) + an) f

def State.setSaF (s : State) (c an : Nat) (f : Fld) (x : Nat) : State := s.setEntF (pMSEC (c / 16)) 5 0 (4 * (c % 16) + an) f x

/-- Count in a counter of an association (Table 10). -/
def State.saCount (s : State) (c an : Nat) (f : Fld) (n : Nat) : State :=
  let i := 4 * (c % 16) + an
  s.setEntF (pMSEC (c / 16)) 6 0 i f (s.entF (pMSEC (c / 16)) 6 0 i f + n)

/-- SA `an` of channel `c` is valid, and so is the channel. -/
def State.saOk (s : State) (c an : Nat) : Bool := s.scF c En.SC_VALID = 1 && s.saF c an En.SA_VALID = 1

/-- The channel's suite has extended packet numbers. -/
def State.isXpn (s : State) (c : Nat) : Bool := 2 ≤ s.scF c En.SC_SUITE

/-- SA `an` of channel `c` is the encoding SA of its port (R416). -/
def State.encoding (s : State) (c an : Nat) : Bool :=
  (List.range 24).any fun p => s.mpF p En.MPORT_TX_EN = 1 && s.mpF p En.MPORT_TX_SC = c && s.mpF p En.MPORT_ENC_AN = an

/-- The nonce of IEEE 802.1AE, clause 14: SCI and PN, or for an XPN suite (SSCI and the 64-bit PN) xor the salt.
PRESUMED, unsafe (notes/assumptions/41.md). -/
def State.gcmNonce (s : State) (c an pn : Nat) : Nat :=
  if s.isXpn c then (s.saF c an En.SA_SSCI * 2 ^ 64 + pn) ^^^ s.saF c an En.SA_SALT else s.scF c En.SC_SCI * 2 ^ 32 + pn

/-- The confidentiality offset of a port, in bytes. -/
def State.confOffset (s : State) (p : Nat) : Nat := nth 0 [0, 30, 50] (s.mpF p En.MPORT_OFFSET)

/-! ### Transmission (R409, R411) -/

/-- The SecTAG of a frame with `len` bytes of user data: TCI and AN, SL, the low half of the PN, and the SCI when sent.
PRESUMED, unsafe (notes/assumptions/41.md). -/
def State.secTag (s : State) (p c an pn len : Nat) : List Nat :=
  let conf := s.mpF p En.MPORT_CONF
  let sci := s.mpF p En.MPORT_INCLUDE_SCI
  let tci := 0x40 * s.mpF p En.MPORT_ES + 0x20 * sci + 0x10 * s.mpF p En.MPORT_SCB + 0x0C * conf + an
  [0x88, 0xE5, tci, if len < 48 then len else 0] ++ beBytes 4 pn ++ (if sci = 1 then beBytes 8 (s.scF c En.SC_SCI) else [])

/-- The threshold of PN_WARN.
DEDUCED, unsafe (notes/assumptions/42.md). -/
def State.pnWarn (s : State) (c : Nat) : Nat :=
  if s.isXpn c then s.fld (pMSEC 0) Fd.MSEC_XPN_WARN_HI_PN_HI * 2 ^ 32 else s.fld (pMSEC 0) Fd.MSEC_PN_WARN_PN

/-- The last packet number of a suite. -/
def State.pnLast (s : State) (c : Nat) : Nat := if s.isXpn c then 2 ^ 64 - 1 else 2 ^ 32 - 1

/-- SA `an` of channel `c` has used NEXT_PN: it increments, PN_WARN is raised when it reaches the threshold, and the last
number sets EXHAUSTED (R411).
DEDUCED, unsafe (notes/assumptions/42.md). -/
def State.pnUsed (s : State) (c an : Nat) : State :=
  let pn := s.saF c an En.SA_NEXT_PN
  let next := (pn + 1) % (s.pnLast c + 1)
  let w := s.pnWarn c
  let s := s.setSaF c an En.SA_NEXT_PN next
  let s := if pn < w && w ≤ pn + 1 then s.raise (pMSEC 0) Iq.MSEC_PN_WARN else s
  if pn = s.pnLast c then s.setSaF c an En.SA_EXHAUSTED 1 else s

/-- The switch of an exhausted encoding SA to the next one (R411). -/
def State.saSwitch (s : State) (p : Nat) : State :=
  let c := s.mpF p En.MPORT_TX_SC
  let next := s.mpF p En.MPORT_NEXT_AN
  if s.saF c (s.mpF p En.MPORT_ENC_AN) En.SA_EXHAUSTED = 1 && s.mpF p En.MPORT_NEXT_EN = 1 && s.saF c next En.SA_VALID = 1 then
    ((s.setEntF (pMSEC 0) 3 0 p En.MPORT_ENC_AN next).setEntF (pMSEC 0) 3 0 p En.MPORT_NEXT_EN 0).raise (pMSEC 0) Iq.MSEC_SA_SWITCH
  else s

/-- An uncorrectable error of an MSEC table entry (R413): tables 4 to 6 are named by their device-wide index.
DESIGN CHOICE, safe (notes/assumptions/12.md). -/
def State.msecEcc (s : State) (l : List (Nat × Nat)) : State :=
  l.foldl (fun s x => s.eccUncorr (pMSEC 0) Cn.MSEC_ECC_UNCORR Iq.MSEC_ECC Er.MSEC_ECC
    (Fd.MSEC_ECC_LOC_VALID, Fd.MSEC_ECC_LOC_TABLE, Fd.MSEC_ECC_LOC_INDEX) x.1 x.2) s

/-- The bytes of a frame as port `p` sends it, none when it is discarded (R409 to R411). `ecc`: entries of the port, its
channel or its association with an uncorrectable error (R413).
DEDUCED, unsafe (notes/assumptions/42.md). -/
def State.protect (s : State) (p : Nat) (bytes : List Nat) (ecc : List (Nat × Nat)) : Option (List Nat) × State :=
  if !(s.secTx p) || uncontrolled bytes then (some bytes, s)
  else if !ecc.isEmpty then (none, s.msecEcc ecc)
  else if s.fld (pEPRT p) Fd.EPRT_CFG_MAX_LEN < s.lineLen p bytes then (none, s.inc (pMSEC 0) Cn.MSEC_TX_TOO_LONG)
  else
    let s := s.saSwitch p
    let c := s.mpF p En.MPORT_TX_SC
    let an := s.mpF p En.MPORT_ENC_AN
    if !(s.saOk c an) then (none, s)
    else if s.saF c an En.SA_EXHAUSTED = 1 then
      let s := (s.inc (pMSEC 0) Cn.MSEC_TX_PN_EXHAUSTED).raise (pMSEC 0) Iq.MSEC_PN_EXHAUSTED
      (none, s.errRun (pMSEC 0) Er.MSEC_PN_EXHAUSTED p p)
    else
      let (key, s) := s.keyUse (s.saF c an En.SA_KEY)
      match key with
      | none => (none, s)
      | some (bits, mat) =>
        let pn := s.saF c an En.SA_NEXT_PN
        let user := (bytes.take (bytes.length - 4)).drop 12
        let conf := s.mpF p En.MPORT_CONF = 1
        let off := if conf then min (s.confOffset p) user.length else user.length
        let tag := s.secTag p c an pn user.length
        let head := bytes.take 12 ++ tag
        let nonce := s.gcmNonce c an pn
        let text := gcmText bits mat nonce (user.drop off)
        let out := head ++ user.take off ++ text ++ gcmIcv bits mat nonce (head ++ user.take off) text
        let s := (s.pnUsed c an).endRun (pMSEC 0) Er.MSEC_PN_EXHAUSTED p
        let s := (s.saCount c an En.SACNT_FRAMES 1).saCount c an En.SACNT_OCTETS user.length
        (some (out ++ fcsOf out), s.inc (pMSEC 0) Cn.MSEC_TX_PROTECTED)

/-! ### Reception (R410) -/

/-- What a SecTAG says: the SCI when it names one, AN, low PN, confidentiality, and where the user data starts. -/
structure SecTagIn where
  sci : Option Nat
  an : Nat
  pn : Nat
  conf : Bool
  start : Nat

/-- The SecTAG of a frame without its FCS: none when the frame has none; `some none` for one that IEEE 802.1AE calls
invalid.
PRESUMED, unsafe (notes/assumptions/41.md). -/
def parseSecTag (b : List Nat) : Option (Option SecTagIn) :=
  if beNat ((b.drop 12).take 2) ≠ 0x88E5 then none
  else
    let tci := nth 0 b 14
    let sl := nth 0 b 15
    let has := tci.testBit 5
    let es := tci.testBit 6
    let scb := tci.testBit 4
    let start := if has then 28 else 20
    let bad := tci.testBit 7 || (has && (es || scb)) || tci.testBit 3 ≠ tci.testBit 2 || 48 ≤ sl || b.length < start + 16
      || (sl ≠ 0 && b.length < start + sl + 16)
    if bad then some none
    else
      let sci : Option Nat := if has then some (beNat ((b.drop 20).take 8))
        else if es then some (beNat ((b.drop 6).take 6) * 65536 + if scb then 0 else 1)
        else none
      some (some ⟨sci, tci % 4, beNat ((b.drop 16).take 4), tci.testBit 2, start⟩)

/-- The receive channel of port `p` that a SecTAG names: by its SCI, or the port's only receive channel. -/
def State.rxSc (s : State) (p : Nat) (sci : Option Nat) : Option Nat :=
  let l := (List.range 128).filter fun c => s.scF c En.SC_VALID = 1 && s.scF c En.SC_DIR = 0 && s.scF c En.SC_PORT = p
  match sci with
  | some x => l.find? fun c => s.scF c En.SC_SCI = x
  | none => match l with
    | [c] => some c
    | _ => none

/-- The lowest packet number the SA takes as in its window.
PRESUMED, unsafe (notes/assumptions/41.md). -/
def State.lowestPn (s : State) (p c an : Nat) : Nat := s.saF c an En.SA_NEXT_PN - s.mpF p En.MPORT_REPLAY_WINDOW

/-- The full packet number of a frame: for an XPN suite the upper half is recovered from the lowest acceptable number (IEEE
802.1AE, 10.6.2).
PRESUMED, unsafe (notes/assumptions/41.md). -/
def State.fullPn (s : State) (p c an pn : Nat) : Nat :=
  if !(s.isXpn c) then pn
  else
    let low := s.lowestPn p c an
    let hi := low / 2 ^ 32
    if low.testBit 31 && !(pn.testBit 31) then (hi + 1) % 2 ^ 32 * 2 ^ 32 + pn else hi * 2 ^ 32 + pn

/-- Validation of a received frame (R410): the frame with SecTAG and ICV removed, none when it is discarded. `b` is the frame
from DA to FCS.
DEDUCED, unsafe (notes/assumptions/42.md). -/
def State.validate (s : State) (p : Nat) (b : List Nat) (ecc : List (Nat × Nat)) : Option (List Nat) × State :=
  let m := pMSEC 0
  if !(s.enabled m) || s.mpF p En.MPORT_RX_EN = 0 || uncontrolled b then (some b, s)
  else if !ecc.isEmpty then (none, (s.msecEcc ecc).inc (pEPRT p) Cn.EPRT_RX_DISCARD)
  else
    let body := b.take (b.length - 4)
    let strict := 2 ≤ s.mpF p En.MPORT_VALIDATE
    let gone := fun (s : State) => ((none : Option (List Nat)), s.inc (pEPRT p) Cn.EPRT_RX_DISCARD)
    match parseSecTag body with
    | none =>
      let s := s.inc m Cn.MSEC_RX_UNTAGGED
      if strict then gone s else (some b, s)
    | some none => gone s
    | some (some g) =>
      let sl := nth 0 body 15
      let body := if sl = 0 then body else body.take (g.start + sl + 16)
      let user := (body.take (body.length - 16)).drop g.start
      let plain := fun (u : List Nat) => some (refcs (body.take 12 ++ u))
      if s.mpF p En.MPORT_VALIDATE = 0 then (plain user, s)
      else
        let noSa := fun (s : State) =>
          let s := s.inc m Cn.MSEC_RX_NO_SA
          if strict then gone s else (plain user, s)
        match s.rxSc p g.sci with
        | none => noSa s
        | some c =>
          if !(s.saOk c g.an) then noSa s
          else
            let (key, s) := s.keyUse (s.saF c g.an En.SA_KEY)
            match key with
            | none => noSa s
            | some (bits, mat) =>
              let pn := s.fullPn p c g.an g.pn
              if s.mpF p En.MPORT_REPLAY_PROTECT = 1 && pn < s.lowestPn p c g.an then
                gone ((s.inc m Cn.MSEC_RX_LATE).saCount c g.an En.SACNT_LATE 1)
              else
                let off := if g.conf then min (s.confOffset p) user.length else user.length
                let nonce := s.gcmNonce c g.an pn
                let aad := body.take g.start ++ user.take off
                match gcmOpen bits mat nonce aad (user.drop off) (body.drop (body.length - 16)) with
                | some text =>
                  let s := (s.inc m Cn.MSEC_RX_OK).setSaF c g.an En.SA_IN_USE 1
                  let s := (s.saCount c g.an En.SACNT_FRAMES 1).saCount c g.an En.SACNT_OCTETS user.length
                  let s := if s.saF c g.an En.SA_NEXT_PN ≤ pn then s.setSaF c g.an En.SA_NEXT_PN ((pn + 1) % (s.pnLast c + 1)) else s
                  (plain (user.take off ++ text), s)
                | none =>
                  let s := ((s.inc m Cn.MSEC_RX_INVALID).raise m Iq.MSEC_RX_INVALID).saCount c g.an En.SACNT_INVALID 1
                  if strict then gone s
                  else (plain (user.take off ++ gcmText bits mat nonce (user.drop off)), s.inc m Cn.MSEC_RX_NOT_VALID)

end Sys2Proof.Machine
end

