-- ==== Sys2Proof/Machine/FrerOps.lean ====
section
/-!
DEFINITION. Redundant streams (R308 to R316): sequence recovery and generation, sets of copies that arrive within a window,
their delivery under Table 4, and resets.
-/

namespace Sys2Proof.Machine

/-- A field of recovery function `f`. -/
def State.recF (s : State) (f : Nat) (x : Fld) : Nat := s.entF pEGR 6 0 f x

def State.setRecF (s : State) (f : Nat) (x : Fld) (v : Nat) : State := s.setEntF pEGR 6 0 f x v

/-- Count in a recovery counter. -/
def State.recCount (s : State) (f : Nat) (x : Fld) (n : Nat) : State := s.setEntF pEGR 7 0 f x (s.entF pEGR 7 0 f x + n)

def State.setFrer (s : State) (x : Frer) : State := { s with frer := x }

/-- A packet leaves without (more) copies: its reference goes. -/
def State.pktDone (s : State) (k : Packet) : State := s.pktUnref k.pkt k.mem

/-- A packet is discarded by recovery function `f`, counted in DISCARDED. -/
def State.frDiscard (s : State) (f : Nat) (k : Packet) : State :=
  ((s.recCount f En.RECC_DISCARDED 1).inc pEGR Cn.EGR_DISCARDED).pktDone k

/-- A packet is delivered: PASSED, then its generation function numbers it (R310). -/
def State.frPass (s : State) (f : Nat) : State := (s.recCount f En.RECC_PASSED 1).inc pEGR Cn.EGR_PASSED

/-- The generation function of a packet's stream entry gives it its number (R310).
DEDUCED, unsafe (notes/assumptions/53.md). -/
def State.frGen (s : State) (e : Entry) (k : Packet) : Packet × State :=
  let g := fget e En.STRM_GEN
  if fget e En.STRM_GEN_EN = 1 && s.entF pEGR 5 0 g En.GENF_VALID = 1 then
    let n := s.entF pEGR 5 0 g En.GENF_SEQ
    ({ k with gen := some n }, s.setEntF pEGR 5 0 g En.GENF_SEQ ((n + 1) % 65536))
  else (k, s)

/-! ### Contents and holds -/

/-- The fingerprint of a packet (R313): the CRC-32C over DA and what follows the R-TAG, FCS excluded. -/
def fingerprint (k : Packet) : Nat :=
  crc32c (k.bytes.take 6 ++ (k.bytes.take (k.bytes.length - 4)).drop ((k.rtagAt.getD 6) + 6))

/-- Free set and hold entries. -/
def State.addSets (s : State) (up : Bool) : State :=
  let n := s.fld pEGR Fd.EGR_FRER_FREE_SETS
  s.setFld pEGR Fd.EGR_FRER_FREE_SETS (if up then n + 1 else n - 1)

def State.addHolds (s : State) (up : Bool) : State :=
  let n := s.fld pEGR Fd.EGR_FRER_FREE_HOLDS
  s.setFld pEGR Fd.EGR_FRER_FREE_HOLDS (if up then n + 1 else n - 1)

/-- Every held member of a set is discarded, and its holds are freed. -/
def State.dropHolds (s : State) (x : FrSet) : FrSet × State :=
  x.contents.foldl (fun (y : FrSet × State) c =>
    let c' := { c with held := none }
    match c.held with
    | some k => ({ y.1 with contents := y.1.contents ++ [c'] }, (y.2.frDiscard x.fn k).addHolds true)
    | none => ({ y.1 with contents := y.1.contents ++ [c'] }, y.2)) ({ x with contents := [] }, s)

/-- The set's member is delivered: nothing more of the set is. -/
def State.setDeliver (s : State) (x : FrSet) : FrSet × State :=
  let (x, s) := s.dropHolds x
  ({ x with done := true }, s.frPass x.fn)

/-- Hold the member `k` of content number `i`; with no free hold entry it is delivered at once (R315). Answers the packets
delivered. -/
def State.holdMember (s : State) (x : FrSet) (i : Nat) (k : Packet) : List Packet × FrSet × State :=
  if s.fld pEGR Fd.EGR_FRER_FREE_HOLDS = 0 then
    let s := ((s.inc pEGR Cn.EGR_HOLD_FULL).raise pEGR Iq.EGR_HOLD_FULL).errRun pEGR Er.EGR_HOLD_FULL 0 x.fn
    let (x, s) := s.setDeliver x
    ([k], x, s)
  else
    let s := (s.addHolds false).endRun pEGR Er.EGR_HOLD_FULL 0
    ([], { x with contents := modNth (fun (c : FrContent) => { c with held := some k }) x.contents i }, s)

/-- Two members of a set differ (R314): counted, raised, logged, and recorded when the receive tap of either port is on.
DEDUCED, unsafe (notes/assumptions/53.md). -/
def State.frDisagree (s : State) (x : FrSet) (k : Packet) (r : Nat) : State :=
  let s := (s.recCount x.fn En.RECC_DISAGREE 1).inc pEGR Cn.EGR_DISAGREE
  let s := (s.raise pEGR Iq.EGR_DISAGREE).errBy 7 pEGR Er.EGR_DISAGREE x.fn k.info.port
  let tapOn := fun p => p < 32 && s.entF pTRN 0 0 p En.ETAP_RX_MODE ≠ 0
  if tapOn x.first.2.2 || tapOn k.info.port then
    s.tap false 0x22 k.side s.now s.coarseBit (leBytes 2 x.fn ++ [2, 0] ++ leBytes 4 x.seq
      ++ copyBlock x.first.2.1 x.first.2.2 x.first.1 ++ copyBlock r k.info.port k.bytes)
  else s

/-- The held member of a content. -/
def FrSet.heldOf (x : FrSet) (i : Nat) : Option Packet := (nth (⟨0, 0, 0, none⟩ : FrContent) x.contents i).held

/-- Take the held member of content `i` out of its hold. -/
def State.unhold (s : State) (x : FrSet) (i : Nat) : FrSet × State :=
  ({ x with contents := modNth (fun (c : FrContent) => { c with held := none }) x.contents i }, s.addHolds true)

/-- How many members must agree (Table 4). -/
def State.frNeed (s : State) (f : Nat) : Nat := s.recF f En.RECF_PATHS / 2 + 1

/-- A member joins a set (Table 4): the packets delivered now. `opens`: it is the first member.
DEDUCED, unsafe (notes/assumptions/53.md). -/
def State.member (s : State) (x : FrSet) (k : Packet) (r : Nat) (opens : Bool) : List Packet × FrSet × State :=
  let len := k.bytes.length
  let fp := fingerprint k
  let i := (x.contents.findIdx? fun c => c.len = len && c.print = fp).getD x.contents.length
  let new := x.contents.length ≤ i
  let cs : List FrContent := if new then x.contents ++ [⟨len, fp, 1, none⟩]
    else modNth (fun c => { c with count := c.count + 1 }) x.contents i
  let x := { x with contents := cs }
  let differs := new && !opens && !x.differ
  let s := if differs then s.frDisagree x k r else s
  let x := if differs then { x with differ := true } else x
  let drop := fun (x : FrSet) (s : State) => (([] : List Packet), x, s.frDiscard x.fn k)
  if x.done then drop x s
  else if s.recF x.fn En.RECF_PATHS = 2 then
    let dis := s.recF x.fn En.RECF_DIS
    if dis = 0 then
      if opens then
        let (x, s) := s.setDeliver x
        ([k], x, s)
      else drop x s
    else if dis = 1 then
      if k.info.port = s.recF x.fn En.RECF_PRIM_PORT then
        let (x, s) := s.setDeliver x
        ([k], x, s)
      else if opens then s.holdMember x i k
      else drop x s
    else if opens then s.holdMember x i k
    else if new then
      let (x, s) := s.dropHolds x
      drop { x with done := true } s
    else
      match x.heldOf i with
      | some h =>
        let (x, s) := s.unhold x i
        let (x, s) := s.setDeliver x
        let (_, x, s) := drop x s
        ([h], x, s)
      | none => drop x s
  else if s.frNeed x.fn ≤ (nth (⟨0, 0, 0, none⟩ : FrContent) x.contents i).count then
    let (x, s) := s.setDeliver x
    ([k], x, s)
  else if new && (x.contents.filter fun c => c.held.isSome).length < 2 then s.holdMember x i k
  else drop x s

/-- The set's window has ended: what is delivered of it, and the set is closed (R313). -/
def State.setClose (s : State) (x : FrSet) : List Packet × State :=
  let total := (x.contents.map (·.count)).foldl (· + ·) 0
  let pickAt : Option Nat :=
    if x.done then none
    else if s.recF x.fn En.RECF_PATHS = 2 then
      if s.recF x.fn En.RECF_DIS = 1 || total = 1 then x.contents.findIdx? fun c => c.held.isSome else none
    else x.contents.findIdx? fun c => c.held.isSome && total < 2 * c.count
  let s := s.addSets true
  match pickAt with
  | some i =>
    match x.heldOf i with
    | some k =>
      let (x, s) := s.unhold x i
      let (_, s) := s.setDeliver x
      ([k], s)
    | none => ([], (s.dropHolds x).2)
  | none => ([], (s.dropHolds x).2)

/-! ### Recovery (R311, R312) -/

/-- A recovery function resets: history cleared, TAKE_ANY set (R312). -/
def State.frReset (s : State) (f : Nat) : State :=
  let s := ((s.setRecF f En.RECF_HISTORY 0).setRecF f En.RECF_TAKE_ANY 1).recCount f En.RECC_RESETS 1
  s.setFrer { s.frer with lastR := smSet 0 f 0 s.frer.lastR }

/-- The reset deadline of a function, once a packet has been accepted (R312). -/
def State.frDeadline (s : State) (f : Nat) : Option Nat :=
  let l := smGet 0 f s.frer.lastR
  let ms := s.recF f En.RECF_RESET_MS
  if l = 0 || ms = 0 then none else some (l - 1 + ms * 1000000)

/-- What R311 says of a number: accepted, a duplicate, or rogue; with the function's state after it. -/
inductive Recovered where
  | accept | duplicate | rogue
deriving DecidableEq, Repr

/-- The VectorRecoveryAlgorithm on number `q` (R311 steps 2 to 5).
DEDUCED, unsafe (notes/assumptions/53.md). -/
def State.recover (s : State) (f q : Nat) : Recovered × State :=
  let h := s.recF f En.RECF_RECOV_SEQ
  let len := s.recF f En.RECF_HISTORY_LEN
  let hist := s.recF f En.RECF_HISTORY
  let d := (q + 65536 - h) % 65536
  let back := (h + 65536 - q) % 65536
  if s.recF f En.RECF_TAKE_ANY = 1 then
    (.accept, ((s.setRecF f En.RECF_RECOV_SEQ q).setRecF f En.RECF_HISTORY 1).setRecF f En.RECF_TAKE_ANY 0)
  else if 1 ≤ d && d < 32768 then
    let hist' := (hist * 2 ^ min d 64 + 1) % 2 ^ len
    let s := s.recCount f En.RECC_LOST (min (d - 1) (len - 1))
    (.accept, (s.setRecF f En.RECF_RECOV_SEQ q).setRecF f En.RECF_HISTORY hist')
  else if back < len then
    if hist.testBit back then (.duplicate, s)
    else
      let s := s.setRecF f En.RECF_HISTORY (hist + 2 ^ back)
      (.accept, if d ≠ 0 then s.recCount f En.RECC_OUT_OF_ORDER 1 else s)
  else (.rogue, s)

/-- Replace or add an open set. -/
def State.putSet (s : State) (x : FrSet) : State :=
  let l := s.frer.sets
  let has := l.any fun y => y.fn = x.fn && y.seq = x.seq
  s.setFrer { s.frer with sets := if has then l.map fun y => if y.fn = x.fn && y.seq = x.seq then x else y else l ++ [x] }

/-- Remove a set. -/
def State.cutSet (s : State) (x : FrSet) : State :=
  s.setFrer { s.frer with sets := s.frer.sets.filter fun y => !(y.fn = x.fn && y.seq = x.seq) }

/-- Recovery of a packet with function `f` at its recovery point `r`: the packets delivered now (R311, R313, R315). -/
def State.frRecover (s : State) (f : Nat) (k : Packet) (r : Nat) : List Packet × State :=
  match k.seq with
  | none => ([], ((s.recCount f En.RECC_TAGLESS 1).inc pEGR Cn.EGR_TAGLESS).pktDone k)
  | some q =>
    let s := match s.frDeadline f with
      | some d => if d < r then s.frReset f else s
      | none => s
    let (res, s) := s.recover f q
    let open? := s.frer.sets.find? fun x => x.fn = f && x.seq = q && r ≤ x.fin
    match res with
    | .rogue =>
      let s := ((s.recCount f En.RECC_ROGUE 1).inc pEGR Cn.EGR_ROGUE).raise pEGR Iq.EGR_ROGUE
      ([], (s.errRun pEGR Er.EGR_ROGUE f f).pktDone k)
    | .duplicate =>
      match open? with
      | some x =>
        let (l, x, s) := s.member x k r false
        (l, s.putSet x)
      | none => ([], s.frDiscard f k)
    | .accept =>
      let s := (s.setFrer { s.frer with lastR := smSet 0 f (r + 1) s.frer.lastR }).endRun pEGR Er.EGR_ROGUE f
      let w := s.recF f En.RECF_WINDOW_US
      if w = 0 then ([k], s.frPass f)
      else
        match open? with
        | some x =>
          let (l, x, s) := s.member x k r false
          (l, s.putSet x)
        | none =>
          if s.fld pEGR Fd.EGR_FRER_FREE_SETS = 0 || s.frer.sets.any fun x => x.fn = f && x.seq = q then
            let s := if s.fld pEGR Fd.EGR_FRER_FREE_SETS = 0 then
                ((s.inc pEGR Cn.EGR_SET_FULL).raise pEGR Iq.EGR_SET_FULL).errRun pEGR Er.EGR_SET_FULL 0 f
              else s
            ([k], s.frPass f)
          else
            let s := (s.addSets false).endRun pEGR Er.EGR_SET_FULL 0
            let x : FrSet := ⟨f, q, r + w * 1000, [], false, false, (k.bytes, r, k.info.port)⟩
            let (l, x, s) := s.member x k r true
            (l, s.putSet x)

/-- Redundancy processing of a packet at its recovery point (R309): the packets whose copies are enqueued now. `bad` holds
stream entries with an uncorrectable error, which let the packet pass (R316). -/
def State.frProcess (s : State) (k : Packet) (r : Nat) (bad : List Nat) : List Packet × State :=
  let e := s.ent pEGR 4 0 (k.sf.getD 0)
  if k.sf.isNone || bad.contains (k.sf.getD 0) || !(s.enabled pEGR) || !(s.flag pEGR Fd.EGR_CFG_FRER_EN) || fget e En.STRM_VALID = 0 then ([k], s)
  else
    let f := fget e En.STRM_REC
    if fget e En.STRM_REC_EN = 1 && s.recF f En.RECF_VALID = 1 then s.frRecover f k r else ([k], s)

/-- The numbers of generation given to delivered packets, in order. -/
def State.frGenAll (s : State) (bad : List Nat) : List Packet → List Packet × State
  | [] => ([], s)
  | k :: l =>
    let e := s.ent pEGR 4 0 (k.sf.getD 0)
    let on := k.sf.isSome && s.enabled pEGR && s.flag pEGR Fd.EGR_CFG_FRER_EN && fget e En.STRM_VALID = 1
      && !(bad.contains (k.sf.getD 0))
    let (k, s) := if on then s.frGen e k else (k, s)
    let (l, s) := s.frGenAll bad l
    (k :: l, s)

/-- The sets of a function are closed and their held members discarded: a WRITE of its entry resets it (R316). -/
def State.frWritten (s : State) (f : Nat) : State :=
  let l := s.frer.sets.filter fun x => x.fn = f
  let s := l.foldl (fun s x => (((s.dropHolds x).2).addSets true).cutSet x) s
  s.frReset f

/-- Uncorrectable errors of EGR tables (R316): the function of a recovery entry is reset.
DESIGN CHOICE, safe (notes/assumptions/12.md). -/
def State.egrEcc (s : State) (l : List (Nat × Nat)) : State :=
  l.foldl (fun s x =>
    let s := s.eccUncorr pEGR Cn.EGR_ECC_UNCORR Iq.EGR_ECC Er.EGR_ECC
      (Fd.EGR_ECC_LOC_VALID, Fd.EGR_ECC_LOC_TABLE, Fd.EGR_ECC_LOC_INDEX) x.1 x.2
    if x.1 = 6 then s.frWritten x.2 else s) s

/-- SOFT_RESET of EGR: every function reset, every set and hold freed (R316); pending list changes dropped, credits, deficits
and holds cleared (Table 1). -/
def State.egrSoftReset (s : State) : State :=
  let held := s.frer.sets.flatMap fun x => x.contents.filterMap fun c => c.held
  let s := held.foldl (fun s k => s.pktDone k) s
  let s := s.setFrer {}
  let s := (s.setFld pEGR Fd.EGR_FRER_FREE_SETS 1024).setFld pEGR Fd.EGR_FRER_FREE_HOLDS 256
  let s := ((s.tabList pEGR 6 0).map (·.1)).foldl (fun s f =>
    (s.setRecF f En.RECF_HISTORY 0).setRecF f En.RECF_TAKE_ANY 1) s
  foldN 36 (fun p s =>
    let e := s.egr p
    let s := if p < 32 && s.gclSt p = 2 then s.setGclSt p e.before else s
    let s := s.setEgr p { e with credit := [], creditAt := s.frc, deficit := [], hold := false }
    foldN 8 (fun q s => s.setEntF pEGR 1 0 (8 * p + q) En.EQ_CREDIT 0) s) s

end Sys2Proof.Machine
end

