-- ==== Sys2Proof/Machine/Switch.lean ====
section
/-!
DEFINITION. The switch core's admission (R264 to R283): the copies of a packet, push-out, cut-through, mirroring and
sampling, and the meanings of its commands.
-/

namespace Sys2Proof.Machine

/-! ### A copy as it leaves (R237, R310, R213) -/

/-- One edit of a frame: at an offset, bytes removed and bytes put there. -/
structure Edit where
  at_ : Nat
  cut : Nat
  put : List Nat

/-- Apply edits, the highest offset first. -/
def applyEdits (l : List Edit) (bs : List Nat) : List Nat :=
  (l.mergeSort fun a b => b.at_ ≤ a.at_).foldl (fun bs e => bs.take e.at_ ++ e.put ++ bs.drop (e.at_ + e.cut)) bs

/-- The R-TAG edit of a copy for port `p` (R310). -/
def State.rtagEdit (s : State) (p : Nat) (k : Packet) : List Edit :=
  if s.entF pEGR 0 0 p En.EPORT_RTAG_STRIP = 1 then
    match k.rtagAt with
    | some o => [⟨o, 6, []⟩]
    | none => []
  else
    match k.gen with
    | some n =>
      let tag := [0xF1, 0xC1, 0, 0] ++ beBytes 2 n
      match k.rtagAt with
      | some o => [⟨o, 6, tag⟩]
      | none => [⟨k.tagEnd, 0, tag⟩]
    | none => []

/-- The C-tag edit of a copy for port `p` (R237). -/
def ctagEdit (p : Nat) (k : Packet) : List Edit :=
  if k.untag.testBit p then
    match k.ctagAt with
    | some o => [⟨o, 4, []⟩]
    | none => []
  else
    let tag := [0x81, 0x00] ++ beBytes 2 (k.pcp * 2 ^ 13 + k.dei * 2 ^ 12 + k.vid)
    match k.ctagAt, k.stagAt with
    | some o, _ => [⟨o, 4, tag⟩]
    | none, some o => [⟨o + 4, 0, tag⟩]
    | none, none => [⟨12, 0, tag⟩]

/-- The bytes of a packet's copy for port `p`, DA to FCS.
DEDUCED, unsafe (notes/assumptions/49.md). -/
def State.copyBytes (s : State) (p : Nat) (k : Packet) : List Nat :=
  let body := k.bytes.take (k.bytes.length - 4)
  let es := s.rtagEdit p k ++ ctagEdit p k
  match k.dscp with
  | some (ver, o, v) => refcs (applyEdits es (setDscp body ver o v))
  | none => if es.isEmpty then k.bytes else refcs (applyEdits es body)

/-! ### Push-out (R267) -/

/-- The last copy of a queue that is on chip and may be pushed out; mirror and sample copies never are (R280). -/
def Queue.victim (q : Queue) : Option Copy :=
  ((q.h ++ q.t).reverse).find? fun c => c.kind ≠ 2 && c.kind ≠ 3

/-- RANK of a class. -/
def State.rank (s : State) (q : Nat) : Nat := s.fld pSWC (Fd.SWC_CLASS_CFG_RANK.at 8 q)

/-- The candidate queues of classes ranked below `rank`, in search order: lowest rank, most on-chip cells, lowest index. -/
def State.pushQueues (s : State) (rank : Nat) : List Nat :=
  let ks := (s.swc.queues.map (·.1)).filter fun k => k ≠ 288 && s.rank (qclass k) < rank
  let on := fun k => cellSum (s.queue k).h + cellSum (s.queue k).t
  ks.mergeSort fun a b =>
    let ra := s.rank (qclass a)
    let rb := s.rank (qclass b)
    ra < rb || (ra = rb && (on b < on a || (on a = on b && a ≤ b)))

/-- Up to `n` victims, until F reaches `floor`: the victims when it does, with the state that shows it. -/
def State.pushSearch (s : State) (rank floor : Nat) : Nat → List (Nat × Copy) → Option (List (Nat × Copy))
  | 0, _ => none
  | n + 1, acc =>
    match (s.pushQueues rank).findSome? fun k => (s.queue k).victim.map fun c => (k, c) with
    | some (k, c) =>
      let s := s.qRemove k c
      let acc := acc ++ [(k, c)]
      if floor ≤ s.free then some acc else s.pushSearch rank floor n acc
    | none => none

/-- Discard the victims of a push-out.
DEDUCED, unsafe (notes/assumptions/49.md). -/
def State.pushOut (s : State) (l : List (Nat × Copy)) : State :=
  l.foldl (fun s x =>
    let s := (s.creditSync (qport x.1)).qRemove x.1 x.2
    let s := ((s.qCount x.1 En.QST_PUSHED_OUT).inc pSWC Cn.SWC_PUSHED_OUT).raise pSWC Iq.SWC_PUSHOUT
    s.errRun pSWC Er.SWC_PUSHOUT 0 x.1) s

/-! ### Admission (R266) -/

/-- The decision of Table 1 on a copy of `cells` cells and `len` bytes for queue `q` of port `p`: admitted, or discarded and
counted.
DEDUCED, unsafe (notes/assumptions/49.md). -/
def State.admission (s : State) (p q cells len : Nat) : Bool × State :=
  let no := fun (c : Nat) => (false, s.inc pSWC c)
  let floor := s.fld pSWC (Fd.SWC_CLASS_CFG_FLOOR.at 8 q)
  if s.frozen pSWC || !(s.enabled pSWC) then no Cn.SWC_FROZEN_DROP
  else if p < 32 && s.ethSt p = 4 then (false, s.inc (pEPRT p) Cn.EPRT_LINKDOWN_DROP)
  else if p < 32 && (s.ethSt p = 0 || s.ethSt p = 5) then no Cn.SWC_PORT_DROP
  else if p < 32 && s.fld (pEPRT p) Fd.EPRT_CFG_MAX_LEN < len then no Cn.SWC_EGRESS_OVERSIZE
  else if s.fld pSWC Fd.SWC_QENTRY_FREE_FREE = 0 then
    (false, (s.inc pSWC Cn.SWC_QENTRY_DROP).errRun pSWC Er.SWC_QENTRY_FULL 0 (qkey p q))
  else
    let s := s.endRun pSWC Er.SWC_QENTRY_FULL 0
    if s.fld pSWC (Fd.SWC_CLASS_QMAX_QMAX.at 8 q) < (s.queue (qkey p q)).occupancy + cells then (false, s.inc pSWC Cn.SWC_TAIL_DROP)
    else if floor ≤ s.free then (true, s.endRun pSWC Er.SWC_PUSHOUT 0)
    else if s.flag pSWC Fd.SWC_CFG_PUSHOUT_EN && s.flag pSWC (Fd.SWC_CLASS_CFG_PUSHOUT.at 8 q) then
      match s.pushSearch (s.rank q) floor 8 [] with
      | some l => (true, s.pushOut l)
      | none => (false, s.inc pSWC Cn.SWC_FLOOR_DROP)
    else (false, s.inc pSWC Cn.SWC_FLOOR_DROP)

/-- Enqueue a copy of packet `k` in queue `q` of port `p`, if it is admitted. -/
def State.enqueue (s : State) (p q : Nat) (k : Packet) (c : Copy) : Bool × State :=
  let (ok, s) := s.admission p q c.mem c.bytes.length
  if ok then (true, ((s.creditSync p).pktRef k.pkt c.mem).qPut (qkey p q) c) else (false, s)

/-- A copy of a packet without edits. -/
def Packet.plain (k : Packet) (now kind sel : Nat) : Copy :=
  { pkt := some k.pkt, bytes := k.bytes, mem := k.mem, enq := now, info := k.info, kind := kind, sel := sel, origLen := k.bytes.length }

/-! ### Mirroring and sampling (R278 to R280) -/

/-- A copy cut to `trunc` cells for a port; an external port gets a new FCS. -/
def cutCopy (c : Copy) (trunc p : Nat) : Copy :=
  if trunc = 0 || c.bytes.length ≤ 64 * trunc then c
  else
    let bs := if p < 32 then refcs (c.bytes.take (64 * trunc - 4)) else c.bytes.take (64 * trunc)
    { c with bytes := bs, mem := min c.mem trunc }

/-- The copy of mirror session `m`, when it is active. -/
def State.mirrorCopy (s : State) (m : Nat) (k : Packet) : State :=
  if s.flag pSWC (Fd.SWC_MIRROR_EN.at 4 m) then
    let p := s.fld pSWC (Fd.SWC_MIRROR_TARGET.at 4 m)
    let c := cutCopy (k.plain s.now 2 m) (s.fld pSWC (Fd.SWC_MIRROR_TRUNC.at 4 m)) p
    let (ok, s) := s.enqueue p (s.fld pSWC (Fd.SWC_MIRROR_TC.at 4 m)) k c
    if ok then s.inc pSWC Cn.SWC_MIRROR_COPIES else s
  else s

/-- A candidate is offered to sampler `x` (R279). -/
def State.sampleOffer (s : State) (x : Nat) (k : Packet) : State :=
  if !(s.flag pSWC (Fd.SWC_SAMP_CFG_EN.at 8 x)) then s
  else
    let n := s.fld pSWC (Fd.SWC_SAMP_CFG_N.at 8 x)
    let jit := s.flag pSWC (Fd.SWC_SAMP_CFG_JITTER.at 8 x)
    let pos := s.fld pSWC (Fd.SWC_SAMP_POS_COUNT.at 8 x) + 1
    let setPick := fun (v : Nat) (s : State) => { s with swc := { s.swc with picks := smSet 0 x v s.swc.picks } }
    let s := if jit && smGet 0 x s.swc.picks = 0 then setPick (Config.free s.draws % n + 1) s.draw else s
    let hit := if jit then pos = smGet 0 x s.swc.picks else decide (n ≤ pos)
    let s := if n ≤ pos then setPick 0 (s.setFld pSWC (Fd.SWC_SAMP_POS_COUNT.at 8 x) 0)
      else s.setFld pSWC (Fd.SWC_SAMP_POS_COUNT.at 8 x) pos
    if hit then
      let p := s.fld pSWC (Fd.SWC_SAMP_CFG_TARGET.at 8 x)
      let c := cutCopy (k.plain s.now 3 x) (s.fld pSWC (Fd.SWC_SAMP_CFG_TRUNC.at 8 x)) p
      let (ok, s) := s.enqueue p (s.fld pSWC (Fd.SWC_SAMP_CFG_TC.at 8 x)) k c
      if ok then s.inc pSWC Cn.SWC_SAMPLE_COPIES else s
    else s

/-! ### The copies of a packet -/

/-- The forwarded copies of a packet to its destinations, each with the mirror copy its port asks for; `used` holds the
sessions that have had their copy. -/
def State.forward (s : State) (k : Packet) : List Nat → List Nat → State
  | [], _ => s
  | p :: l, used =>
    let c : Copy := { k.plain s.now 0 0 with bytes := s.copyBytes p k }
    let (ok, s) := s.enqueue p k.tc k c
    let m := s.entF pSWC 0 0 p En.SPORT_TX_MIRROR_SEL
    if ok && s.entF pSWC 0 0 p En.SPORT_TX_MIRROR_EN = 1 && !(used.contains m) then
      (s.mirrorCopy m k).forward k l (m :: used)
    else s.forward k l used

/-- The packets that redundancy delivers, one after another. -/
def State.forwardAll (s : State) (used : List Nat) (l : List Packet) : State :=
  l.foldl (fun s k => (s.forward k k.dests used).pktDone k) s

/-- A recirculated packet joins the queue of port 36 (R283). -/
def State.recircPut (s : State) (k : Packet) (bytes : List Nat) : State :=
  let gone := fun (c : Nat) => ((s.inc pSWC c).flightEnd k.side k.info).pktDone k
  if s.frozen pSWC || !(s.enabled pSWC) then gone Cn.SWC_FROZEN_DROP
  else if s.fld pSWC Fd.SWC_QENTRY_FREE_FREE = 0 then (gone Cn.SWC_QENTRY_DROP).errRun pSWC Er.SWC_QENTRY_FULL 0 288
  else if 512 ≤ (s.queue 288).h.length then gone Cn.SWC_RECIRC_DROP
  else
    let c : Copy := { k.plain s.now 0 0 with bytes := bytes }
    let s := s.setQueue 288 { s.queue 288 with h := (s.queue 288).h ++ [c] }
    (s.qentryTake.qCount 288 En.QST_ENQ).inc pSWC Cn.SWC_ENQ

/-- Every copy of a decided packet whose frame has ended: traps, mirrors, samples, then the second pass or redundancy and
the destinations.
DEDUCED, unsafe (notes/assumptions/49.md). -/
def State.copies (s : State) (k : Packet) (bad : List Nat) : State :=
  if k.info.bad then
    let s := if k.recirc.isSome then s.flightEnd k.side k.info else s
    (s.inc pSWC Cn.SWC_FCS_DROP).pktDone k
  else
    let s := k.traps.foldl (fun s x => (s.enqueue x.1 k.tc k (k.plain s.now x.2.1 x.2.2)).2) s
    let s := k.mirrors.foldl (fun s m => s.mirrorCopy m k) s
    let s := k.samples.foldl (fun s x => s.sampleOffer x k) s
    match k.recirc with
    | some bytes => s.recircPut k bytes
    | none =>
      if k.dests.isEmpty then s.pktDone k
      else
        let (l, s) := s.frProcess k (max k.info.fin k.decided) bad
        let (l, s) := s.frGenAll bad l
        s.forwardAll k.mirrors l

/-! ### Cut-through (R269, R293) -/

/-- The queue of a packet that may be forwarded cut-through now. -/
def State.ctGrant (s : State) (k : Packet) : Option (Nat × Nat) :=
  match k.dests with
  | [p] =>
    let i := k.info.port
    let q := k.tc
    let sec := fun x => s.enabled (pMSEC 0) && x < 24
      && (s.entF (pMSEC 0) 3 0 x En.MPORT_TX_EN = 1 || s.entF (pMSEC 0) 3 0 x En.MPORT_RX_EN = 1)
    let strm := s.ent pEGR 4 0 (k.sf.getD 0)
    let frer := k.sf.isSome && fget strm En.STRM_VALID = 1 && (fget strm En.STRM_GEN_EN = 1 || fget strm En.STRM_REC_EN = 1)
    let e := s.egr p
    if i < 32 && p < 32 && s.flag pSWC Fd.SWC_CFG_CT_EN && s.entF pSWC 0 0 i En.SPORT_CT_IN = 1 && s.entF pSWC 0 0 p En.SPORT_CT_OUT = 1
        && !(sec i) && !(sec p) && s.canSend p && s.portMbps p ≤ s.portMbps i
        && k.traps.isEmpty && k.mirrors.isEmpty && k.samples.isEmpty && k.recirc.isNone
        && s.entF pSWC 0 0 p En.SPORT_TX_MIRROR_EN = 0
        && (s.queue (qkey p q)).count = 0 && s.qstate (qkey p q) = 0
        && e.line.isNone && e.susp.isNone && !((List.range 8).any fun q' => q' ≠ q && s.eligible p q')
        && s.gateOpen p q && !(s.preemptable p q && s.holdOn p)
        && s.guardOk p q (s.fld (pEPRT p) Fd.EPRT_CFG_MAX_LEN)
        && (s.tsa p q ≠ 1 || Decidable.decide (0 ≤ smGet 0 q e.credit)) && !frer then some (p, q)
    else none
  | _ => none

/-- A cut-through packet is admitted and goes onto the line at once. -/
def State.cutThrough (s : State) (k : Packet) (p q : Nat) : State :=
  let c : Copy := { k.plain s.now 0 0 with bytes := s.copyBytes p k, ct := true }
  let (ok, s) := s.enqueue p q k c
  let s := s.pktDone k
  if ok then
    let s := (s.qPop (qkey p q)).setEgr p { s.egr p with line := some ⟨q, c, s.now, s.preemptable p q, false⟩, overrun := false }
    (s.inc pSWC Cn.SWC_DEQ).inc pSWC Cn.SWC_CT_FRAMES
  else s

/-- COPY_ENQUEUE: the next packet takes its copies (R264 to R280, R309): of those whose frame has ended, the one with the
earliest recovery point, pipeline A first; else the first one that may be cut through. A packet that fails a condition of
R269 waits for its frame's end. `ecc`: EGR table entries read with an uncorrectable error, by table and index; `corr`:
corrected ones (R316). -/
def execCopyEnqueue (t : Nat) (ecc : List (Nat × Nat)) (corr : Nat) (s : State) : Res :=
  running t s fun s =>
    let s := (s.addCnt pEGR Cn.EGR_ECC_CORR corr).egrEcc ecc
    let bad := ecc.filterMap fun x => if x.1 = 4 then some x.2 else none
    let l := s.swc.decided
    let take := fun (k : Packet) => { s with swc := { s.swc with decided := l.erase k } }
    let ready := (l.filter fun k => k.info.fin ≤ s.now).mergeSort fun a b =>
      let ra := max a.info.fin a.decided
      let rb := max b.info.fin b.decided
      ra < rb || (ra = rb && a.side ≤ b.side)
    match ready with
    | k :: _ => (take k).copies k bad
    | [] =>
      match l.find? fun k => !k.saf with
      | some k =>
        match s.ctGrant k with
        | some (p, q) => (take k).cutThrough k p q
        | none => { s with swc := { s.swc with decided := l.map fun x => if x = k then { k with saf := true } else x } }
      | none => s

/-! ### Spill (R271 to R277) -/

/-- The queue the spill writer serves: in SPILL with a tail, most on-chip cells beyond HEAD_KEEP, lowest index first
(Table 2). -/
def State.spillNext (s : State) : Option Nat :=
  let ks := (s.swc.queues.map (·.1)).filter fun k => s.qstate k = 1 && !((s.queue k).t.isEmpty)
  let on := fun k => cellSum (s.queue k).h + cellSum (s.queue k).t
  (ks.mergeSort fun a b => on b < on a || (on a = on b && a ≤ b)).head?

/-- SPILL_WRITE_DONE: the last DRAM write of the packet at the front of T is acknowledged: it becomes the end of M and gives
back its on-chip references (R273, R277). -/
def execSpillWriteDone (t : Nat) (s : State) : Res :=
  running t s fun s =>
    if s.frozen pSWC then s
    else
      match s.spillNext with
      | none => s
      | some k =>
        match (s.queue k).t with
        | [] => s
        | c :: rest =>
          let q := s.queue k
          let m := q.m ++ [{ c with pkt := none }]
          if s.fld pSWC Fd.SWC_SPILL_BLOCKS_BLOCKS < s.fld pSWC Fd.SWC_SPILL_STAT_USED + (spillBlocks m - spillBlocks q.m) then
            let s := ((s.setFlag pSWC Fd.SWC_SPILL_STAT_NO_SPACE true).raise pSWC Iq.SWC_SPILL_NOSPACE).errRun pSWC
              Er.SWC_SPILL_NOSPACE 0 0
            s.setQstate k 2
          else
            let s := match c.pkt with
              | some id => s.pktUnref id c.mem
              | none => s
            (((s.setQueue k { q with m := m, t := rest }).inc pSWC Cn.SWC_SPILL_OUT).qEvalAll)

/-- The front of M may be refilled (Table 2). -/
def State.mayRefill (s : State) (k : Nat) (c : Copy) : Bool :=
  let q := s.queue k
  let h := cellSum q.h
  c.mem ≤ s.free && (h < s.fld pSWC Fd.SWC_SPILL_HEAD_HEAD_LOW
    || (q.refill && h + c.mem ≤ s.fld pSWC Fd.SWC_SPILL_HEAD_HEAD_KEEP))

/-- REFILL_DONE: the last cell of the packet at the front of M of queue `k` is written on chip: it joins H; or its DRAM read
met an uncorrectable error (`ecc`) and the copy is discarded (R273, R274, R277). -/
def execRefillDone (t k : Nat) (ecc : Bool) (s : State) : Res :=
  running t s fun s =>
    if s.frozen pSWC || 288 ≤ k then s
    else
      match (s.queue k).m with
      | [] => s
      | c :: rest =>
        if !(s.mayRefill k c) then s.setQueue k { s.queue k with refill := false }
        else
          let s := s.creditSync (qport k)
          let q := s.queue k
          let s := if ecc then
              let s := (((s.setQueue k { q with m := rest, refill := true }).qentryGive).qCount k En.QST_DROPS).inc pSWC Cn.SWC_SPILL_ECC
              (s.raise pSWC Iq.SWC_SPILL_ECC).err pSWC Er.SWC_SPILL_ECC k
            else
              let id := s.swc.nextPkt
              let s := s.pktNew c.mem
              (s.setQueue k { q with m := rest, h := q.h ++ [{ c with pkt := some id }], refill := true }).inc pSWC Cn.SWC_SPILL_IN
          let s := if spillBlocks rest < spillBlocks q.m then s.blockFreed else s
          s.qEvalAll

/-- FLUSH_RELEASE_DONE: the cells of flushed queue `k` return to the pool and its spill blocks are freed (R276). -/
def execFlushReleaseDone (t k : Nat) (s : State) : Res := running t s fun s => s.qRelease k

/-- Every copy, cell, queue entry and spill block is freed, counted in FLUSHED_INT; every queue is LOCAL (R286). -/
def State.swcEmpty (s : State) : State :=
  let n := (s.swc.queues.map fun x => x.2.count).foldl (· + ·) 0
    + s.swc.decided.length + (s.swc.front.map fun x => x.2.length).foldl (· + ·) 0
  let ks := s.swc.queues.map (·.1)
  let s := s.swc.decided.foldl (fun s k => if k.recirc.isSome then s.flightEnd k.side k.info else s) s
  let s := (s.queue 288).h.foldl (fun s c => s.flightEnd (if portOfSide 0 c.info.port then 0 else 1) c.info) s
  let s := ks.foldl (fun s k => (s.setQueue k {}).setQstate k 0) s
  let s := s.setFrer { s.frer with sets := [] }
  let s := (s.setFld pEGR Fd.EGR_FRER_FREE_SETS 1024).setFld pEGR Fd.EGR_FRER_FREE_HOLDS 256
  let s := { s with swc := { nextPkt := s.swc.nextPkt, turns := s.swc.turns } }
  let s := foldN 36 (fun p s => s.setEgr p { s.egr p with line := none, susp := none }) s
  let s := (s.setFld pSWC Fd.SWC_FREE_FREE 98304).setFld pSWC Fd.SWC_QENTRY_FREE_FREE 131072
  let s := ((s.setFld pSWC Fd.SWC_SPILL_STAT_USED 0).setFlag pSWC Fd.SWC_SPILL_STAT_NO_SPACE false).setFlag pSWC
    Fd.SWC_SPILL_STAT_ACTIVE false
  s.addCnt pSWC Cn.SWC_FLUSHED_INT n

/-- SOFT_RESET of the switch core (R286): everything is freed and the sampler counts restart. -/
def State.swcSoftReset (s : State) : State :=
  foldN 4 (fun x s => s.setFld pSWC (Fd.SWC_SAMP_POS_COUNT.at 8 x) 0) s.swcEmpty

end Sys2Proof.Machine
end

