-- ==== Sys2Proof/Machine/Egress.lean ====
section
/-!
DEFINITION. The meanings of egress selection, gate control lists and the timers of redundant streams (R289 to R316).
-/

namespace Sys2Proof.Machine

/-! ### Selection (R290, R291) -/

/-- A queue with TSA 2 that is empty sets its deficit to 0 (R292). -/
def State.zeroDeficits (s : State) (p : Nat) : State :=
  let e := s.egr p
  let ds := (List.range 8).foldl (fun m q => if (s.queue (qkey p q)).count = 0 then smSet 0 q 0 m else m) e.deficit
  s.setEgr p { e with deficit := ds }

/-- A copy of queue `q` goes onto the line of an external port, protected where MACsec applies (R409); one that cannot be
protected is discarded. -/
def State.lineStart (s : State) (p q : Nat) (c : Copy) (err : Bool) (secEcc : List (Nat × Nat)) : State :=
  let (out, s) := s.protect p c.bytes secEcc
  match out with
  | some bytes =>
    s.setEgr p { s.egr p with line := some ⟨q, { c with bytes := bytes }, s.now, s.preemptable p q, err⟩, overrun := false }
  | none => s.copyFree c

/-- Port 34 hands a copy to the router (R282). -/
def State.tunnelPut (s : State) (c : Copy) : State :=
  let s := s.setSrt { s.srt with pduIn := s.srt.pduIn ++ [(c.info.stamp, c.bytes)] }
  (s.hostMark c.info fun w => { w with inside := true }).copyFree c

/-- The head copy of queue `q` is sent. `ecc`: an uncorrectable error in the memory that holds it, 0 cell data, 1 link,
2 descriptor, and its location (R285). -/
def State.send (s : State) (p q : Nat) (ecc : Option (Nat × Nat)) (secEcc : List (Nat × Nat)) : State :=
  let k := qkey p q
  match (s.queue k).h with
  | [] => s
  | c :: _ =>
    let s := match ecc with
      | some (mem, loc) => s.eccUncorr pSWC Cn.SWC_ECC_UNCORR Iq.SWC_ECC Er.SWC_ECC
          (Fd.SWC_ECC_LOC_VALID, Fd.SWC_ECC_LOC_MEM, Fd.SWC_ECC_LOC_INDEX) mem loc
      | none => s
    let mem := match ecc with
      | some x => x.1
      | none => 0
    if mem ≠ 0 then (s.addCnt pSWC Cn.SWC_FLUSHED_INT (s.queue k).count).qFlush k
    else
      let s := ((s.qPop k).inc pSWC Cn.SWC_DEQ).zeroDeficits p
      if p < 32 then s.lineStart p q c ecc.isSome secEcc
      else if p = 34 then s.tunnelPut c
      else s.setEgr p { s.egr p with line := some ⟨q, c, s.now, false, ecc.isSome⟩ }

/-- Choose among the queues of one class and send (R291, R292). -/
def State.sendPick (s : State) (p : Nat) (pre : Bool) (ecc : Option (Nat × Nat)) (secEcc : List (Nat × Nat)) : State :=
  match s.pick p pre with
  | (some q, e) => (s.setEgr p e).send p q ecc secEcc
  | (none, _) => s

/-- The preemptable frame on the line is preempted: it waits for its turn to be resumed (R291, R299). -/
def State.preempt (s : State) (p : Nat) (x : OnLine) : State := s.setEgr p { s.egr p with line := none, susp := some x }

/-- A suspended frame goes on, when its gate is open and no hold is in force (R291, R299). -/
def State.resume (s : State) (p : Nat) (x : OnLine) : State :=
  if s.gateOpen p x.q && !(s.holdOn p) then
    (s.setEgr p { s.egr p with line := some x, susp := none }).inc (pEPRT p) Cn.EPRT_MM_FRAG_TX
  else s

/-- TRANSMISSION_SELECTION: port `p` has a transmission opportunity, or a point at which a preemptable frame may be preempted
(R289 to R293, R299, R301).
DEDUCED, unsafe (notes/assumptions/51.md). -/
def execTransmissionSelection (t p : Nat) (ecc : Option (Nat × Nat)) (corr : Nat) (secEcc : List (Nat × Nat)) (s : State) : Res :=
  running t s fun s =>
    if 36 ≤ p || !(s.canSend p) then s
    else
      let s := ((s.addCnt pSWC Cn.SWC_ECC_CORR corr).creditSync p).zeroDeficits p
      let s := (s.headChecks p).zeroDeficits p
      let express := (s.pick p false).1.isSome
      match (s.egr p).line with
      | some x =>
        if !x.pre then s
        else if express then (s.preempt p x).sendPick p false ecc secEcc
        else if !(s.gateOpen p x.q) || s.holdOn p then s.preempt p x
        else s
      | none =>
        if express then s.sendPick p false ecc secEcc
        else
          match (s.egr p).susp with
          | some x => s.resume p x
          | none => s.sendPick p true ecc secEcc

/-! ### Gate control lists (R296 to R307) -/

/-- GATE_EVENT: the view of a running list has reached the next entry of port `p` (R297). `ecc`: the entry read has an
uncorrectable error, at this index; the port enters ERROR (Table 1).
DEDUCED, unsafe (notes/assumptions/52.md). -/
def execGateEvent (t p : Nat) (ecc : Option Nat) (s : State) : Res :=
  running t s fun s =>
    if 32 ≤ p || !(s.gclRuns p) then s
    else
      match ecc with
      | some i =>
        let s := ((s.creditSync p).egrEcc [(2, i)]).setGclSt p 3
        (s.setEgr p { s.egr p with hold := false }).gateChanged p
      | none =>
        let φ := s.gclPhase p 0 (s.viewNow (s.glpF p 0 En.GLP_VIEW))
        match gateAt (s.segsOf p 0) φ with
        | some g => if g.e = s.glpF p 0 En.GLP_ENTRY then s else s.gclJoin p
        | none => s

/-- An entry with OP 1 of a list starts within `adv` ns after phase `φ`. -/
def holdsSoon (l : List GateSeg) (cyc φ adv : Nat) : Bool :=
  l.any fun g => fget g.ent En.GLE_OP = 1 && (g.lo + cyc - φ) % cyc ≤ adv && g.lo ≠ φ

/-- At S the pending list joins an entry with OP 1. -/
def State.joinsHold (s : State) (p : Nat) : Bool :=
  let e := s.egr p
  let f := s.viewReach e.changeView e.changeAt
  let φ := s.gclPhase p 1 (((s.viewAt (s.glpF p 1 En.GLP_VIEW) f).getD 0) / 65536)
  s.glpF p 1 En.GLP_LEN ≠ 0 && (match gateAt (s.segsOf p 1) φ with
    | some g => fget g.ent En.GLE_OP = 1
    | none => false)

/-- MAC_HOLD_ASSERT: HOLD_ADV before an entry with OP 1, or before S when it joins one, the hold is asserted (R302). -/
def execMacHoldAssert (t p : Nat) (s : State) : Res :=
  running t s fun s =>
    if 12 ≤ p || !(s.pmActive p) then s
    else
      let adv := s.entF pEGR 0 0 p En.EPORT_HOLD_ADV
      let cyc := s.glpF p 0 En.GLP_CYCLE
      let soon := s.gclRuns p && holdsSoon (s.segsOf p 0) cyc (s.gclPhase p 0 (s.viewNow (s.glpF p 0 En.GLP_VIEW))) adv
      let e := s.egr p
      let atS := s.gclSt p = 2 && e.changeAt ≤ s.viewNow e.changeView + adv && s.joinsHold p
      if soon || atS then (s.setEgr p { e with hold := true }).gateChanged p else s

/-- The change of a list that COMMIT requests is refused (R303). -/
def State.gclBad (s : State) (p : Nat) : Bool :=
  let len := s.glpF p 1 En.GLP_LEN
  let cyc := s.glpF p 1 En.GLP_CYCLE
  s.gclSt p = 2 || 256 < len
    || (len ≠ 0 && (cyc < 1000 || 1000000000 < cyc || !(s.viewOn (s.glpF p 1 En.GLP_VIEW))))

/-- The change point of a COMMIT accepted now: a view and a value of it (R304). -/
def State.changePoint (s : State) (p : Nat) : Nat × Nat :=
  let v := s.glpF p 1 En.GLP_VIEW
  let v := if s.viewOn v then v else 0
  let CT := max (s.glpF p 1 En.GLP_BASE) (s.viewNow v)
  if s.gclSt p = 1 then
    let w := s.glpF p 0 En.GLP_VIEW
    let T := (s.viewAt w (max s.frc (s.viewReach v CT))).getD 0
    let unit : Int := s.glpF p 0 En.GLP_CYCLE * 65536
    let n := -(Int.fdiv (((s.glpF p 0 En.GLP_BASE * 65536 : Nat) : Int) - T) unit)
    (w, ((s.glpF p 0 En.GLP_BASE : Int) + n * s.glpF p 0 En.GLP_CYCLE).toNat)
  else (v, CT)

/-- An accepted write of EGR_GCL_CMD (R303, R306). -/
def State.gclCmdWrite (s : State) (d v : Nat) : State :=
  let a := pEGR * 4096 + Reg.EGR_GCL_CMD
  let p := v % 32
  let op := v / 256 % 4
  if !(v.testBit 31) then s
  else if op = 1 then
    if s.gclBad p then s.refuse d a v Er.REG_BAD_VALUE
    else
      let (w, S) := s.changePoint p
      let e := s.egr p
      (s.setEgr p { e with before := s.gclSt p, changeAt := S, changeView := w }).setGclSt p 2
  else if op = 2 then
    if s.gclSt p ≠ 2 then s.refuse d a v Er.REG_BAD_VALUE
    else
      let e := s.egr p
      (s.setEgr p { e with hold := e.hold && e.before = 1 }).setGclSt p e.before
  else s.refuse d a v Er.REG_BAD_VALUE

/-- A write of EGR_GCL_CMD by domain `d`.
DEDUCED, unsafe (notes/assumptions/52.md). -/
def State.gclCmd (s : State) (d v : Nat) : State :=
  s.judged d (pEGR * 4096 + Reg.EGR_GCL_CMD) 32 v fun s => s.gclCmdWrite d v

/-- GCL_COMMIT: domain `d` commits the administrative list of port `p` (R303, R304). -/
def execGclCommit (t d p : Nat) (s : State) : Res := live t s fun s => s.gclCmd d (2 ^ 31 + 256 + p % 32)

/-- GCL_CANCEL: domain `d` cancels the pending change of port `p` (R306). -/
def execGclCancel (t d p : Nat) (s : State) : Res := live t s fun s => s.gclCmd d (2 ^ 31 + 512 + p % 32)

/-- The banks of port `p`'s list exchange roles (R305).
DEDUCED, unsafe (notes/assumptions/52.md). -/
def State.gclSwap (s : State) (p : Nat) : State :=
  let own := fun (b : Nat) => (s.tabList pEGR 2 b).filter fun x => 256 * p ≤ x.1 && x.1 < 256 * p + 256
  let l0 := own 0
  let l1 := own 1
  let clear := fun (b : Nat) (l : List (Nat × Entry)) (s : State) => l.foldl (fun s x => s.setEnt pEGR 2 b x.1 0) s
  let fill := fun (b : Nat) (l : List (Nat × Entry)) (s : State) => l.foldl (fun s x => s.setEnt pEGR 2 b x.1 x.2) s
  let g0 := s.ent pEGR 3 0 p
  let g1 := s.ent pEGR 3 1 p
  let s := fill 1 l0 (fill 0 l1 (clear 1 l1 (clear 0 l0 s)))
  let old := fput (fput (fput g0 En.GLP_STATE 0) En.GLP_ENTRY 0) En.GLP_CHANGE_STAMP 0
  (s.setEnt pEGR 3 0 p g1).setEnt pEGR 3 1 p old

/-- GCL_CHANGED: the change point S of port `p` is reached (R305). -/
def execGclChanged (t p : Nat) (s : State) : Res :=
  running t s fun s =>
    let e := s.egr p
    if 32 ≤ p || s.gclSt p ≠ 2 || s.viewNow e.changeView < e.changeAt then s
    else
      let s := (s.creditSync p).gclSwap p
      let s := s.setEntF pEGR 3 0 p En.GLP_CHANGE_STAMP s.now
      let s := if s.glpF p 0 En.GLP_LEN = 0 then (s.setEgr p { s.egr p with hold := false }).setGclSt p 0
        else (s.setGclSt p 1).gclJoin p
      ((s.raise pEGR Iq.EGR_GCL_CHANGED).inc pEGR Cn.EGR_GCL_CHANGES).gateChanged p

/-! ### Redundant streams (R312, R313) -/

/-- FRER_WINDOW_END: the open set whose window ended first, at least 4 µs ago, is decided (R313). -/
def execFrerWindowEnd (t : Nat) (s : State) : Res :=
  running t s fun s =>
    match (s.frer.sets.filter fun x => x.fin + 4000 ≤ s.now).mergeSort fun a b => a.fin ≤ b.fin with
    | x :: _ =>
      let (l, s) := (s.cutSet x).setClose x
      let (l, s) := s.frGenAll [] l
      l.foldl (fun s k => s.forwardAll k.mirrors [k]) s
    | [] => s

/-- FRER_RESET: no packet has been accepted by function `f` up to 4 µs after its deadline (R312). -/
def execFrerReset (t f : Nat) (s : State) : Res :=
  running t s fun s =>
    match s.frDeadline f with
    | some x => if 512 ≤ f || s.now < x + 4000 then s else s.frReset f
    | none => s

end Sys2Proof.Machine
end

