-- ==== Sys2Proof/Machine/Nm.lean ====
section
/-!
DEFINITION. The commands of the keep-alive engine: cluster control, its timers, commit, wakes and offenders
(R347 to R369).
-/

namespace Sys2Proof.Machine

/-- An event of the engine while it runs and is not frozen (R370). -/
def nmEvent (t c : Nat) (s : State) (f : State → State) : Res :=
  running t s fun s => if s.nmUp && !(s.frozen pNM) && c < 8 then f s else s

/-- The segments of the cluster lie in another enabled cluster (R347). -/
def State.clConflict (s : State) (c can seg : Nat) : Bool :=
  (List.range 8).any fun k => k ≠ c && s.clF k Fd.NM_CL_CFG_ENABLE = 1
    && ((s.clF k Fd.NM_CL_CAN_CH &&& can) ≠ 0 || (s.rd pNM (Reg.NM_CL_SEG + 0x40 * k) &&& seg) ≠ 0)

/-- A cluster starts: REASON START, its ports under engine control, all segments woken (Table 2). -/
def State.clStart (s : State) (c : Nat) : State :=
  let s := (s.clTc c).foldl (fun s p => s.setFlag (pEPRT p) Fd.EPRT_TC10_NM_CTL true) s
  let s := s.setCl c {}
  ((s.latchWake c ⟨0, 0, s.now⟩).fullWake c).toRepeat c false true

/-- A cluster stops: holds and NM_CTL released, segments left as they stand (Table 2). -/
def State.clStop (s : State) (c : Nat) : State :=
  let s := (s.clCan c).foldl (fun s n => s.canRelease n) s
  let s := (s.clTc c).foldl (fun s p => s.setFlag (pEPRT p) Fd.EPRT_TC10_NM_CTL false) s
  (s.setCl c {}).clEnter c 0 s.now

/-- A write of NM_CL_CFG. -/
def State.clCfgWrite (s : State) (d c v : Nat) : State :=
  let a := pNM * 4096 + Reg.NM_CL_CFG + 0x40 * c
  let was := s.clF c Fd.NM_CL_CFG_ENABLE = 1
  let on := v.testBit 0
  if on && !was && s.clConflict c (s.clF c Fd.NM_CL_CAN_CH) (s.rd pNM (Reg.NM_CL_SEG + 0x40 * c)) then s.refuse d a v Er.REG_BAD_VALUE
  else
    let s := s.store a v
    if !(s.enabled pNM) then s else if on && !was then s.clStart c else if !on && was then s.clStop c else s

/-- NM_CLUSTER_ENABLE: a write of NM_CL_CFG (Table 2, R347). -/
def execNmClusterEnable (t d c v : Nat) (s : State) : Res :=
  live t s fun s =>
    if c < 8 then s.judged d (pNM * 4096 + Reg.NM_CL_CFG + 0x40 * c) 32 v fun s => s.clCfgWrite d c v else s

/-- A write of NM_CL_REQ: AWAKE stored and acted on, then RMR. -/
def State.clReqWrite (s : State) (d c v : Nat) : State :=
  let s := s.setClF c Fd.NM_CL_REQ_AWAKE (v % 2)
  if !(s.nmUp) then s else s.clReqAct d c v s.now

/-- AWAKE: a write of NM_CL_REQ.AWAKE (Table 2). -/
def execAwake (t d c v : Nat) (s : State) : Res :=
  live t s fun s =>
    if c < 8 then s.judged d (pNM * 4096 + Reg.NM_CL_REQ + 0x40 * c) 32 v fun s => s.clReqWrite d c (v % 2) else s

/-- RMR: a write of NM_CL_REQ with RMR = 1; the word carries AWAKE as well (Table 2). -/
def execRmr (t d c v : Nat) (s : State) : Res :=
  live t s fun s =>
    if c < 8 then s.judged d (pNM * 4096 + Reg.NM_CL_REQ + 0x40 * c) 32 v fun s => s.clReqWrite d c (v % 2 + 2) else s

/-- The payload of the engine's NM frame (Table 1). -/
def State.nmPayload (s : State) (c : Nat) : List Nat :=
  let pn := s.clF c Fd.NM_CL_CFG_PN_EN
  [s.clF c Fd.NM_CL_CFG_NODE_ID, b2n (s.cl c).rmr + 2 * b2n (s.cl c).aw + 4 * pn]
    ++ leBytes 6 (s.clF c Fd.NM_CL_TXPN_LO_PN + 2 ^ 32 * s.clF c Fd.NM_CL_TXPN_HI_PN)

/-- Queue the NM frame in buffer 2 of a channel, or skip it (R349, R351, R352). -/
def State.nmQueue (s : State) (c n : Nat) : State :=
  let st := s.txbState n 2
  if (s.can n).nmBuf ≠ 2 || st = 1 || st = 2 || s.canMode n = 15 then s.inc pNM Cn.NM_TX_SKIP
  else
    let ide := s.clF c Fd.NM_CL_ID_IDE
    let id := s.clF c Fd.NM_CL_ID_BASE + s.clF c Fd.NM_CL_CFG_NODE_ID
    let h : Entry := fput (fput (fput (fput (fput (0 : Entry) En.TXH_VALID 1) En.TXH_FORMAT ide) En.TXH_IDE ide) En.TXH_LENGTH 8) En.TXH_ID id
    let s := (s.setEnt (pCANC n) 2 0 2 h).setEnt (pCANC n) 3 0 128 (bytesToEntry (s.nmPayload c))
    (s.txbPend n 2).setCan n { (s.txbPend n 2).can n with nmCl := c }

/-- NM_FRAME_SEND: the frame due is queued on every member channel with NM_TX = 1 (R351). -/
def execNmFrameSend (t c : Nat) (s : State) : Res :=
  nmEvent t c s fun s =>
    let x := s.cl c
    if (s.clSt c = 3 || s.clSt c = 4) && s.clF c Fd.NM_CL_CFG_PASSIVE = 0 && x.due ≤ s.now then
      let s := ((s.clCan c).filter fun n => s.entF pNM 0 0 n En.NMCH_NM_TX = 1).foldl (fun s n => s.nmQueue c n) s
      s.setCl c { s.cl c with due := x.due + s.clF c Fd.NM_CL_TIME1_NM_CYCLE_MS * 1000000 }
    else s

/-- REPEAT_MESSAGE_END: REPEAT_MS after entry (Table 2). -/
def execRepeatMessageEnd (t c : Nat) (s : State) : Res :=
  nmEvent t c s fun s =>
    let stamp := (s.cl c).entered + s.clF c Fd.NM_CL_TIME2_REPEAT_MS * 1000000
    if s.clSt c = 3 && stamp ≤ s.now then
      if s.clF c Fd.NM_CL_REQ_AWAKE = 1 then
        let s := s.clEnter c 4 stamp
        s.setCl c { s.cl c with due := stamp, rmr := false, aw := false }
      else s.toReadySleep c stamp
    else s

/-- NM_TIMEOUT: 4 µs after D (R354). -/
def execNmTimeout (t c : Nat) (s : State) : Res :=
  nmEvent t c s fun s =>
    let D := s.nmDeadline c
    if D + 4000 ≤ s.now then
      if s.clSt c = 5 then
        let s := s.clEnter c 6 D
        (s.setCl c { s.cl c with k := D + s.clF c Fd.NM_CL_TIME2_WBS_MS * 1000000, latched := none }).nmRelease c
      else if s.clSt c = 3 || s.clSt c = 4 then
        let s := s.setCl c { s.cl c with l := D }
        let tx := (s.clCan c).any fun n => s.entF pNM 0 0 n En.NMCH_NM_TX = 1
        let s := if tx then (s.inc pNM Cn.NM_TX_TIMEOUT).errAt pNM Er.NM_TX_TIMEOUT c 0 D else s
        s.nmRelease c
      else s
    else s

/-- SLEEP_COMMIT: at K + 50 µs (R357). -/
def execSleepCommit (t c : Nat) (s : State) : Res :=
  nmEvent t c s fun s =>
    if s.clSt c = 6 && (s.cl c).k + 50000 ≤ s.now then (s.sleepSegs c).clEnter c 7 s.now else s

/-- Every segment is asleep, or has refused (Table 3, R358). -/
def State.segsAsleep (s : State) (c : Nat) : Bool :=
  ((s.clTc c).all fun p => s.tcSt p ≠ 1) && ((s.clLin c).all fun n => !((s.lin n).gts || (s.lin n).gtsNow))

/-- COMMIT_COMPLETE: BUS_SLEEP, and a full wake at once when one is latched (R356, R358). -/
def execCommitComplete (t c : Nat) (s : State) : Res :=
  nmEvent t c s fun s =>
    if s.clSt c = 7 && s.segsAsleep c then
      let s := (s.inc pNM Cn.NM_SLEEPS).raise pNM (Iq.NM_SLEEP + c)
      let s := s.clEnter c 1 s.now
      match (s.cl c).latched with
      | some (w, late) =>
        let s := s.setCl c { s.cl c with latched := none }
        let s := (s.setClF c Fd.NM_CL_STATE_AFTER_COMMIT 1).setClF c Fd.NM_CL_STATE_LATE (b2n late)
        s.wakeFull c w
      | none => s
    else s

/-- NM_FALSE_WAKE: 4 µs after the false-wake deadline the segments re-arm (R365). -/
def execNmFalseWake (t c : Nat) (s : State) : Res :=
  nmEvent t c s fun s =>
    let D := s.fwDeadline c
    if s.clSt c = 2 && D + 4000 ≤ s.now then
      let s := (s.sleepSegs c).clEnter c 1 s.now
      (((s.inc pNM Cn.NM_FALSE_WAKES).raise pNM Iq.NM_FALSE_WAKE).errAt pNM Er.NM_FALSE_WAKE c 0 D).nmRelease c
    else s

/-- NM_OFFENDER: the report of an episode (R369). -/
def execNmOffender (t c : Nat) (s : State) : Res :=
  nmEvent t c s fun s =>
    let x := s.cl c
    let sec := s.clF c Fd.NM_CL_TIME3_OFF_REPORT_S
    let R := x.episode + sec * 1000000000
    if sec ≠ 0 && !x.reported && (s.clSt c = 5 || s.clSt c = 6) && R ≤ s.now then
      let idx := (s.clCan c).flatMap fun n => (List.range 16).map fun k => 16 * n + k
      let bad := idx.filter fun i => s.entF pNM 1 0 i En.OFFE_VALID = 1 && R ≤ s.entF pNM 1 0 i En.OFFE_LAST + s.nmTimeoutNs c
      let s := s.setCl c { x with reported := true }
      let s := bad.foldl (fun s i => (s.setEntF pNM 1 0 i En.OFFE_REPORTED 1).errAt pNM Er.NM_OFFENDER (i / 16) 0 R) s
      if bad.isEmpty then s else s.raise pNM Iq.NM_OFFENDER
    else s

/-! ### Wake sources of the line die -/

/-- WAKE_IN_EDGE: an input's level has been stable for FILT ticks after an edge (R366). -/
def execWakeInEdge (t n : Nat) (rising : Bool) (stamp ticks : Nat) (s : State) : Res :=
  always t s fun s =>
    let f := fun (x : Fld) => s.fld pNM (x.at 4 n)
    let edge := f Fd.NM_WAKEIN_EDGE
    let hit := edge = 2 || decide (edge = 0) = rising
    if 8 ≤ n || ticks < f Fd.NM_WAKEIN_FILT then s
    else
      let s := s.setFlag pNM (Fd.NM_WAKEIN_LEVEL.at 4 n) rising
      if f Fd.NM_WAKEIN_EN = 0 || !hit then s
      else
        let w : Wake := ⟨2, n, stamp⟩
        let mask := f Fd.NM_WAKEIN_CL_MASK
        let s := if f Fd.NM_WAKEIN_WAKE = 1 && s.nmUp then
            ((List.range 8).filter fun c => mask.testBit c).foldl (fun s c => s.nmWake c w) s
          else s
        let low := s.pwr = .comma || s.pwr = .period || s.pwr = .pfHold || s.boot ≠ .ready
        let s := if f Fd.NM_WAKEIN_QUOTE = 1 then
            if low then
              if s.trn.held.any fun h => h.1 = n then s else s.setTrn { s.trn with held := s.trn.held ++ [(n, stamp)] }
            else s.quote 2 stamp n
          else s
        if f Fd.NM_WAKEIN_WAKE = 1 || f Fd.NM_WAKEIN_QUOTE = 1 then s.deviceWake w else s

/-- The line-die transceiver of a channel is in standby with wake detection of at least the wake-up pattern. -/
def State.canArmed (s : State) (n mode : Nat) : Bool := n < 16 && smGet 0 n s.ldie.standby = mode

/-- CAN_WUP: the wake-up pattern, with the strobe (in Period the tick) of its end; only SLEEP_MODE 0 arms it (R362). -/
def execCanWup (t n stamp : Nat) (s : State) : Res :=
  always t s fun s => if s.canArmed n 1 then s.segWake (s.clOfCan n) ⟨3, n, s.wakeStamp stamp⟩ else s

/-- CAN_WUF: a Classical frame that the selective-wake decoder reads, with the strobe of its CRC delimiter's end; it wakes
when it matches the channel's filter (R362). -/
def execCanWuf (t n : Nat) (f : CanFrame) (stamp : Nat) (s : State) : Res :=
  always t s fun s =>
    if s.canArmed n 2 && f.fmt ≤ 1 && s.wufMatch n f then s.segWake (s.clOfCan n) ⟨4, n, s.wakeStamp stamp⟩ else s

/-- CAN_ERRCNT: the frame error counter of the selective-wake decoder reaches a count; above 31 it wakes (R362). -/
def execCanErrcnt (t n count stamp : Nat) (s : State) : Res :=
  always t s fun s => if s.canArmed n 2 && 31 < count then s.segWake (s.clOfCan n) ⟨5, n, s.wakeStamp stamp⟩ else s

/-- The stamp at which COUNT bursts of at least BURST_US have fallen within WINDOW_MS of the first of them (R367). -/
def burstWake (count us ms : Nat) : List (Nat × Nat) → Option Nat
  | [] => none
  | b :: l =>
    let run := ((b :: l).filter fun x => x.1 + us * 1000 ≤ x.2).take count
    match run.head?, run.getLast? with
    | some f, some e => if run.length = count && e.2 ≤ f.1 + ms * 1000000 then some e.2 else burstWake count us ms l
    | _, _ => none

/-- T1S_ACT: bursts of activity, each from a start to an end stamp, on a 10BASE-T1S segment whose detector is armed
(R367). -/
def execT1sAct (t p : Nat) (bursts : List (Nat × Nat)) (s : State) : Res :=
  always t s fun s =>
    if s.ldie.t1sArmed.contains p then
      match burstWake (s.fld pNM Fd.NM_T1S_ACT_COUNT) (s.fld pNM Fd.NM_T1S_ACT_BURST_US) (s.fld pNM Fd.NM_T1S_ACT_WINDOW_MS) bursts with
      | some e => s.segWake (s.clOfPort p) ⟨10, p, s.wakeStamp e⟩
      | none => s
    else s

/-! ### Stops of the block -/

/-- CTRL.ENABLE 0 to 1: clusters whose ENABLE is set start. -/
def State.nmEnable (s : State) : State :=
  foldN 8 (fun c s => if s.clF c Fd.NM_CL_CFG_ENABLE = 1 then s.clStart c else s) s

/-- CTRL.ENABLE = 0: the clusters stop.
DEDUCED, unsafe (notes/assumptions/64.md). -/
def State.nmDisable (s : State) : State := foldN 8 (fun c s => if s.clOn c then s.clStop c else s) s

/-- SOFT_RESET: holds released, offender tables cleared, OFF (Table 2). -/
def State.nmSoftReset (s : State) : State := foldN 384 (fun i s => s.setEnt pNM 1 0 i 0) s.nmDisable

end Sys2Proof.Machine
end

