-- ==== Sys2Proof/Machine/Eth.lean ====
section
/-!
DEFINITION. The meanings of the Ethernet ports' commands (R176 to R199): frames, link changes, holds and age checks,
auto-negotiation, preemption, PLCA, and TC10 sleep and wake.
-/

namespace Sys2Proof.Machine

/-! ### Configuration -/

/-- The speed codes a lane mode carries (Table 2). -/
def modeCarries (mode speed : Nat) : Bool :=
  if mode = 1 then speed ≤ 2 else if mode = 2 then speed = 3 else if mode = 3 then speed = 4 else if mode = 4 then speed = 5
  else mode = 5 && speed ≤ 5

/-- In-band auto-negotiation is in use (R179). -/
def State.anOn (s : State) (p : Nat) : Bool :=
  p < 12 && s.flag (pEPRT p) Fd.EPRT_PCS_AN_EN && (s.fld (pEPRT p) Fd.EPRT_PCS_MODE = 1 || s.fld (pEPRT p) Fd.EPRT_PCS_MODE = 5)

/-- The speed code of a port that runs, without negotiation (R179, Table 1). -/
def State.fixedSpeed (s : State) (p : Nat) : Nat :=
  let mode := s.fld (pEPRT p) Fd.EPRT_PCS_MODE
  if 24 ≤ p then 0 else if 12 ≤ p then 1
  else if mode = 2 then 3 else if mode = 3 then 4 else if mode = 4 then 5 else s.fld (pEPRT p) Fd.EPRT_PCS_SPEED

/-- The port loops its own frames back (R198). -/
def State.looped (s : State) (p : Nat) : Bool :=
  s.fld (pEPRT p) Fd.EPRT_CFG_LOOP = 1 || s.fld (pEPRT p) Fd.EPRT_CFG_LOOP = 2

/-- The link reports of port `p` can be up: its lane has a mode, negotiated where that is on, and no test mode runs (R178 to
R180). -/
def State.linkable (s : State) (p : Nat) : Bool :=
  if p < 12 then s.fld (pEPRT p) Fd.EPRT_PCS_MODE ≠ 0 && (!(s.anOn p) || s.flag (pEPRT p) Fd.EPRT_STATE_AN_DONE)
  else p < 24 && s.fld (pEPRT p) Fd.EPRT_T1_TEST_MODE = 0

/-- Verification restarts, or preemption is in use without it, or not at all (R187). -/
def State.pmacRestart (s : State) (p : Nat) : State :=
  let en := p < 12 && s.flag (pEPRT p) Fd.EPRT_PMAC_PREEMPT_EN
  let skip := s.flag (pEPRT p) Fd.EPRT_PMAC_VERIFY_DIS
  let s := (s.creditSync p).setFlag (pEPRT p) Fd.EPRT_PMAC_STAT_ACTIVE (en && skip)
  s.setFld (pEPRT p) Fd.EPRT_PMAC_STAT_VERIFY (if en && !skip then 2 else 0)

/-- An accepted write of EPRT_PMAC has been stored; `old` is PREEMPT_EN, VERIFY_DIS before it (R187). -/
def State.pmacWritten (s : State) (p : Nat) (old : Bool × Bool) : State :=
  let en := s.flag (pEPRT p) Fd.EPRT_PMAC_PREEMPT_EN
  let skip := s.flag (pEPRT p) Fd.EPRT_PMAC_VERIFY_DIS
  if (en, skip) = old then s else s.pmacRestart p

/-! ### Enable, disable, freeze (Table 5) -/

/-- The port enters UP: its rate and duplex are those in use. -/
def State.portUp (s : State) (p : Nat) : State :=
  let s := (s.creditSync p).setEthSt p 2
  let s := if s.anOn p && s.flag (pEPRT p) Fd.EPRT_STATE_AN_DONE then s
    else s.setFld (pEPRT p) Fd.EPRT_STATE_SPEED (s.fixedSpeed p)
  (s.setFlag (pEPRT p) Fd.EPRT_STATE_FULL (p < 24)).pmacRestart p

/-- The raw link is gone: speed, duplex, negotiation, quality and preemption with it. -/
def State.linkGone (s : State) (p : Nat) : State :=
  let s := (s.creditSync p).setFlag (pEPRT p) Fd.EPRT_STATE_LINK false
  let s := (s.setFld (pEPRT p) Fd.EPRT_STATE_SPEED 7).setFlag (pEPRT p) Fd.EPRT_STATE_FULL false
  let s := (s.setFlag (pEPRT p) Fd.EPRT_STATE_AN_DONE false).setFld (pEPRT p) Fd.EPRT_STATE_SQI 0
  (s.setFlag (pEPRT p) Fd.EPRT_PMAC_STAT_ACTIVE false).setFld (pEPRT p) Fd.EPRT_PMAC_STAT_VERIFY 0

/-- CTRL.ENABLE goes to 1. -/
def State.ethEnable (s : State) (p : Nat) : State := if 24 ≤ p || s.looped p then s.portUp p else s.setEthSt p 1

/-- CTRL.ENABLE goes to 0, or SOFT_RESET (R189, R196, R251). -/
def State.ethDisable (s : State) (p : Nat) : State :=
  let s := (((s.txAbort p).portFlush p).linkGone p).setEthSt p 0
  let s := (s.setFlag (pEPRT p) Fd.EPRT_PLCA_CTRL_STATUS false).setTcSt p 0
  (s.setEth p { s.eth p with flushed := false }).fdbPortGone p

/-- CTRL.FREEZE changes: FROZEN follows, and age checks count from the freeze stamp (R197, Table 5). -/
def State.ethFreeze (s : State) (p : Nat) (on : Bool) : State :=
  let s := (s.creditSync p).setFlag (pEPRT p) Fd.EPRT_STATE_FROZEN on
  if on && s.ethSt p ≠ 3 then s.setEth p { s.eth p with checkFrom := s.now } else s

/-! ### Reception -/

/-- Count a frame by its destination address, in the counters from `ucast` on: individual, group, broadcast. -/
def State.countCast (s : State) (p ucast : Nat) (bytes : List Nat) : State :=
  if bytes.take 6 = [255, 255, 255, 255, 255, 255] then s.inc (pEPRT p) (ucast + 16)
  else if (nth 0 bytes 0).testBit 0 then s.inc (pEPRT p) (ucast + 8) else s.inc (pEPRT p) ucast

/-- A frame that the MAC accepts goes to the pipeline of its port, if the switch core takes it (R262, R263, R286, R409). -/
def State.toSwitch (s : State) (p : Nat) (f : EthRx) (bad : Bool) (secEcc : List (Nat × Nat)) : State :=
  let at_ := f.start - s.fld (pEPRT p) Fd.EPRT_RX_LAT_LAT * 256
  let (out, s) := if bad || 24 ≤ p then (some f.bytes, s) else s.validate p f.bytes secEcc
  let bytes := out.getD f.bytes
  let m : Meta := { port := p, stamp := at_ / 65536 % 2 ^ 64, frac := at_ % 65536, fin := f.fin, bad := bad, raw := if bytes = f.bytes then [] else f.bytes }
  if out.isNone then s.rxTap f.bytes m 0
  else if s.frozen pSWC || !(s.enabled pSWC) then (s.inc pSWC Cn.SWC_FROZEN_DROP).rxTap bytes m 0
  else if s.free < cellsOf bytes.length then
    ((s.inc pSWC Cn.SWC_BUF_FULL).errRun pSWC Er.SWC_BUF_FULL 0 p).rxTap bytes m 0
  else (s.endRun pSWC Er.SWC_BUF_FULL 0).frontPut (if portOfSide 0 p then 0 else 1) bytes m

/-- The length checks of the MAC, and what becomes of the frame (R177).
DEDUCED, unsafe (notes/assumptions/46.md). -/
def State.macCheck (s : State) (p : Nat) (f : EthRx) (secEcc : List (Nat × Nat)) : State :=
  let n := f.bytes.length
  let bad := f.err || fcsOf (f.bytes.take (n - 4)) ≠ f.bytes.drop (n - 4)
  if n < 64 then s.inc (pEPRT p) (if bad then Cn.EPRT_RX_FRAGMENTS else Cn.EPRT_RX_UNDERSIZE)
  else if s.fld (pEPRT p) Fd.EPRT_CFG_MAX_LEN < n then s.inc (pEPRT p) Cn.EPRT_RX_OVERSIZE
  else if !bad && beNat ((f.bytes.drop 12).take 2) = 0x8808 then s.inc (pEPRT p) Cn.EPRT_RX_MACCTL
  else
    let s := if bad then s.inc (pEPRT p) Cn.EPRT_RX_FCS_ERR else s
    s.toSwitch p f bad secEcc

/-- A frame reaches the receive path of port `p`: from the line, or looped back inside the port (R177, R188, R198).
DEDUCED, unsafe (notes/assumptions/46.md). -/
def State.rxFrame (s : State) (p : Nat) (f : EthRx) (secEcc : List (Nat × Nat)) : State :=
  let q := pEPRT p
  if f.mm = 2 then s.inc q Cn.EPRT_MM_ASSY_ERR
  else if f.mm = 3 then s.inc q Cn.EPRT_MM_SMD_ERR
  else
    let s := if f.mm = 1 then (s.inc q Cn.EPRT_MM_ASSY_OK).addCnt q Cn.EPRT_MM_FRAG_RX f.frags else s
    let s := ((s.addCnt q Cn.EPRT_RX_OCTETS f.bytes.length).inc q Cn.EPRT_RX_FRAMES).countCast p Cn.EPRT_RX_UCAST f.bytes
    if !(s.flag q Fd.EPRT_CFG_RX_EN) || s.frozen q then s.inc q Cn.EPRT_RX_DISCARD
    else s.macCheck p f secEcc

/-- ETH_FRAME_RECEIVED: port `p` receives `f` from the line. `secEcc`: MSEC entries of its validation read with an
uncorrectable error (R413).
DESIGN CHOICE, safe (notes/assumptions/15.md). -/
def execEthFrameReceived (t p : Nat) (f : EthRx) (secEcc : List (Nat × Nat)) (s : State) : Res :=
  running t s fun s =>
    if 32 ≤ p || !(s.enabled (pEPRT p)) || s.ethSt p ≠ 2 || s.looped p then s
    else if f.mm ≠ 0 && !(p < 12 && s.flag (pEPRT p) Fd.EPRT_PMAC_PREEMPT_EN) then s
    else if s.fld (pEPRT p) Fd.EPRT_CFG_LOOP = 3 then s.emit (.sent "eth" (p :: f.bytes))
    else s.rxFrame p f secEcc

/-! ### Transmission -/

/-- The FCS of a frame inverted (R270, R285). -/
def stomped (bytes : List Nat) : List Nat :=
  bytes.take (bytes.length - 4) ++ (bytes.drop (bytes.length - 4)).map fun b => 255 - b % 256

/-- A cut-through frame that ended badly on ingress (R270). -/
def State.ctBad (s : State) (p : Nat) (c : Copy) : Bool :=
  c.ct && (c.info.bad || s.fld (pEPRT p) Fd.EPRT_CFG_MAX_LEN < c.bytes.length)

/-- A frame of copy `x` has left the MAC of port `p`, its first bit at FRC value `start` (R185). -/
def State.txFrame (s : State) (p : Nat) (x : OnLine) (start : Nat) : State :=
  let q := pEPRT p
  let c := x.copy
  let out := start + s.fld q Fd.EPRT_TX_LAT_LAT * 256
  let stamp := out / 65536 % 2 ^ 64
  let ct := s.ctBad p c
  let bytes := if ct || x.err then stomped c.bytes else c.bytes
  let s := if ct then ((s.inc pSWC Cn.SWC_CT_STOMP).raise pSWC Iq.SWC_CT_STOMP).errRun pSWC Er.SWC_CT_STOMP 0 p
    else if c.ct then s.endRun pSWC Er.SWC_CT_STOMP 0 else s
  let s := ((s.addCnt q Cn.EPRT_TX_OCTETS bytes.length).inc q Cn.EPRT_TX_FRAMES).countCast p Cn.EPRT_TX_UCAST bytes
  let s := s.ethTap p true (s.entF pTRN 0 0 p En.ETAP_TX_MODE) stamp bytes (ct || x.err)
  let s := s.hostMark c.info fun w => { w with sent := w.sent ++ [(p, stamp, out % 65536)] }
  let s := s.copyFree c
  if s.looped p then s.rxFrame p { bytes := bytes, start := start, fin := s.now } []
  else s.emit (.sent "eth" (p :: stamp :: bytes))

/-- ETH_FRAME_TRANSMITTED: the frame on the line of port `p` has ended; its first bit left the MAC's interface at FRC value
`start`. On ports 24 to 31 it met `coll` collisions, `late` of them late; after 16 attempts it is dropped (R182).
DEDUCED, unsafe (notes/assumptions/46.md). -/
def execEthFrameTransmitted (t p start coll late : Nat) (s : State) : Res :=
  running t s fun s =>
    match (s.egr p).line with
    | none => s
    | some x =>
      if 32 ≤ p then s
      else
        let s := s.creditSync p
        let s := if (s.egr p).overrun then s else s.endRun pEGR Er.EGR_OVERRUN p
        let s := s.setEgr p { s.egr p with line := none, overrun := false }
        let half := 24 ≤ p
        let s := if half then (s.addCnt (pEPRT p) Cn.EPRT_COLLISIONS coll).addCnt (pEPRT p) Cn.EPRT_LATE_COLL late else s
        if half && 16 ≤ coll then (s.inc (pEPRT p) Cn.EPRT_EXCESS_COLL).copyFree x.copy
        else s.txFrame p x start

/-! ### Link changes (R192 to R195) -/

/-- ETH_LINK_DOWN: port `p` reports loss of link with down stamp `stamp` (R192, R193). -/
def execEthLinkDown (t p stamp : Nat) (s : State) : Res :=
  running t s fun s =>
    let q := pEPRT p
    if 24 ≤ p || !(s.flag q Fd.EPRT_STATE_LINK) then s
    else
      let s := (((s.wr64 q Reg.EPRT_DOWN_STAMP_LO stamp).inc q Cn.EPRT_LINK_DOWNS).raise q Iq.EPRT_LINK_DOWN).errAt q
        Er.ETH_LINK_DOWN p 0 stamp
      let s := (s.txAbort p).linkGone p
      if s.ethSt p = 2 then
        let X := stamp + s.fld q Fd.EPRT_HOLD_HOLD_MS * 1000000
        (s.setEthSt p 3).setEth p { s.eth p with flushed := false, checkFrom := stamp, holdX := X }
      else s

/-- LINK_UP: port `p` reports link up with up stamp `stamp` (R193, R195, Table 5). A link-up stamped after X that comes
before the flush waits for it.
DEDUCED, unsafe (notes/assumptions/47.md). -/
def execLinkUp (t p stamp : Nat) (s : State) : Res :=
  running t s fun s =>
    let q := pEPRT p
    let st := s.ethSt p
    if 24 ≤ p || st = 0 || st = 2 || s.flag q Fd.EPRT_STATE_LINK || !(s.linkable p) || s.tcSt p = 2 then s
    else
      let s := (s.setFlag q Fd.EPRT_STATE_LINK true).wr64 q Reg.EPRT_UP_STAMP_LO stamp
      let s := if s.tcSt p = 3 then s.setTcSt p 0 else s
      let X := (s.eth p).holdX
      if st = 3 then if stamp ≤ X then s.portUp p else s
      else if st = 4 && stamp ≤ X then
        ((s.portUp p).raise q Iq.EPRT_LATE_LINKUP).errAt q Er.ETH_LATE_LINKUP p 0 stamp
      else if st = 5 then s.portUp p
      else (s.portUp p).raise q Iq.EPRT_LINK_UP

/-- ETH_HOLD_FLUSH: no link-up stamped at or before X has reached the port by X + 4 µs (R194).
DEDUCED, unsafe (notes/assumptions/47.md). -/
def execEthHoldFlush (t p : Nat) (s : State) : Res :=
  running t s fun s =>
    let q := pEPRT p
    let X := (s.eth p).holdX
    if 24 ≤ p || s.ethSt p ≠ 3 || s.now < X + 4000 then s
    else
      let s := ((s.creditSync p).portFlush p).setEthSt p 4
      let s := (s.setEth p { s.eth p with flushed := true }).fdbPortGone p
      let s := (s.raise q Iq.EPRT_HOLD_FLUSH).errAt q Er.ETH_HOLD_FLUSH p 0 X
      if s.flag q Fd.EPRT_STATE_LINK then (s.portUp p).raise q Iq.EPRT_LINK_UP else s

/-! ### Age checks (R197) -/

/-- The head frame of a queue, wherever it waits. -/
def Queue.head? (q : Queue) : Option Copy := (q.h ++ q.m ++ q.t).head?

/-- The head frame of queue `k` leaves it and its cells are freed, spilled cells included. -/
def State.dropFirst (s : State) (k : Nat) : State :=
  let q := s.queue k
  match q.h, q.m, q.t with
  | c :: l, _, _ => ((s.setQueue k { q with h := l }).copyFree c).qEval k
  | [], _ :: l, _ => (((s.setQueue k { q with m := l }).qentryGive).blockFreed).qEval k
  | [], [], c :: l => ((s.setQueue k { q with t := l }).copyFree c).qEval k
  | [], [], [] => s

/-- Aged head frames of a queue are discarded at check stamp `c`, up to `n` of them. -/
def State.ageHeads (s : State) (p q c : Nat) : Nat → State
  | 0 => s
  | n + 1 =>
    match (s.queue (qkey p q)).head? with
    | some x =>
      if s.aged p q c x.info.stamp then
        let s := (s.creditSync p).dropFirst (qkey p q)
        let s := (s.inc (pEPRT p) Cn.EPRT_AGED).raise (pEPRT p) Iq.EPRT_AGED
        (s.errRunAt (pEPRT p) Er.ETH_AGED q q 0 c).ageHeads p q c n
      else s.endRun (pEPRT p) Er.ETH_AGED q
    | none => s

/-- AGE_CHECK: the next check stamp of a port in HOLD or FROZEN has come.
DEDUCED, unsafe (notes/assumptions/47.md). -/
def execAgeCheck (t p : Nat) (s : State) : Res :=
  running t s fun s =>
    let c := (s.eth p).checkFrom
    if 32 ≤ p || !(s.ethSt p = 3 || s.flag (pEPRT p) Fd.EPRT_STATE_FROZEN) || s.now < c then s
    else
      let s := s.setEth p { s.eth p with checkFrom := c + 100000 }
      foldN 8 (fun q s => s.ageHeads p q c (s.queue (qkey p q)).count) s

/-! ### Negotiation, quality, PLCA, verification -/

/-- AN_CODE_WORD: an in-band code word reports speed code `speed` and full duplex or not (R179). -/
def execAnCodeWord (t p speed : Nat) (full : Bool) (s : State) : Res :=
  running t s fun s =>
    let q := pEPRT p
    if !(s.anOn p) || s.ethSt p = 0 || s.looped p then s
    else if full && modeCarries (s.fld q Fd.EPRT_PCS_MODE) speed then
      let s := (s.creditSync p).setFld q Fd.EPRT_STATE_SPEED speed
      ((s.setFlag q Fd.EPRT_STATE_FULL true).setFlag q Fd.EPRT_STATE_AN_DONE true).raise q Iq.EPRT_AN_DONE
    else if s.flag q Fd.EPRT_STATE_LINK then s
    else ((s.setFlag q Fd.EPRT_STATE_AN_DONE false).raise q Iq.EPRT_AN_DONE).err q Er.ETH_AN_FAIL p

/-- SQI_REFRESH: every 1 ms a linked 100BASE-T1 port refreshes its signal quality (R180). -/
def execSqiRefresh (t p sqi : Nat) (s : State) : Res :=
  running t s fun s =>
    if 12 ≤ p && p < 24 && s.flag (pEPRT p) Fd.EPRT_STATE_LINK then s.setFld (pEPRT p) Fd.EPRT_STATE_SQI (min sqi 7) else s

/-- PLCA_STATUS_CHANGE: the PLCA status of port `p` becomes `ok` (R183). -/
def execPlcaStatusChange (t p : Nat) (ok : Bool) (s : State) : Res :=
  running t s fun s =>
    let q := pEPRT p
    let was := s.flag q Fd.EPRT_PLCA_CTRL_STATUS
    if p < 24 || 32 ≤ p || !(s.flag q Fd.EPRT_PLCA_CTRL_EN) || s.ethSt p ≠ 2 || was = ok then s
    else
      let s := s.setFlag q Fd.EPRT_PLCA_CTRL_STATUS ok
      if ok then s else ((s.inc q Cn.EPRT_PLCA_FAIL).raise q Iq.EPRT_PLCA_LOST).err q Er.ETH_PLCA_STATUS p

/-- MM_VERIFY: the verify exchange in progress on port `p` succeeds or fails (R187).
DEDUCED, unsafe (notes/assumptions/47.md). -/
def execMmVerify (t p : Nat) (ok : Bool) (s : State) : Res :=
  running t s fun s =>
    let q := pEPRT p
    if 12 ≤ p || s.fld q Fd.EPRT_PMAC_STAT_VERIFY ≠ 2 then s
    else if ok then ((s.creditSync p).setFld q Fd.EPRT_PMAC_STAT_VERIFY 3).setFlag q Fd.EPRT_PMAC_STAT_ACTIVE true
    else ((s.setFld q Fd.EPRT_PMAC_STAT_VERIFY 4).raise q Iq.EPRT_VERIFY).err q Er.ETH_VERIFY_FAIL p

/-! ### TC10 (R189, R190) -/

/-- An accepted write of EPRT_TC10 by domain `d` on a port that has TC10. -/
def State.tc10Write (s : State) (d p v : Nat) : State :=
  let a := pEPRT p * 4096 + Reg.EPRT_TC10
  if p < 12 || 24 ≤ p then s
  else if s.flag (pEPRT p) Fd.EPRT_TC10_NM_CTL && v % 4 ≠ 0 then s.refuse d a v Er.REG_BAD_VALUE
  else
    let s := s.setFlag (pEPRT p) Fd.EPRT_TC10_ACCEPT_REMOTE (v.testBit 2)
    let s := if v.testBit 0 then s.tcSleepReq p else s
    if v.testBit 1 then s.tcWakeReq p else s

/-- A write of EPRT_TC10 by domain `d` that leaves ACCEPT_REMOTE as it is. -/
def State.tc10Req (s : State) (d p bit : Nat) : State :=
  let v := 4 * s.fld (pEPRT p) Fd.EPRT_TC10_ACCEPT_REMOTE + bit
  if 32 ≤ p then s else s.judged d (pEPRT p * 4096 + Reg.EPRT_TC10) 32 v fun s => s.tc10Write d p v

/-- SLEEP_REQ: domain `d` writes EPRT_TC10.SLEEP_REQ (R189, R190). -/
def execSleepReq (t d p : Nat) (s : State) : Res := live t s fun s => s.tc10Req d p 1

/-- WAKE_REQ: domain `d` writes EPRT_TC10.WAKE_REQ. -/
def execWakeReq (t d p : Nat) (s : State) : Res := live t s fun s => s.tc10Req d p 2

/-- TC10_SLEEP_RECEIVED: the partner's low-power sleep request arrives (Table 4). -/
def execTc10SleepReceived (t p : Nat) (s : State) : Res :=
  running t s fun s =>
    if p < 12 || 24 ≤ p || !(s.flag (pEPRT p) Fd.EPRT_STATE_LINK) then s
    else if s.tcSt p = 1 then
      if s.now ≤ (s.eth p).tcAt + 64000000 then ((s.creditSync p).tcSleep p).raise (pEPRT p) Iq.EPRT_TC10_SLEEP else s
    else if s.flag (pEPRT p) Fd.EPRT_TC10_ACCEPT_REMOTE then
      ((s.emit (.sent "tc10 sleep request" [p])).creditSync p).tcSleep p
    else s.inc (pEPRT p) Cn.EPRT_TC10_NACK

/-- TC10_NACK: 64 ms in SLEEP_PENDING without a reply (Table 4, R358). -/
def execTc10Nack (t p : Nat) (s : State) : Res :=
  running t s fun s =>
    if p < 12 || 24 ≤ p || s.tcSt p ≠ 1 || s.now < (s.eth p).tcAt + 64000000 then s
    else
      let s := (((s.setTcSt p 0).inc (pEPRT p) Cn.EPRT_TC10_NACK)).err (pEPRT p) Er.ETH_TC10_NACK p
      let cs := (s.clOfPort p).filter fun c => s.clSt c = 7
      (cs.foldl (fun s c => ((s.setClF c Fd.NM_CL_STATE_SEG_AWAKE 1).raise pNM Iq.NM_SEG_AWAKE).err pNM Er.NM_SEG_AWAKE c) s).nmStatus

/-- TC10_WAKE: a wake-up pulse or a wake-up request on the live link is detected, stamped `stamp` (Table 4, R191, R361). -/
def execTc10Wake (t p stamp : Nat) (s : State) : Res :=
  always t s fun s =>
    let on := s.boot = .ready && s.pwr ≠ .period && s.pwr ≠ .pfHold && s.enabled (pEPRT p)
    if p < 12 || 24 ≤ p || !on then s
    else if s.tcSt p = 0 && s.flag (pEPRT p) Fd.EPRT_STATE_LINK then
      (s.raise (pEPRT p) Iq.EPRT_TC10_WAKE).segWake (s.clOfPort p) ⟨9, p, stamp⟩
    else if s.tcSt p = 2 then
      let s := (s.setTcSt p 3).setEth p { s.eth p with tcAt := s.now }
      (s.raise (pEPRT p) Iq.EPRT_TC10_WAKE).segWake (s.clOfPort p) ⟨9, p, stamp⟩
    else s

/-- TC10_WAKING_TIMEOUT: 200 ms in WAKING without link (Table 4). -/
def execTc10WakingTimeout (t p : Nat) (s : State) : Res :=
  running t s fun s =>
    if p < 12 || 24 ≤ p || s.tcSt p ≠ 3 || s.now < (s.eth p).tcAt + 200000000 then s
    else (s.setTcSt p 2).err (pEPRT p) Er.ETH_LINK_DOWN p

end Sys2Proof.Machine
end

