-- ==== Sys2Proof/Machine/Ser.lean ====
section
/-!
DEFINITION. The commands of the serial lines (R125 to R136): modes, framing, reception, the two transmit sources.
-/

namespace Sys2Proof.Machine

def State.ser (s : State) (k : Nat) : Ser := smGet {} k s.sers

def State.setSer (s : State) (k : Nat) (x : Ser) : State := { s with sers := smSet {} k x s.sers }

/-- SER_MODE.CUR: 0 STOP, 1 RUN, 2 LISTEN, 11 FROZEN, 15 OFF. -/
def State.serMode (s : State) (k : Nat) : Nat := s.fld (pSER k) Fd.SER_MODE_CUR

def State.setSerMode (s : State) (k m : Nat) : State := s.setFld (pSER k) Fd.SER_MODE_CUR m

/-- A command of line `k`'s engine; at Comma entry a frame in progress completes (R133). -/
def serRun (t k : Nat) (s : State) (f : State → State) : Res :=
  always t s fun s =>
    if k < 4 && (s.runs? || (s.winds && ((s.ser k).rx.isSome || (s.ser k).tx.isSome))) then f s else s

/-- 9-bit characters. -/
def State.ser9 (s : State) (k : Nat) : Bool := s.fld (pSER k) Fd.SER_CFG_DATA = 2

/-- Bits of a character with start, parity and stop bits. -/
def State.serCharBits (s : State) (k : Nat) : Nat :=
  let p := pSER k
  1 + (7 + s.fld p Fd.SER_CFG_DATA) + b2n (s.fld p Fd.SER_CFG_PARITY ≠ 0) + 1 + s.fld p Fd.SER_CFG_STOP2

/-- A bit in sixteenths of an mtq. -/
def State.serBit16 (s : State) (k : Nat) : Nat := s.fld (pSER k) Fd.SER_BAUD_DIV * 16 + s.fld (pSER k) Fd.SER_BAUD_FRAC

/-- Half a character time in ns. -/
def State.serHalfChar (s : State) (k : Nat) : Nat := s.serCharBits k * s.serBit16 k * 25 / 64

/-! ### Modes (Table 3, R131) -/

/-- No frame is in progress: FREEZE, and a change of REQ, take effect. -/
def State.serSettle (s : State) (k : Nat) : State :=
  let m := s.serMode k
  let x := s.ser k
  if x.rx.isSome || x.tx.isSome || !(m = 1 || m = 2) then s
  else if s.frozen (pSER k) then
    ((s.setSer k { x with frozenFrom := m }).setSerMode k 11).setFlag (pSER k) Fd.STATUS_FROZEN true
  else s.setSerMode k (s.fld (pSER k) Fd.SER_MODE_REQ)

/-- FREEZE = 0: the previous mode. -/
def State.serThaw (s : State) (k : Nat) : State :=
  let s := s.setFlag (pSER k) Fd.STATUS_FROZEN false
  if s.serMode k = 11 then (s.setSerMode k (s.ser k).frozenFrom).serSettle k else s

/-- ENABLE = 0 or SOFT_RESET: OFF, TXD recessive and DE released at once.
DEDUCED, unsafe (notes/assumptions/32.md). -/
def State.serOff (s : State) (k : Nat) : State :=
  let p := pSER k
  let s := ((s.setSer k {}).setFld p Fd.SER_RTQ_STAT_LEVEL 0).setFld p Fd.SER_TXB_STATE 0
  (s.setFlag p Fd.STATUS_FROZEN false).setSerMode k 15

/-- ENABLE = 1: STOP. -/
def State.serOn (s : State) (k : Nat) : State := if s.serMode k = 15 then s.setSerMode k 0 else s

/-- The bit rate lies within 300 bit/s to 5 Mbit/s (R125). -/
def State.serBaudOk (s : State) (k : Nat) : Bool := 256 ≤ s.serBit16 k && s.serBit16 k * 300 ≤ 1280000000

/-- A write of SER_MODE (R131, R133). -/
def State.serModeWrite (s : State) (d k v : Nat) : State :=
  let p := pSER k
  let req := v % 16
  if 2 < req then s.refuse d (p * 4096 + Reg.SER_MODE) v Er.REG_BAD_VALUE
  else if s.serMode k = 0 && req ≠ 0 then
    if s.serBaudOk k then (s.setFld p Fd.SER_MODE_REQ req).setSerMode k req else s.errBy d p Er.SER_BAUD k v
  else (s.setFld p Fd.SER_MODE_REQ req).serSettle k

/-- SER_MODE_REQ (R133). -/
def execSerModeReq (t d k v : Nat) (s : State) : Res :=
  live t s fun s => if k < 4 then s.judged d (pSER k * 4096 + Reg.SER_MODE) 32 v fun s => s.serModeWrite d k v else s

/-! ### Reception (R126, R127, R132) -/

/-- Data words of an item: 4 bytes each, or 2 characters each in 9-bit mode. -/
def serWords (w9 : Bool) (cs : List Nat) : List Nat :=
  if w9 then packWords (cs.flatMap fun c => [c % 256, c / 256 % 2]) else packWords cs

/-- The first word of an item, without WORDS, SEGNO, SEG and LAST (Table 2). -/
def serWord0 (trunc err : Bool) (len : Nat) : Nat := b2n trunc * 2 ^ 26 + b2n err * 2 ^ 25 + len

/-- Queue the segments of a frame from number `i` on; once one is dropped the rest are dropped (R132). -/
def State.serSegs (s : State) (k : Nat) (w0 : Nat) (stamps : List Nat) (w9 : Bool) (many : Bool) : Nat → Nat → List Nat → State
  | 0, _, _ => s
  | left + 1, i, cs =>
    let n := if w9 then 96 else 192
    let ws := serWords w9 (cs.take n)
    let it := (w0 + b2n many * 2 ^ 28 + b2n (left = 0) * 2 ^ 27 + (5 + ws.length) * 2 ^ 17 + i * 2 ^ 13) :: (stamps ++ ws)
    let drops := ((s.wq (32 + k)).room it.length).isNone
    let s := s.wqPut (32 + k) it
    if drops then s else s.serSegs k w0 stamps w9 many left (i + 1) (cs.drop n)

/-- A received frame is delivered (R126, R127). -/
def State.serDeliver (s : State) (k : Nat) (x : SerRx) (trunc : Bool) : State :=
  let p := pSER k
  let w9 := s.ser9 k
  let len := x.chars.length
  let s := s.inc p Cn.SER_RX_FRAMES
  let s := if trunc then ((s.inc p Cn.SER_TRUNC).raise p Iq.SER_TRUNC).err p Er.SER_TRUNC k else s
  let s := if s.flag p Fd.SER_CFG_TO_ROUTER && !trunc && !x.err then
      s.srtPut { kind := 2, ch := k, stamp := x.last, f := { len := len, data := x.chars }, w9 := w9 }
    else s
  let w0 := serWord0 trunc x.err len
  let s := if (s.fld pTRN Fd.TRN_TAP_MISC_SER).testBit k then
      s.tap false 0x13 k x.last s.coarseBit (leBytes 4 (w0 + 2 ^ 27) ++ leBytes 4 (x.last - x.start)
        ++ (if w9 then x.chars.flatMap (fun c => [c % 256, c / 256 % 2]) else x.chars))
    else s
  let n := if w9 then 96 else 192
  let segs := (len + n - 1) / n
  s.serSegs k w0 [x.start % 2 ^ 32, x.start / 2 ^ 32, x.last % 2 ^ 32, x.last / 2 ^ 32] w9 (1 < segs) segs 0 x.chars

/-- The frame in reception ends. -/
def State.serEnd (s : State) (k : Nat) (x : SerRx) : State :=
  let s := s.setSer k { s.ser k with rx := none }
  (if x.cut then s else s.serDeliver k x false).serSettle k

/-- LENGTH framing: the frame's length once its length field has come (R126).
DEDUCED, unsafe (notes/assumptions/32.md). -/
def State.serTarget (s : State) (k : Nat) (cs : List Nat) : Option Nat :=
  let p := pSER k
  let ofs := s.fld p Fd.SER_LENFMT_OFS
  let w := if s.flag p Fd.SER_LENFMT_W16 then 2 else 1
  if cs.length < ofs + w then none
  else
    let v := beNat ((cs.drop ofs).take w)
    some (max (ofs + w) ((v : Int) + sgn 8 (s.fld p Fd.SER_LENFMT_ADJ)).toNat)

/-- One character of a received frame (R126).
DEDUCED, unsafe (notes/assumptions/32.md). -/
def State.serChar (s : State) (k : Nat) (c : SerChar) : State :=
  let p := pSER k
  let mode := s.fld p Fd.SER_CFG_FRAMING
  let s := s.setSer k { s.ser k with lastEnd := some c.fin }
  let s := if c.parityErr then ((s.inc p Cn.SER_PARITY).raise p Iq.SER_PARITY).err p Er.SER_PARITY k else s
  let s := if c.framingErr then ((s.inc p Cn.SER_FRAMING).raise p Iq.SER_FRAMING).err p Er.SER_FRAMING k else s
  let x := s.ser k
  let starts := mode ≠ 2 || !(s.flag p Fd.SER_DELIM_START_EN) || c.data % 256 = s.fld p Fd.SER_DELIM_START
  match x.rx, starts with
  | none, false => s
  | rx, _ =>
    let fresh := rx.isNone
    let r := rx.getD ⟨c.start, c.fin, [], false, false, 0, false⟩
    let max' := s.fld p Fd.SER_FRAME_MAXLEN
    let err := r.err || c.parityErr || c.framingErr
    let escNow := mode = 2 && s.flag p Fd.SER_DELIM_ESC_EN && !r.esc && c.data % 256 = s.fld p Fd.SER_DELIM_ESC
    let r' : SerRx := { r with err := err, esc := escNow, n := r.n + 1 }
    -- a frame longer than MAXLEN is cut at MAXLEN and delivered with TRUNC = 1
    let (s, r') := if r.cut then (s, r')
      else if max' < r.n + 1 then (s.serDeliver k r true, { r' with cut := true })
      else (s, { r' with chars := r.chars ++ [c.data], last := c.fin })
    let ends := if mode = 1 then (match s.serTarget k r'.chars with
        | some L => L ≤ r'.n
        | none => false)
      else mode = 2 && !r.esc && !escNow && !(fresh && s.flag p Fd.SER_DELIM_START_EN) && c.data % 256 = s.fld p Fd.SER_DELIM_END
    if ends then s.serEnd k r' else s.setSer k { s.ser k with rx := some r' }

/-- A host buffer reaches a final state. -/
def State.serFinal (s : State) (k st : Nat) : State :=
  ((s.setSer k { s.ser k with cancel := none }).setFld (pSER k) Fd.SER_TXB_STATE st).raise (pSER k) Iq.SER_TXB_DONE

/-- The router queue's level. -/
def State.setSerRtq (s : State) (k : Nat) (q : List SerQ) : State :=
  (s.setSer k { s.ser k with rtq := q }).setFld (pSER k) Fd.SER_RTQ_STAT_LEVEL q.length

/-- A read-back mismatch is a collision: the line stops; the host frame fails, a router frame is dropped (R129). -/
def State.serCollision (s : State) (k : Nat) (x : SerTx) : State :=
  let p := pSER k
  let s := s.setSer k { s.ser k with tx := none }
  let s := ((s.inc p Cn.SER_COLLISION).raise p Iq.SER_COLLISION).err p Er.SER_COLLISION k
  (if x.host then s.serFinal k 6 else (s.setSerRtq k ((s.ser k).rtq.drop 1)).inc p Cn.SER_RTQ_DROP).serSettle k

/-- SER_CHARACTER_RECEIVED (R126, R128, R129). A start bit stamped at or before the start of a transmission defers it; later
characters are the read-back of the line's own.
DESIGN CHOICE, safe (notes/assumptions/15.md). DEDUCED, unsafe (notes/assumptions/32.md). -/
def execSerCharacterReceived (t k : Nat) (c : SerChar) (s : State) : Res :=
  serRun t k s fun s =>
    let m := s.serMode k
    if !(m = 1 || m = 2) then s
    else match (s.ser k).tx with
      | none => s.serChar k c
      | some x =>
        if c.start ≤ x.start then
          let s := s.setSer k { s.ser k with tx := none }
          (if x.host then s.setFld (pSER k) Fd.SER_TXB_STATE 1 else s).serChar k c
        else
          let s := if s.flag (pSER k) Fd.SER_CFG_ECHO_SUPPRESS then s else s.serChar k c
          match x.left with
          | e :: l => if e = c.data && !c.parityErr && !c.framingErr then s.setSer k { s.ser k with tx := some { x with left := l } }
            else s.serCollision k x
          | [] => s

/-- SER_GAP_EXPIRY: GAP half-character times of idle end the frame (R126). -/
def execSerGapExpiry (t k : Nat) (s : State) : Res :=
  serRun t k s fun s =>
    match (s.ser k).rx, (s.ser k).lastEnd with
    | some x, some e =>
      if s.fld (pSER k) Fd.SER_CFG_FRAMING = 0 && e + s.fld (pSER k) Fd.SER_FRAME_GAP * s.serHalfChar k ≤ s.now then s.serEnd k x else s
    | _, _ => s

/-! ### Transmission (R128 to R131) -/

/-- A write of SER_TXB: LEN, CANCEL, then REQ (Table 8, R130).
DEDUCED, unsafe (notes/assumptions/32.md). -/
def State.serTxbWrite (s : State) (d k v : Nat) : State :=
  let p := pSER k
  let a := p * 4096 + Reg.SER_TXB
  let len := v % 2048
  let limit := if s.ser9 k then 512 else 1024
  if v.testBit 15 && (len = 0 || limit < len) then s.refuse d a v Er.REG_BAD_VALUE
  else
    let s := s.setFld p Fd.SER_TXB_LEN len
    let st := s.fld p Fd.SER_TXB_STATE
    let s := if !(v.testBit 14) then s
      else if st = 1 then s.serFinal k 4
      else if st = 2 then
        match (s.ser k).tx with
        | some x =>
          if s.now ≤ x.start then (s.setSer k { s.ser k with tx := none }).serFinal k 4
          else s.setSer k { s.ser k with cancel := some s.now }
        | none => s
      else s
    let st := s.fld p Fd.SER_TXB_STATE
    if !(v.testBit 15) then s
    else if st = 1 || st = 2 then s.errBy d p Er.SER_TXB_LOCKED k v
    else (s.setSer k { s.ser k with enq := s.now, cancel := none }).setFld p Fd.SER_TXB_STATE 1

/-- SER_TX_REQ: a write of SER_TXB (R128). -/
def execSerTxReq (t d k v : Nat) (s : State) : Res :=
  live t s fun s => if k < 4 then s.judged d (pSER k * 4096 + Reg.SER_TXB) 32 v fun s => s.serTxbWrite d k v else s

/-- SER_TX_CANCEL: a write of SER_TXB with CANCEL (R130). -/
def execSerTxCancel (t d k v : Nat) (s : State) : Res :=
  live t s fun s =>
    let v := v ||| 2 ^ 14
    if k < 4 then s.judged d (pSER k * 4096 + Reg.SER_TXB) 32 v fun s => s.serTxbWrite d k v else s

/-- The owner domain resets: the host buffer is settled as a cancel stamped at the reset (Table 3). -/
def State.serDomReset (s : State) (k : Nat) : State :=
  let st := s.fld (pSER k) Fd.SER_TXB_STATE
  if st = 1 then s.serFinal k 4
  else if st = 2 then
    match (s.ser k).tx with
    | some x =>
      if s.now ≤ x.start then (s.setSer k { s.ser k with tx := none }).serFinal k 4
      else s.setSer k { s.ser k with cancel := some s.now }
    | none => s
  else s

/-- A router entry is refused: 8 frames wait, or the line listens or is off (R128, R131). -/
def State.serRtqRefuses (s : State) (k : Nat) : Bool :=
  8 ≤ (s.ser k).rtq.length || s.serMode k = 2 || s.serMode k = 15

/-- Enter a router frame, in order of enqueue stamp. -/
def State.serRtqEnter (s : State) (k : Nat) (chars : List Nat) (stamp : Nat) : State :=
  if s.serRtqRefuses k then s
  else
    let q := (s.ser k).rtq
    let before := q.filter fun x => x.stamp ≤ stamp
    let after := q.filter fun x => stamp < x.stamp
    s.setSerRtq k (before ++ [⟨chars, stamp⟩] ++ after)

/-- SER_RTQ_ENTRY (R128). -/
def execSerRtqEntry (t k : Nat) (chars : List Nat) (s : State) : Res := serRun t k s fun s => s.serRtqEnter k chars s.now

/-- The characters of the host buffer (R136). -/
def State.serBuf (s : State) (k : Nat) : List Nat :=
  let p := pSER k
  let len := s.fld p Fd.SER_TXB_LEN
  let bytes := (List.range 32).flatMap fun i => entryToBytes (s.ent p 0 0 i)
  if s.ser9 k then (List.range len).map fun i => (nth 0 bytes (2 * i) + 256 * nth 0 bytes (2 * i + 1)) % 512
  else bytes.take len

/-- SER_TX_START: after TURN_US of idle the pending frame with the earlier enqueue stamp starts; the router's on equal
stamps (R128). -/
def execSerTxStart (t k : Nat) (s : State) : Res :=
  serRun t k s fun s =>
    let p := pSER k
    let x := s.ser k
    let idle := match x.lastEnd with
      | some e => e + s.fld p Fd.SER_TURN_TURN_US * 1000 ≤ s.now
      | none => true
    let host := s.fld p Fd.SER_TXB_STATE = 1
    if s.serMode k ≠ 1 || x.tx.isSome || !idle || s.frozen p || s.fld p Fd.SER_MODE_REQ ≠ 1 then s
    else
      let start := fun (h : Bool) (cs : List Nat) (s : State) => s.setSer k { s.ser k with tx := some ⟨h, cs, cs, s.now⟩ }
      let goHost := fun (s : State) => start true (s.serBuf k) (s.setFld p Fd.SER_TXB_STATE 2)
      match x.rtq with
      | r :: _ => if host && x.enq < r.stamp then goHost s else start false r.chars s
      | [] => if host then goHost s else s

/-- SER_TX_DONE: the last stop bit has left and DE is released (R129, R130). -/
def execSerTxDone (t k : Nat) (s : State) : Res :=
  serRun t k s fun s =>
    match (s.ser k).tx with
    | some x =>
      let late := (s.ser k).cancel.isSome
      let s := ((s.setSer k { s.ser k with tx := none }).inc (pSER k) Cn.SER_TX_FRAMES).emit (.sent "ser frame" (k :: x.chars))
      (if x.host then s.serFinal k (if late then 5 else 3) else s.setSerRtq k ((s.ser k).rtq.drop 1)).serSettle k
    | none => s

/-! ### Register writes of a SER page (R134, Table 8) -/

/-- A write of a SER register that has no row of its own. -/
def State.serWrite (s : State) (d k off w : Nat) : State :=
  let a := pSER k * 4096 + off
  let w' := BitVec.ofNat 32 w
  let bad := s.refuse d a w Er.REG_BAD_VALUE
  let stopOnly := off = Reg.SER_CFG || off = Reg.SER_BAUD || off = Reg.SER_FRAME || off = Reg.SER_LENFMT || off = Reg.SER_DELIM
  if stopOnly && s.serMode k ≠ 0 then bad
  else if off = Reg.SER_CFG && (fget w' Fd.SER_CFG_FRAMING = 3 || fget w' Fd.SER_CFG_PARITY = 3 || fget w' Fd.SER_CFG_DATA = 3) then bad
  else s.store a w

end Sys2Proof.Machine
end

