-- ==== Sys2Proof/Machine/Host.lean ====
section
/-!
DEFINITION. The meanings of the host domains' commands (R417 to R443): rings and doorbells, interrupt vectors, Brackets and
domain resets, and the PCIe endpoints' links.
-/

namespace Sys2Proof.Machine

/-! ### Transmit rings (R428 to R430) -/

/-- A completion that waits joins its ring. -/
def State.addWait (s : State) (d r : Nat) (w : TxWait) : State :=
  let x := s.ringRt d 0 r
  s.setRingRt d 0 r { x with waits := x.waits ++ [w] }

/-- Write one completion: bytes 16 to 31, then byte 10 with OWN cleared (Table 4). -/
def State.txWrite (s : State) (d r : Nat) (w : TxWait) (status : Nat) : State :=
  let (stamp, frac, port) := w.result
  let tail := leBytes 8 stamp ++ [status, port] ++ leBytes 2 frac ++ [0, 0, 0, 0]
  ((s.dmaPut d w.loc (w.addr + 16) tail).dmaPut d w.loc (w.addr + 10) [2 * b2n w.req]).ringDone d 0 r

/-- Write the completions at the front of a ring whose status is known, in ring order; `n` bounds them. -/
def State.txFlush (s : State) (d r : Nat) : Nat → State
  | 0 => s
  | n + 1 =>
    let x := s.ringRt d 0 r
    match x.waits with
    | w :: l =>
      match w.status with
      | some st => ((s.setRingRt d 0 r { x with waits := l }).txWrite d r w st).txFlush d r n
      | none => s
    | [] => s

/-- The lowest-numbered external port that transmitted a copy. -/
def lowestSent (l : List (Nat × Nat × Nat)) : Option (Nat × Nat × Nat) := (l.mergeSort fun a b => a.1 ≤ b.1).head?

/-- What is known of a stamped descriptor (R430): OK with the stamp of the lowest port once no copy is left or 10 ms have
passed, DROPPED when every copy was discarded. -/
def State.txSettle (s : State) (d r : Nat) (w : TxWait) : TxWait :=
  if w.status.isSome then w
  else
    let live := s.hostLive (d, r, w.num)
    match lowestSent w.sent with
    | some (p, st, fr) => if !live || w.stamp + 10000000 ≤ s.now then { w with status := some 0, result := (st, fr, p) } else w
    | none => if !live && !w.inside then { w with status := some 1 } else w

/-- TX_COMPLETION: completions of transmit ring `r` of domain `d` that are known are written, in ring order. -/
def execTxCompletion (t d r : Nat) (s : State) : Res :=
  running t s fun s =>
    if 4 ≤ d || 4 ≤ r then s
    else
      let x := s.ringRt d 0 r
      (s.setRingRt d 0 r { x with waits := x.waits.map (s.txSettle d r) }).txFlush d r x.waits.length

/-- NO_STAMP: 10 ms after the ingress stamp no external port has transmitted a copy (R430). -/
def execNoStamp (t d r : Nat) (s : State) : Res :=
  running t s fun s =>
    if 4 ≤ d || 4 ≤ r then s
    else
      let x := s.ringRt d 0 r
      let late := fun (w : TxWait) =>
        if w.status.isNone && w.sent.isEmpty && w.stamp + 10000000 ≤ s.now then { w with status := some 4 } else w
      (s.setRingRt d 0 r { x with waits := x.waits.map late }).txFlush d r x.waits.length

/-- Transmit ring `r` of domain `d` has a descriptor to fetch, and may fetch it. -/
def State.mayFetch (s : State) (d r : Nat) : Bool := s.ringRuns d 0 r && !(s.ringEmpty d 0 r) && (s.dom d).bme

/-- The ring that has its turn at endpoint `e`, as 4·(function) + ring (R429).
DEDUCED, unsafe (notes/assumptions/54.md). -/
def State.nextRing (s : State) (e : Nat) : Option Nat :=
  let last := smGet 7 e s.swc.turns
  ((List.range 8).map fun k => (last + 1 + k) % 8).find? fun x => s.mayFetch (2 * e + x / 4) (x % 4)

/-- A fetched descriptor with its frame (R429): the frame enters port 32 or 33, or the descriptor completes with LEN_ERR. -/
def State.txTake (s : State) (e d r : Nat) (desc frame : List Nat) : State :=
  let len := leNat ((desc.drop 8).take 2)
  let req := (nth 0 desc 10).testBit 1
  let n := (s.dom d).nextTx
  let w : TxWait := { num := n, addr := s.headAddr d 0 r, loc := s.ringF d 0 r En.RING_LOC, req := req, stamp := s.now, frac := s.nowFrac, result := (s.now, s.nowFrac, 0xFF) }
  let s := (s.setDom d { s.dom d with nextTx := n + 1 }).headNext d 0 r
  if len < 14 || 9212 < len then (s.addWait d r { w with status := some 2 }).txFlush d r 1
  else
    let bytes := refcs (fitTo 0 (max 60 len) (frame.take len))
    let m : Meta := { port := 32 + e, stamp := s.now, frac := s.nowFrac, fin := s.now, host := some (d, r, n), stampReq := req }
    let s := (s.inc (pHDOM d) Cn.HDOM_TX_FRAMES).addCnt (pHDOM d) Cn.HDOM_TX_OCTETS bytes.length
    (s.addWait d r (if req then w else { w with status := some 0 })).frontPut 0 bytes m

/-- A transmit ring stops with an error on the descriptor in progress, which completes with BUS_ERR (R432). -/
def State.txStop (s : State) (d r : Nat) : State :=
  let n := (s.dom d).nextTx
  let w : TxWait := { num := n, addr := s.headAddr d 0 r, loc := s.ringF d 0 r En.RING_LOC, req := false, stamp := s.now, frac := s.nowFrac, status := some 3, result := (s.now, s.nowFrac, 0xFF) }
  ((s.setDom d { s.dom d with nextTx := n + 1 }).addWait d r w).ringStop d 0 r Er.DMA_BUS_ERR

/-- HOST_TX_FETCH: endpoint `e` fetches the next descriptor `desc` and its frame; `busErr`: a bus or memory error on the way
(R429, R432). A ring with LOC = 1 reads both from the host region (R454).
DESIGN CHOICE, safe (notes/assumptions/14.md). -/
def execHostTxFetch (t e : Nat) (desc frame : List Nat) (busErr : Bool) (s : State) : Res :=
  running t s fun s =>
    if 2 ≤ e || s.frozen pSWC || !(s.enabled pSWC) then s
    else
      match s.nextRing e with
      | none => s
      | some x =>
        let d := 2 * e + x / 4
        let r := x % 4
        let loc := s.ringF d 0 r En.RING_LOC = 1
        let at_ := s.headAddr d 0 r
        let desc := if loc then s.hostBytes at_ 32 else desc
        let len := leNat ((desc.drop 8).take 2)
        let buf := leNat (desc.take 8)
        let good := decide (14 ≤ len ∧ len ≤ 9212)
        if good && s.free < max (s.fld pSWC Fd.SWC_HOST_FLOOR_LEVEL) (cellsOf (max 64 (len + 4))) then s
        else
          let s := { s with swc := { s.swc with turns := smSet 7 e x s.swc.turns } }
          if loc && !(s.hostHas at_ 32) then s.ringRange d 0 r
          else if busErr then s.txStop d r
          else if !((nth 0 desc 10).testBit 0) then s.ringStop d 0 r Er.DMA_DESC_ERR
          else if loc && good && !(s.hostHas buf len) then (s.err pEMC Er.EMC_HOST_RANGE r).txStop d r
          else s.txTake e d r desc (if loc then s.hostBytes buf len else frame)

/-! ### Receive rings (R431, R432) -/

/-- The copy on the line of port 32, 33 or 35 is discarded. -/
def State.rxDrop (s : State) (p : Nat) (c : Copy) : State := (s.setEgr p { s.egr p with line := none }).copyFree c

/-- A copy is written into the buffer of the descriptor at HEAD of a receive ring (Table 5).
DEDUCED, unsafe (notes/assumptions/54.md). -/
def State.rxWrite (s : State) (p d r : Nat) (desc : List Nat) (x : OnLine) : State :=
  let c := x.copy
  let size := leNat ((desc.drop 8).take 2)
  let cut := (c.kind = 2 || c.kind = 3) && c.bytes.length < c.origLen
  let data := if cut then c.bytes else c.bytes.take (c.bytes.length - 4)
  let trunc := size < data.length
  let put := data.take size
  let loc := s.ringF d 1 r En.RING_LOC
  let a := s.headAddr d 1 r
  let info := if c.kind = 1 || c.kind = 2 || c.kind = 3 then c.sel else 0
  let tail := [0] ++ leBytes 2 put.length ++ leBytes 2 c.origLen ++ leBytes 8 c.info.stamp ++ leBytes 2 c.info.frac
    ++ [c.info.port, c.kind, info, x.q, 0, 0]
  let s := ((s.dmaPut d loc (leNat (desc.take 8)) put).dmaPut d loc (a + 11) tail).dmaPut d loc (a + 10) [2 * b2n trunc + 4 * b2n x.err]
  let s := (s.inc (pHDOM d) Cn.HDOM_RX_FRAMES).addCnt (pHDOM d) Cn.HDOM_RX_OCTETS put.length
  let s := if trunc then s.inc (pHDOM d) Cn.HDOM_RX_TRUNC else s
  ((((s.hostMark c.info fun w => { w with inside := true }).rxDrop p c).headNext d 1 r)).ringDone d 1 r

/-- HOST_RX_DELIVERY: the copy that port `p` has released goes into a receive ring, whose descriptor at HEAD is `desc` (LOC = 0);
or it is discarded, or waits (R281, R431, R432, R439).
DESIGN CHOICE, safe (notes/assumptions/14.md). -/
def execHostRxDelivery (t p : Nat) (desc : List Nat) (busErr : Bool) (s : State) : Res :=
  running t s fun s =>
    match (s.egr p).line with
    | none => s
    | some x =>
      if !(p = 32 || p = 33 || p = 35) then s
      else
        match s.rxRing p x.q with
        | none =>
          match s.rxReset p x.q with
          | some d => (s.inc (pHDOM d) Cn.HDOM_RX_RESET_DROP).rxDrop p x.copy
          | none => (s.inc (pHDOM (if p = 33 then 2 else 0)) Cn.HDOM_RX_NO_RING).rxDrop p x.copy
        | some (d, r) =>
          if s.ringEmpty d 1 r then
            if s.entF pSWC 0 0 p En.SPORT_FULL_POLICY = 1 then (s.inc pSWC Cn.SWC_RING_FULL_DROP).rxDrop p x.copy else s
          else if !((s.dom d).bme) then s
          else
            let loc := s.ringF d 1 r En.RING_LOC = 1
            let at_ := s.headAddr d 1 r
            if loc && !(s.hostHas at_ 32) then s.ringRange d 1 r
            else if busErr then s.ringStop d 1 r Er.DMA_BUS_ERR
            else
              let desc := if loc then s.hostBytes at_ 32 else desc
              let size := leNat ((desc.drop 8).take 2)
              if !((nth 0 desc 10).testBit 0) || size < 64 || 16384 < size || size % 64 ≠ 0 then s.ringStop d 1 r Er.DMA_DESC_ERR
              else if loc && !(s.hostHas (leNat (desc.take 8)) size) then s.ringRange d 1 r
              else s.rxWrite p d r desc x

/-! ### Doorbells, coalescing, bus mastering -/

/-- DOORBELL: domain `d` writes the TAIL doorbell of transmit (tab 0) or receive (tab 1) ring `r` in BAR2 (R428). -/
def execDoorbell (t d tab r v : Nat) (s : State) : Res :=
  running t s fun s =>
    if 4 ≤ d || 2 ≤ tab || 4 ≤ r || !(s.ringRuns d tab r) then s else s.setRingF d tab r En.RING_TAIL (v % 65536)

/-- COAL_TIMER: COAL_US have passed since the first completion of a ring that is not signalled (R434). -/
def execCoalTimer (t d tab r : Nat) (s : State) : Res :=
  running t s fun s =>
    if 4 ≤ d || 2 ≤ tab || 4 ≤ r then s
    else
      let x := s.ringRt d tab r
      let us := s.ringF d tab r En.RING_COAL_US
      if s.ringF d tab r En.RING_IRQ_EN = 1 && us ≠ 0 && x.coal ≠ 0 && x.since + us * 1000 ≤ s.now then s.ringEvent d tab r else s

/-- BUS_MASTER_ENABLE: a configuration write of domain `d`'s function sets or clears Bus Master Enable (R419).
DEDUCED, unsafe (notes/assumptions/54.md). -/
def execBusMasterEnable (t d : Nat) (on : Bool) (s : State) : Res :=
  live t s fun s => if d < 4 then s.setDom d { s.dom d with bme := on } else s

/-! ### Interrupt vectors (R425 to R427) -/

/-- An accepted write of HDOM_VEC_EOI of domain `d` (R426, R427). -/
def State.eoiWrite (s : State) (d v : Nat) : State :=
  let D := s.dom d
  let keep := 2 ^ 32 - 1 - v % 2 ^ 32
  let s := s.setDom d { D with latch := D.latch &&& keep, armed := if d < 4 then D.armed ||| v % 2 ^ 32 else D.armed }
  foldN 32 (fun b s => if v.testBit b && s.vecPending d b then s.deliver d b else s) s

/-- A write of HDOM_VEC_MASK has been stored: vectors it unmasks deliver. -/
def State.vecMaskWritten (s : State) (d old : Nat) : State :=
  foldN 32 (fun b s => if old.testBit b && !((s.rd (pHDOM d) Reg.HDOM_VEC_MASK).testBit b) && s.vecPending d b then s.deliver d b else s) s

/-- VEC_EOI: domain `d` writes HDOM_VEC_EOI of its own page. -/
def execVecEoi (t d v : Nat) (s : State) : Res :=
  live t s fun s =>
    if 6 ≤ d then s else s.judged d (pHDOM d * 4096 + Reg.HDOM_VEC_EOI) 32 v fun s => s.eoiWrite d v

/-- MSIX_UNMASK: the host sets MSI-X Enable of domain `d`'s function and the mask bits of its table entries: a message that a
masked entry held back is sent when its entry is unmasked, and a vector that is pending delivers (R426). In the Interjection
state MSI-X cannot be enabled (R484).
DEDUCED, unsafe (notes/assumptions/54.md). -/
def execMsixUnmask (t d : Nat) (en : Bool) (mask : Nat) (s : State) : Res :=
  running t s fun s =>
    if 4 ≤ d then s
    else
      let s := s.setDom d { s.dom d with msixEn := en, msixMask := mask % 2 ^ 32 }
      foldN 32 (fun b s => if !(mask.testBit b) && ((s.dom d).pba.testBit b || s.vecPending d b) then s.deliver d b else s) s

/-! ### Brackets (R435, R436) -/

def State.lockF (s : State) (n : Nat) (f : Fld) : Nat := s.fld pBRK (f.at 4 n)

def State.setLockF (s : State) (n : Nat) (f : Fld) (x : Nat) : State := s.setFld pBRK (f.at 4 n) x

/-- A Bracket operation is refused. -/
def State.brkRefuse (s : State) (d n op code : Nat) : State :=
  (s.inc pBRK Cn.BRK_REFUSED).errBy d pBRK code n op

/-- ACQUIRE by domain `d` (Table 6). -/
def State.brkAcquire (s : State) (d n : Nat) : State :=
  let st := s.lockF n Fd.BRK_LOCK_STATE
  let grant := fun (s : State) =>
    ((s.setLockF n Fd.BRK_LOCK_STATE 1).setLockF n Fd.BRK_LOCK_HOLDER d).setLockF n Fd.BRK_LOCK_SEQ ((s.lockF n Fd.BRK_LOCK_SEQ + 1) % 256)
  if st = 0 then (grant s).inc pBRK Cn.BRK_GRANTS
  else if st = 2 then ((grant s).setLockF n Fd.BRK_LOCK_BROKEN_GRANT 1).inc pBRK Cn.BRK_GRANTS
  else if s.lockF n Fd.BRK_LOCK_HOLDER = d then s
  else s.inc pBRK Cn.BRK_CONTENDED

/-- An OP write of BRK_LOCK[n] by domain `d`, past the register checks.
DEDUCED, unsafe (notes/assumptions/56.md). -/
def State.brkOp (s : State) (d n op : Nat) : State :=
  if op % 4 = 0 then s
  else if !((s.fld pBRK (Fd.BRK_ALLOW_DOMAINS.at 4 n)).testBit d) then s.brkRefuse d n op Er.BRK_DENIED
  else if op % 4 = 1 then s.brkAcquire d n
  else if !(s.lockF n Fd.BRK_LOCK_STATE = 1 && s.lockF n Fd.BRK_LOCK_HOLDER = d) then s.brkRefuse d n op Er.BRK_NOT_HOLDER
  else if op % 4 = 3 then s.setLockF n Fd.BRK_LOCK_BROKEN_GRANT 0
  else if s.lockF n Fd.BRK_LOCK_BROKEN_GRANT = 1 then (s.setLockF n Fd.BRK_LOCK_STATE 2).setLockF n Fd.BRK_LOCK_BROKEN_GRANT 0
  else s.setLockF n Fd.BRK_LOCK_STATE 0

/-- Domain `d` writes OP `op` to BRK_LOCK[n]. -/
def State.brkWrite (s : State) (d n op : Nat) : State :=
  if 64 ≤ n then s else s.judged d (pBRK * 4096 + Reg.BRK_LOCK + 4 * n) 32 op fun s => s.brkOp d n op

/-- ACQUIRE: domain `d` asks for Bracket `n`. -/
def execAcquire (t d n : Nat) (s : State) : Res := live t s fun s => s.brkWrite d n 1

/-- RELEASE: domain `d` releases Bracket `n`. -/
def execRelease (t d n : Nat) (s : State) : Res := live t s fun s => s.brkWrite d n 2

/-- CLEAR_BROKEN: domain `d` confirms that it has re-validated what Bracket `n` guards. -/
def execClearBroken (t d n : Nat) (s : State) : Res := live t s fun s => s.brkWrite d n 3

/-! ### Domain reset (R438 to R442) -/

/-- The Brackets that domain `d` holds break (Table 6).
DEDUCED, unsafe (notes/assumptions/56.md). -/
def State.breakLocks (s : State) (d Z : Nat) : State :=
  foldN 64 (fun n s =>
    if s.lockF n Fd.BRK_LOCK_STATE = 1 && s.lockF n Fd.BRK_LOCK_HOLDER = d then
      let s := (s.setLockF n Fd.BRK_LOCK_STATE 2).setLockF n Fd.BRK_LOCK_BROKEN_GRANT 0
      let s := (s.wr pBRK Reg.BRK_LAST_BREAK (2 ^ 31 + d * 65536 + n)).wr64 pBRK Reg.BRK_LAST_BREAK_STAMP_LO Z
      ((s.inc pBRK Cn.BRK_BREAKS).raise pBRK Iq.BRK_BROKEN).errAt pBRK Er.BRK_BROKEN n d Z
    else s) s

/-- The pages that domain `d` owns are orphaned, and their blocks settle what a reset of their owner settles (R112, R130,
R343).
DEDUCED, unsafe (notes/assumptions/57.md). -/
def State.orphanPages (s : State) (d : Nat) : State :=
  headerPages.foldl (fun s p =>
    if s.owns d p && p ≠ pHDOM d then
      let s := (s.setFlag p Fd.OWNER_ORPHANED true).setFlag p Fd.STATUS_ORPHANED true
      match pageRow p with
      | some (r, i, _) =>
        match r.blk with
        | .canc => s.canDomReset i
        | .ser => s.serDomReset i
        | .trn => s.exportEnd Er.TRN_EXPORT_ERR
        | _ => s
      | none => s
    else s) s

/-- The rings of domain `d` stop; what waits for them is dropped (R439). -/
def State.dropRings (s : State) (d : Nat) : State :=
  let was := (List.range 4).filter fun r => s.ringF d 1 r En.RING_VALID = 1
  let s := foldN 8 (fun x s =>
    (s.setRingF d (x / 4) (x % 4) En.RING_VALID 0).setRingF d (x / 4) (x % 4) En.RING_STATE 0) s
  s.setDom d { s.dom d with rings := [], resetRings := was ++ (s.dom d).resetRings.filter fun r => !(was.contains r) }

/-- Domain `d` resets for `cause` with stamp `Z` (R439).
DEDUCED, unsafe (notes/assumptions/57.md). -/
def State.domReset (s : State) (d cause Z : Nat) : State :=
  if s.fld (pHDOM d) Fd.HDOM_STATE_STATE ≠ 0 then s
  else
    let p := pHDOM d
    let s := ((s.breakLocks d Z).orphanPages d)
    let s := if d < 4 then s.dropRings d else s
    let s := s.setDom d { s.dom d with latch := 0, armed := 0 }
    let s := (s.wr p Reg.HDOM_VEC_MASK (2 ^ 32 - 1)).wr p Reg.HDOM_WDOG 0
    let s := ((s.setFld p Fd.HDOM_STATE_STATE 1).setFld p Fd.HDOM_STATE_CAUSE cause).wr64 p Reg.HDOM_RESET_STAMP_LO Z
    (s.inc p Cn.HDOM_RESETS).errAt p Er.HDOM_RESET cause d Z

/-- FLR: a function-level reset of domain `d`'s function. -/
def execFlr (t d : Nat) (s : State) : Res := running t s fun s => if d < 4 then s.domReset d 1 s.now else s

/-- The host region in effect for BAR4 follows EMC_HOST.LOG2 at an endpoint reset (R454). -/
def State.bar4Sync (s : State) : State := s.setFld pEMC Fd.EMC_HOST_ACTIVE_LOG2 (s.fld pEMC Fd.EMC_HOST_LOG2)

/-- HOT_RESET: a hot reset of endpoint `e` resets both its domains. -/
def execHotReset (t e : Nat) (s : State) : Res :=
  running t s fun s => if e < 2 then (((s.domReset (2 * e) 4 s.now).domReset (2 * e + 1) 4 s.now)).bar4Sync else s

/-- HDOM_LINK_DOWN: the link of endpoint `e` goes down (R438, Table 8). -/
def execHdomLinkDown (t e : Nat) (s : State) : Res :=
  running t s fun s =>
    if 2 ≤ e || !(s.flag (pHDOM (2 * e)) Fd.HDOM_STATE_LINK) then s
    else
      let one := fun (d : Nat) (s : State) =>
        ((s.setFlag (pHDOM d) Fd.HDOM_STATE_LINK false).domReset d 4 s.now).err (pHDOM d) Er.HDOM_LINK_DOWN d
      (one (2 * e + 1) (one (2 * e) s)).bar4Sync

/-- PCIE_LINK_UP: the link of endpoint `e` comes up, its PERST_N input being high; its DOWN domains become ACTIVE (Table 8,
R473). -/
def execPcieLinkUp (t e : Nat) (s : State) : Res :=
  always t s fun s =>
    if 2 ≤ e || !(s.perst.contains e) || s.boot = .off || s.pwr = .comma then s
    else
      let one := fun (d : Nat) (s : State) =>
        let s := s.setFlag (pHDOM d) Fd.HDOM_STATE_LINK true
        if s.fld (pHDOM d) Fd.HDOM_STATE_STATE = 2 then s.setFld (pHDOM d) Fd.HDOM_STATE_STATE 0 else s
      one (2 * e + 1) (one (2 * e) s)

/-- PERST_DEASSERT: the PERST_N input of endpoint `e` rises; its link training can start (R473). -/
def execPerstDeassert (t e : Nat) (s : State) : Res :=
  always t s fun s => if 2 ≤ e || s.perst.contains e then s else { s with perst := e :: s.perst }

/-- RESET_DONE: the outstanding requests of domain `d` have settled (R440). -/
def execResetDone (t d : Nat) (s : State) : Res :=
  running t s fun s =>
    if 6 ≤ d || s.fld (pHDOM d) Fd.HDOM_STATE_STATE ≠ 1 then s
    else
      let p := pHDOM d
      let s := s.setFld p Fd.HDOM_STATE_STATE (if s.flag p Fd.HDOM_STATE_LINK then 0 else 2)
      let s := s.wr pBRK Reg.BRK_LAST_RESET (2 ^ 31 + d * 256 + s.fld p Fd.HDOM_STATE_CAUSE)
      let s := s.wr64 pBRK Reg.BRK_LAST_RESET_STAMP_LO (s.rd64 p Reg.HDOM_RESET_STAMP_LO)
      (s.raise p Iq.HDOM_RESET_DONE).raise pBRK Iq.BRK_PEER_RESET

/-! ### Domain watchdog (R441) -/

/-- The watchdog deadline of a domain. -/
def State.domDeadline (s : State) (d : Nat) : Nat := (s.dom d).wdogBase + s.fld (pHDOM d) Fd.HDOM_WDOG_TIMEOUT_MS * 1000000

/-- An accepted write of HDOM_WDOG_KICK of domain page `x` by domain `d`: a kick at or before the deadline counts.
DEDUCED, unsafe (notes/assumptions/57.md). -/
def State.kickWrite (s : State) (d x v : Nat) : State :=
  if v / 65536 % 65536 ≠ 0x4B1C then s.refuse d (pHDOM x * 4096 + Reg.HDOM_WDOG_KICK) v Er.REG_BAD_VALUE
  else if s.fld (pHDOM x) Fd.HDOM_WDOG_TIMEOUT_MS = 0 || s.now ≤ s.domDeadline x then
    s.setDom x { s.dom x with wdogBase := s.now }
  else s

/-- HDOM_WDOG_KICK: domain `d` writes `v` to HDOM_WDOG_KICK of its own page. -/
def execHdomWdogKick (t d v : Nat) (s : State) : Res :=
  live t s fun s =>
    if 6 ≤ d then s else s.judged d (pHDOM d * 4096 + Reg.HDOM_WDOG_KICK) 32 v fun s => s.kickWrite d d v

/-- HDOM_WDOG: no kick has counted up to 4 µs after the watchdog deadline of domain `d`.
DEDUCED, unsafe (notes/assumptions/57.md). -/
def execHdomWdog (t d : Nat) (s : State) : Res :=
  running t s fun s =>
    if 6 ≤ d || s.fld (pHDOM d) Fd.HDOM_WDOG_TIMEOUT_MS = 0 || s.fld (pHDOM d) Fd.HDOM_STATE_STATE ≠ 0
        || s.now < s.domDeadline d + 4000 then s
    else
      let Z := s.domDeadline d
      (s.domReset d 3 Z).errAt (pHDOM d) Er.HDOM_WDOG d 0 Z

end Sys2Proof.Machine
end

