-- ==== Sys2Proof/Machine/Emc.lean ====
section
/-!
DEFINITION. The external memory controller and its arbiter (R447 to R464). Arbiter times are memory clocks, which are no FRC
stamps (R448): they enter as operands.
-/

namespace Sys2Proof.Machine

/-! ### Training (R449) -/

/-- EMC_USABLE.MIB of a configuration (Table 1); 0: no row matches. -/
def usableMib (ranks density : Nat) : Nat :=
  if ranks = 1 then nth 0 [0, 1792, 3584, 7168] density else if ranks = 2 && density = 3 then 14336 else 0

/-- TRAINING_DONE: training ends; `step` is the step that failed (0: none), with what step 1 found. A configuration outside
Table 1 fails at step 1.
DEDUCED, unsafe (notes/assumptions/59.md). -/
def execTrainingDone (t step ranks density : Nat) (s : State) : Res :=
  always t s fun s =>
    if s.boot = .off || s.flag pEMC Fd.EMC_DRAM_READY || s.flag pEMC Fd.EMC_DRAM_FAIL || s.pwr = .comma then s
    else
      let mib := usableMib ranks density
      let step := if step = 0 && mib = 0 then 1 else min step 5
      let s := (s.setFld pEMC Fd.EMC_DRAM_RANKS (min ranks 2)).setFld pEMC Fd.EMC_DRAM_DENSITY (min density 3)
      if step = 0 then
        ((s.setFlag pEMC Fd.EMC_DRAM_READY true).setFld pEMC Fd.EMC_USABLE_MIB mib).raise pEMC Iq.EMC_READY
      else
        let s := ((s.setFlag pEMC Fd.EMC_DRAM_FAIL true).setFld pEMC Fd.EMC_DRAM_STEP step).setFld pEMC Fd.EMC_USABLE_MIB 0
        (s.raise pEMC Iq.EMC_TRAIN_FAIL).err pEMC Er.EMC_TRAIN_FAIL 0

/-- An accepted write of EMC_CFG by domain `d` (R449). -/
def State.emcCfgWrite (s : State) (d v : Nat) : State :=
  let a := pEMC * 4096 + Reg.EMC_CFG
  if 4 ≤ v / 256 % 8 || (v.testBit 1 && s.enabled pEMC) then s.refuse d a v Er.REG_BAD_VALUE
  else
    let s := s.store a (v - v / 2 % 2 * 2)
    if v.testBit 1 then (s.wr pEMC Reg.EMC_DRAM 0).setFld pEMC Fd.EMC_USABLE_MIB 0 else s

/-- RETRAIN: domain `d` writes EMC_CFG.RETRAIN with the other fields as they are. -/
def execRetrain (t d : Nat) (s : State) : Res :=
  live t s fun s =>
    let v := s.rd pEMC Reg.EMC_CFG ||| 2
    s.judged d (pEMC * 4096 + Reg.EMC_CFG) 32 v fun s => s.emcCfgWrite d v

/-! ### Regions (R452, R453) -/

/-- A region is in use. -/
def State.emcInUse (s : State) : Bool :=
  s.fld pSWC Fd.SWC_SPILL_STAT_USED ≠ 0 || s.enabled pTRN
    || allRings.any fun x => [0, 1].any fun tab => s.ringF x.1 tab x.2 En.RING_LOC = 1 && s.ringF x.1 tab x.2 En.RING_VALID = 1

/-- The three regions together, in MiB. -/
def State.regionMib (s : State) : Nat :=
  let l := s.fld pEMC Fd.EMC_HOST_LOG2
  s.fld pEMC Fd.EMC_SPILL_MIB + s.fld pEMC Fd.EMC_TRN_SEGS + (if l = 0 then 0 else 2 ^ (l - 1))

/-- A write of ENABLE that the controller refuses. -/
def State.emcEnableBad (s : State) (on : Bool) : Bool :=
  if on then !(s.enabled pEMC) && (!(s.flag pEMC Fd.EMC_DRAM_READY) || s.fld pEMC Fd.EMC_USABLE_MIB < s.regionMib)
  else s.enabled pEMC && s.emcInUse

/-- ENABLE goes to 1: the regions open. -/
def State.emcEnable (s : State) : State :=
  (s.setFld pSWC Fd.SWC_SPILL_BLOCKS_BLOCKS (512 * s.fld pEMC Fd.EMC_SPILL_MIB)).setFld pTRN Fd.TRN_RING_SEGS
    (s.fld pEMC Fd.EMC_TRN_SEGS)

/-- SOFT_RESET while ENABLE = 0 (R464). -/
def State.emcSoftReset (s : State) : State :=
  { (s.wr pEMC Reg.EMC_HOG_STAT 0).wr pEMC Reg.EMC_ECC_LOC 0 with eccSeen := s.eccSeen.filter fun x => x.1 ≠ pEMC }

/-! ### Errors of a read (R450) -/

/-- An uncorrectable error on a read of 64-byte line `line` for requester `r`.
DESIGN CHOICE, safe (notes/assumptions/12.md). -/
def State.emcEcc (s : State) (r line : Nat) : State :=
  let s := (s.inc pEMC Cn.EMC_ECC_UNCORR).raise pEMC Iq.EMC_ECC
  let s := if s.eccSeen.contains (pEMC, 0, line) then s
    else { s with eccSeen := (pEMC, 0, line) :: s.eccSeen }.errBy 7 pEMC Er.EMC_ECC r line
  if s.flag pEMC Fd.EMC_ECC_LOC_VALID then s
  else ((s.setFlag pEMC Fd.EMC_ECC_LOC_VALID true).setFld pEMC Fd.EMC_ECC_LOC_REQ r).setFld pEMC Fd.EMC_ECC_LOC_LINE line

/-! ### The arbiter (R455 to R461) -/

/-- Memory clocks pass: the ages of the pending requests advance and saturate. -/
def State.emcClocks (s : State) (n : Nat) : State :=
  { s with emc := { s.emc with ages := s.emc.ages.map fun x => (x.1, min (x.2 + n) 65536) } }

/-- A request of requester `r` is raised; its age is kept as age + 1, so that an unlisted requester has no request. -/
def State.emcRaise (s : State) (r age : Nat) : State :=
  if 8 ≤ r || smGet 0 r s.emc.ages ≠ 0 then s else { s with emc := { s.emc with ages := smSet 0 r (min (age + 1) 65536) s.emc.ages } }

def State.emcDrop (s : State) (r : Nat) : State := { s with emc := { s.emc with ages := smSet 0 r 0 s.emc.ages } }

/-- EMC_ARB follows the requests and the holder. -/
def State.emcLevels (s : State) (holder : Nat) : State :=
  let mask := (s.emc.ages.filter fun x => x.2 ≠ 0).foldl (fun m x => m + 2 ^ x.1) 0
  (s.setFld pEMC Fd.EMC_ARB_PENDING mask).setFld pEMC Fd.EMC_ARB_HOLDER holder

/-- The oldest pending request; equal ages go to the lower index (R456). -/
def State.emcOldest (s : State) : Option Nat :=
  ((s.emc.ages.filter fun x => x.2 ≠ 0).mergeSort fun a b => b.2 < a.2 || (a.2 = b.2 && a.1 ≤ b.1)).head?.map (·.1)

/-- A request is granted: counted, and its wait from request to grant recorded. -/
def State.emcGrant (s : State) (r : Nat) : State :=
  let wait := min (smGet 0 r s.emc.ages + 1) 65535
  let s := s.setFld pEMC (Fd.EMC_WAIT_MAX_CLOCKS.at 4 r) (max wait (s.fld pEMC (Fd.EMC_WAIT_MAX_CLOCKS.at 4 r)))
  (s.emcDrop r).inc pEMC (Cn.EMC_GRANTS + 8 * r)

/-- ARBITER_GRANT: `clocks` memory clocks after the last arbiter command the holder, if any, drops its request having moved
`bytes` bytes, with `corr` corrected and `ecc` uncorrectable lines among its reads; the requests `raised` since then are
pending with their ages; the oldest pending request is granted. A winner in `withdrawn` returns its grant empty (R455 to
R458, R461).
DEDUCED, unsafe (notes/assumptions/59.md). -/
def execArbiterGrant (t clocks : Nat) (raised : List (Nat × Nat)) (withdrawn : List Nat) (bytes : Nat) (ecc : List Nat) (corr : Nat)
    (s : State) : Res :=
  live t s fun s =>
    let h := s.fld pEMC Fd.EMC_ARB_HOLDER
    let s := if h < 8 then
        let s := (s.addCnt pEMC (Cn.EMC_BYTES + 8 * h) bytes).addCnt pEMC Cn.EMC_ECC_CORR corr
        ecc.foldl (fun s l => s.emcEcc h l) s
      else s
    let s := raised.foldl (fun s x => s.emcRaise x.1 x.2) (s.emcClocks clocks)
    if s.frozen pEMC then (s.emcLevels 8).setFlag pEMC Fd.STATUS_FROZEN true
    else
      match s.emcOldest with
      | none => s.emcLevels 8
      | some r =>
        let s := s.emcGrant r
        if withdrawn.contains r then (s.inc pEMC Cn.EMC_EMPTY_GRANTS).emcLevels 8 else s.emcLevels r

/-- EMC_HOG: the grant in progress has been held for `clocks` memory clocks, preemptions not counted, and is cut off after its
burst, having moved `bytes` bytes; `again`: the request is still raised (R460). -/
def execEmcHog (t clocks bytes : Nat) (again : Bool) (s : State) : Res :=
  live t s fun s =>
    let h := s.fld pEMC Fd.EMC_ARB_HOLDER
    if 8 ≤ h || clocks < s.fld pEMC Fd.EMC_HOG_LIMIT_CLOCKS then s
    else
      let s := (s.addCnt pEMC (Cn.EMC_BYTES + 8 * h) bytes).emcClocks clocks
      let s := s.wr pEMC Reg.EMC_HOG_STAT (s.rd pEMC Reg.EMC_HOG_STAT ||| 2 ^ h)
      let s := ((s.raise pEMC Iq.EMC_HOG).inc pEMC Cn.EMC_HOG_CUTS).err pEMC Er.EMC_HOG h
      (if again then s.emcRaise h 0 else s).emcLevels 8

/-- REFRESH: refresh, ZQ latch or oscillator reads take the bus for `clocks` memory clocks, with the refresh-rate code the
devices report; a holder is preempted and resumes (R459). -/
def execRefresh (t clocks rate : Nat) (s : State) : Res :=
  live t s fun s =>
    let s := if s.fld pEMC Fd.EMC_ARB_HOLDER < 8 then s.inc pEMC Cn.EMC_REFRESH_PREEMPT else s
    (s.emcClocks (min clocks 16)).setFld pEMC Fd.EMC_TEMP_RATE_CODE rate

/-- Line `line` lies in an enabled region. -/
def State.inRegions (s : State) (line : Nat) : Bool := s.enabled pEMC && line * 64 < s.regionMib * 2 ^ 20

/-- SCRUB_LINE: in an idle memory clock the scrubber reads line `line`: no error (0), a corrected one (1), an uncorrectable one
(2). The REQ field of a scrub read is a free value (R451). -/
def execScrubLine (t line err : Nat) (s : State) : Res :=
  live t s fun s =>
    if !(s.flag pEMC Fd.EMC_CFG_SCRUB_EN) || !(s.inRegions line) || s.fld pEMC Fd.EMC_ARB_HOLDER ≠ 8
        || s.fld pEMC Fd.EMC_ARB_PENDING ≠ 0 then s
    else
      let s := s.inc pEMC Cn.EMC_SCRUB_LINES
      if err = 1 then s.inc pEMC Cn.EMC_ECC_CORR
      else if err = 2 then (s.emcEcc (Config.free s.draws % 8) line).draw
      else s

/-- EMC_TEMP: the devices report a temperature beyond the four-times refresh rate (R459). -/
def execEmcTemp (t rate : Nat) (s : State) : Res :=
  live t s fun s => ((s.setFld pEMC Fd.EMC_TEMP_RATE_CODE rate).raise pEMC Iq.EMC_TEMP).err pEMC Er.EMC_TEMP 0

/-- DEBUG_MEMORY_ACCESS: while debug is enabled the debug port writes bytes, or reads `n` bytes, of external memory at `a`; a
holder is preempted (R459). -/
def execDebugMemoryAccess (t a : Nat) (w : Option (List Nat)) (n : Nat) (s : State) : Res :=
  live t s fun s =>
    if !(s.flag pOTP Fd.OTP_STATUS_DEBUG) then s
    else
      let s := if s.fld pEMC Fd.EMC_ARB_HOLDER < 8 then s.inc pEMC Cn.EMC_DEBUG_PREEMPT else s
      match w with
      | some bs => s.dramPut a bs
      | none => s.emit (.sent "debug memory" ((List.range n).map fun k => s.dramByte (a + k)))

/-! ### BAR4 (R454, R455) -/

/-- BAR4_ACCESS: domain `d` writes bytes, or reads `n` bytes, at BAR4 offset `o`. `ecc`: a read of that line met an
uncorrectable error and completes poisoned.
DEDUCED, safe (notes/assumptions/58.md). -/
def execBar4Access (t d o : Nat) (w : Option (List Nat)) (n : Nat) (ecc : Option Nat) (s : State) : Res :=
  running t s fun s =>
    let act := s.fld pEMC Fd.EMC_HOST_ACTIVE_LOG2
    let len := match w with
      | some bs => bs.length
      | none => n
    if 4 ≤ d || act = 0 || 2 ^ (act - 1) * 2 ^ 20 < o + len then s
    else if !(s.enabled pEMC) || !(s.hostHas o len) then
      let s := s.err pEMC Er.EMC_HOST_RANGE 0
      match w with
      | some _ => s
      | none => s.emit (.sent "bar4 read" (d :: List.replicate n 0))
    else
      match w, ecc with
      | some bs, _ => s.dramPut (s.hostBase + o) bs
      | none, some line => (s.emcEcc (4 + d / 2) line).emit (.sent "bar4 poisoned" [d])
      | none, none => s.emit (.sent "bar4 read" (d :: s.hostBytes o n))

end Sys2Proof.Machine
end

