-- ==== Sys2Proof/Machine/Key.lean ====
section
/-!
DEFINITION. The key store's commands (R388 to R396, Table 5) and OTP commands (R373, R377, R383). A key command's checks
and its effect on the store happen at its acceptance; KEY_CMD_DONE hands over its result (notes/assumptions/40.md).
-/

namespace Sys2Proof.Machine

/-! ### Ports -/

/-- The 64 bytes of a port's staging table. -/
def State.staging (s : State) (k : Nat) : List Nat :=
  entryToBytes (s.ent (pKEY k) 1 0 0) ++ entryToBytes (s.ent (pKEY k) 1 0 1)

/-- The staging table is cleared. -/
def State.stagingClear (s : State) (k : Nat) : State := (s.setEnt (pKEY k) 1 0 0 0).setEnt (pKEY k) 1 0 1 0

/-- The output table takes new entries; the others are 0. -/
def State.setOutputs (s : State) (k : Nat) (outs : List (List Nat)) : State :=
  foldN 5 (fun i s => s.setEnt (pKEY k) 2 0 i (bytesToEntry (nth [] outs i))) s

/-- A command is refused: counted, ERROR with the low byte of the code, latched and logged with the issuer; its staging is
cleared (R388, R390).
DEDUCED, unsafe (notes/assumptions/40.md). -/
def State.keyRefuse (s : State) (d k slot code : Nat) : State :=
  let p := pKEY k
  let s := ((s.inc p Cn.KEY_REFUSED).setFlag p Fd.KEY_CMD_STATUS_ERROR true).setFld p Fd.KEY_CMD_STATUS_ERR (code % 256)
  (s.stagingClear k).errBy d p code slot 0

/-- A command runs until KEY_CMD_DONE.
DEDUCED, unsafe (notes/assumptions/40.md). -/
def State.keyRun (s : State) (r : KeyRun) : State :=
  { s.setFlag (pKEY r.port) Fd.KEY_CMD_STATUS_BUSY true with keys := { s.keys with runs := s.keys.runs ++ [r] } }

/-! ### Checks -/

/-- The target of a command that creates a key (Table 5): a code, or the slot. -/
def State.keyTarget (s : State) (slot : Nat) : Nat ⊕ Nat :=
  if slot = 0 then
    match (List.range 256).find? fun i => 2 ≤ i && !(s.slotValid i) with
    | some i => .inr i
    | none => .inl Er.KEY_FULL
  else if slot = 1 || s.slotValid slot then .inl Er.KEY_SLOT_BUSY
  else .inr slot

/-- The attributes that every command that creates or changes a key must satisfy (R389). -/
def State.attrOk (s : State) (d a : Nat) : Bool :=
  (if kaType a = 1 || kaType a = 2 then kaUses a < 8 else kaType a = 3 && kaUses a = 8)
    && (kaDomains a).testBit d && (kaWorld a = 0 || s.secure d) && (kaLc a).testBit s.lc

/-- Attributes no wider than those of `b` (R389). -/
def attrWithin (a b : Nat) : Bool :=
  subMask (kaDomains a) (kaDomains b) && subMask (kaLc a) (kaLc b) && kaWorld b ≤ kaWorld a

/-- The checks of R390 on the key that KEY_SUBJ names, for a use that `use` decides. -/
def State.subjCheck (s : State) (d h : Nat) (use : Nat → Bool) : Option Nat :=
  if !(s.keyCurrent h) then some Er.KEY_STALE
  else if !(s.keyAllows d (h % 256)) then some Er.KEY_DENIED
  else if !(use (s.slotAttr (h % 256))) then some Er.KEY_DENIED
  else none

/-- A new key takes slot `n`: its entry, next GEN and material (R386, R389). -/
def State.keyCreate (s : State) (d n a : Nat) (generated derived : Bool) (parent mat : Nat) : State :=
  let e : Entry := BitVec.ofNat 256 (a / 16 % 2 ^ 28 * 16 + 1 + b2n generated * 2 + b2n derived * 4)
  let e := fput e En.KSLOT_GEN (nextGen (s.slotF n En.KSLOT_GEN))
  let e := fput (fput (fput e En.KSLOT_PARENT parent) En.KSLOT_CREATOR d) En.KSLOT_CREATED s.now
  let s := (s.setSlot n e).keyLevels
  { s with keys := { s.keys with mat := smSet 0 n mat s.keys.mat } }

/-- A random number of `n` bits: a free value (R392).
DESIGN CHOICE, safe (notes/assumptions/5.md). -/
def State.random (s : State) (n : Nat) : Nat := Config.free s.draws % 2 ^ n

/-- A random key of a TYPE. -/
def State.randomKey (s : State) (ty : Nat) : Nat :=
  if ty = 1 then s.random 128 else if ty = 2 then s.random 256 else s.random 384 % (p256Order - 1) + 1

/-! ### The commands, as they act after the port's own checks -/

/-- GENERATE: a random key; its attributes, slot and random source are checked. -/
def State.keyGenerate (s : State) (d k slot : Nat) : State :=
  let a := s.rd (pKEY k) Reg.KEY_ATTR
  if !(s.attrOk d a) then s.keyRefuse d k slot Er.KEY_BAD_ATTR
  else
    match s.keyTarget slot with
    | .inl c => s.keyRefuse d k slot c
    | .inr n =>
      if s.keys.rngFail then s.keyRefuse d k slot Er.KEY_RNG
      else
        let m := s.randomKey (kaType a)
        let s := s.draw.keyCreate d n a true false 0 m
        s.keyRun ⟨k, some (s.handleOf n), [], none⟩

/-- IMPORT: the staged bytes, 16 for AES-128 and 32 otherwise, big-endian. -/
def State.keyImport (s : State) (d k slot : Nat) : State :=
  let a := s.rd (pKEY k) Reg.KEY_ATTR
  if !(s.attrOk d a) then s.keyRefuse d k slot Er.KEY_BAD_ATTR
  else
    match s.keyTarget slot with
    | .inl c => s.keyRefuse d k slot c
    | .inr n =>
      let m := beNat ((s.staging k).take (if kaType a = 1 then 16 else 32))
      let s := s.keyCreate d n a false false 0 m
      s.keyRun ⟨k, some (s.handleOf n), [], none⟩

/-- DERIVE (R391). -/
def State.keyDerive (s : State) (d k slot : Nat) : State :=
  let a := s.rd (pKEY k) Reg.KEY_ATTR
  let h := s.rd (pKEY k) Reg.KEY_SUBJ
  let par := h % 256
  let st := s.staging k
  let llen := nth 0 st 48
  let clen := nth 0 st 49
  match s.subjCheck d h fun x => (kaUses x).testBit useKdf with
  | some c => s.keyRefuse d k slot c
  | none =>
    if !(s.attrOk d a && attrWithin a (s.slotAttr par) && 1 ≤ llen && llen ≤ 16 && clen ≤ 32 && nth 0 st 0 ≠ 0) then
      s.keyRefuse d k slot Er.KEY_BAD_ATTR
    else
      match s.keyTarget slot with
      | .inl c => s.keyRefuse d k slot c
      | .inr n =>
        let key := s.keyMat h
        let gen : Bool := par = 0 || s.slotF par En.KSLOT_GENERATED = 1
        let m := kdfKey (kaType a) key.1 key.2 (st.take llen) ((st.drop 16).take clen)
        let s := s.keyCreate d n a gen true par m
        s.keyRun ⟨k, some (s.handleOf n), [], none⟩

/-- A fixed slot takes no DESTROY or RESTRICT (R387). -/
def fixedSlot (h : Nat) : Bool := h % 256 < 2

/-- DESTROY (R393): the handle is stale from the acceptance stamp; the material goes by DONE. -/
def State.keyDestroy (s : State) (d k : Nat) : State :=
  let h := s.rd (pKEY k) Reg.KEY_SUBJ
  match s.subjCheck d h fun _ => true with
  | some c => s.keyRefuse d k (h % 256) c
  | none =>
    if fixedSlot h then s.keyRefuse d k (h % 256) Er.KEY_DENIED
    else (s.slotFree (h % 256)).keyRun ⟨k, none, [], some (h % 256)⟩

/-- RESTRICT: the same material under a new handle (R389, Table 5). -/
def State.keyRestrict (s : State) (d k : Nat) : State :=
  let a := s.rd (pKEY k) Reg.KEY_ATTR
  let h := s.rd (pKEY k) Reg.KEY_SUBJ
  let n := h % 256
  let old := s.slotAttr n
  match s.subjCheck d h fun _ => true with
  | some c => s.keyRefuse d k (h % 256) c
  | none =>
    if fixedSlot h then s.keyRefuse d k (h % 256) Er.KEY_DENIED
    else if !(s.attrOk d a && attrWithin a old && kaType a = kaType old) then s.keyRefuse d k (h % 256) Er.KEY_BAD_ATTR
    else
      let e := fput (s.slot n) En.KSLOT_ATTR (a / 16)
      let s := s.setSlot n (fput e En.KSLOT_GEN (nextGen (s.slotF n En.KSLOT_GEN)))
      s.keyRun ⟨k, some (s.handleOf n), [], none⟩

/-- KEY_ID of the statement (Table 6). -/
def State.keyId (s : State) (h : Nat) : List Nat :=
  if kaType (s.slotAttr (h % 256)) = 3 then
    let q := p256Public (s.keyMat h).2
    beBytes 32 (sha256 (4 :: beBytes 32 q.1 ++ beBytes 32 q.2))
  else beBytes 16 (cmac (s.keyMat h).1 (s.keyMat h).2 (fitTo 0 16 [])) ++ fitTo 0 16 []

/-- The active boot configuration record: its generation, or none (R383). -/
def State.bcrGen (s : State) : Option Nat :=
  if s.flag pOTP Fd.OTP_STATUS_BCR_VALID then some (s.fld pOTP Fd.OTP_STATUS_BCR_GEN) else none

/-- The 96-byte statement about handle `h` (Table 6). -/
def State.statement (s : State) (h : Nat) (nonce : List Nat) : List Nat :=
  let n := h % 256
  let flags := s.slotF n En.KSLOT_GENERATED + 2 + s.fld pOTP Fd.OTP_STATUS_TEST_ROOT * 4 + s.fld pOTP Fd.OTP_STATUS_DEBUG * 8
  let bcr := match s.bcrGen with
    | some g => g :: beBytes 3 (s.otpWord (0x100 + 0x80 * g + 2))
    | none => [255, 0, 0, 0]
  beBytes 4 0x5A464154 ++ beBytes 2 1 ++ [s.lc, flags] ++ beBytes 4 h ++ beBytes 4 (s.slotAttr n) ++ beBytes 8 s.now
    ++ beBytes 4 (s.rd pTIME Reg.TIME_EPOCH) ++ bcr ++ s.keyId h ++ fitTo 0 16 nonce ++ s.uid
    ++ beBytes 8 (s.slotF n En.KSLOT_CREATED)

/-- r and s of a signature of a digest as output entries, with k drawn from the random source. -/
def State.signWith (s : State) (key digest : Nat) : List (List Nat) :=
  let r := ecdsaSign key digest (Config.free s.draws % (p256Order - 1) + 1)
  [beBytes 32 r.1, beBytes 32 r.2]

/-- ATTEST (R395): slot 1 signs the statement. -/
def State.keyAttest (s : State) (d k : Nat) : State :=
  let h := s.rd (pKEY k) Reg.KEY_SUBJ
  match s.subjCheck d h fun _ => true with
  | some c => s.keyRefuse d k (h % 256) c
  | none =>
    if s.keys.rngFail then s.keyRefuse d k (h % 256) Er.KEY_RNG
    else
      let st := s.statement h ((s.staging k).take 16)
      let sig := s.signWith (smGet 0 1 s.keys.mat) (sha256 st)
      s.draw.keyRun ⟨k, none, [st.take 32, (st.drop 32).take 32, st.drop 64] ++ sig, none⟩

/-- SIGN: slot 1 signs nothing but statements (R387, R390). -/
def State.keySign (s : State) (d k : Nat) : State :=
  let h := s.rd (pKEY k) Reg.KEY_SUBJ
  match s.subjCheck d h fun x => (kaUses x).testBit useSign with
  | some c => s.keyRefuse d k (h % 256) c
  | none =>
    if h % 256 = 1 then s.keyRefuse d k (h % 256) Er.KEY_DENIED
    else if s.keys.rngFail then s.keyRefuse d k (h % 256) Er.KEY_RNG
    else
      let sig := s.signWith (s.keyMat h).2 (beNat ((s.staging k).take 32))
      s.draw.keyRun ⟨k, none, [[], [], []] ++ sig, none⟩

/-- PUBKEY: X and Y of a P-256 key. -/
def State.keyPubkey (s : State) (d k : Nat) : State :=
  let h := s.rd (pKEY k) Reg.KEY_SUBJ
  match s.subjCheck d h fun x => kaType x = 3 with
  | some c => s.keyRefuse d k (h % 256) c
  | none =>
    let q := p256Public (s.keyMat h).2
    s.keyRun ⟨k, none, [beBytes 32 q.1, beBytes 32 q.2], none⟩

/-- A write of KEY_CMD with GO = 1, OP `op` and SLOT `slot` to port `k` by domain `d`: the write's checks, BUSY, the
commands of an enabled store in a life-cycle state that has one (Table 2, R388, R396), then the command `f`.
DEDUCED, unsafe (notes/assumptions/40.md). -/
def State.keyCmd (s : State) (d k op slot : Nat) (f : State → State) : State :=
  let a := pKEY k * 4096 + Reg.KEY_CMD
  let v := 2 ^ 31 + op * 2 ^ 24 + slot % 256
  let p := pKEY k
  s.judged d a 32 v fun s =>
    if s.flag p Fd.KEY_CMD_STATUS_BUSY then s.errBy d p Er.KEY_BUSY (slot % 256) v
    else
      let s := (((s.inc p Cn.KEY_COMMANDS).setFlag p Fd.KEY_CMD_STATUS_ERROR false).setFlag p Fd.KEY_CMD_STATUS_DONE false).setFld p
        Fd.KEY_CMD_STATUS_ERR 0
      let s := s.setOutputs k []
      if !(s.enabled (pKEY 0)) then s.keyRefuse d k slot Er.KEY_DENIED
      else if s.lc = 0 || s.lc = 5 then s.keyRefuse d k slot Er.KEY_LC
      else f s

/-- A write of KEY_CMD whose OP is not in Table 5 is refused with REG_BAD_VALUE. -/
def State.keyCmdWrite (s : State) (d k v : Nat) : State :=
  let op := v / 2 ^ 24 % 16
  let slot := v % 256
  if !(v.testBit 31) then s.judged d (pKEY k * 4096 + Reg.KEY_CMD) 32 v id
  else
    match op with
    | 1 => s.keyCmd d k op slot fun s => s.keyGenerate d k slot
    | 2 => s.keyCmd d k op slot fun s => s.keyImport d k slot
    | 3 => s.keyCmd d k op slot fun s => s.keyDerive d k slot
    | 4 => s.keyCmd d k op slot fun s => s.keyDestroy d k
    | 5 => s.keyCmd d k op slot fun s => s.keyRestrict d k
    | 6 => s.keyCmd d k op slot fun s => s.keyAttest d k
    | 7 => s.keyCmd d k op slot fun s => s.keySign d k
    | 8 => s.keyCmd d k op slot fun s => s.keyPubkey d k
    | _ =>
      s.judged d (pKEY k * 4096 + Reg.KEY_CMD) 32 v fun s => s.refuse d (pKEY k * 4096 + Reg.KEY_CMD) v Er.REG_BAD_VALUE

/-- The port exists: KEY pages 0 to 3. -/
def keyPort (t k : Nat) (s : State) (f : State → State) : Res := live t s fun s => if k < 4 then f s else s

/-- GENERATE at port `k` by domain `d`, target slot `slot`. -/
def execGenerate (t d k slot : Nat) (s : State) : Res :=
  keyPort t k s fun s => s.keyCmd d k 1 slot fun s => s.keyGenerate d k (slot % 256)

/-- IMPORT. -/
def execKeyImport (t d k slot : Nat) (s : State) : Res :=
  keyPort t k s fun s => s.keyCmd d k 2 slot fun s => s.keyImport d k (slot % 256)

/-- DERIVE. -/
def execDerive (t d k slot : Nat) (s : State) : Res :=
  keyPort t k s fun s => s.keyCmd d k 3 slot fun s => s.keyDerive d k (slot % 256)

/-- DESTROY. -/
def execDestroy (t d k slot : Nat) (s : State) : Res :=
  keyPort t k s fun s => s.keyCmd d k 4 slot fun s => s.keyDestroy d k

/-- RESTRICT. -/
def execRestrict (t d k slot : Nat) (s : State) : Res :=
  keyPort t k s fun s => s.keyCmd d k 5 slot fun s => s.keyRestrict d k

/-- ATTEST. -/
def execAttest (t d k slot : Nat) (s : State) : Res :=
  keyPort t k s fun s => s.keyCmd d k 6 slot fun s => s.keyAttest d k

/-- SIGN. -/
def execKeySign (t d k slot : Nat) (s : State) : Res :=
  keyPort t k s fun s => s.keyCmd d k 7 slot fun s => s.keySign d k

/-- PUBKEY. -/
def execPubkey (t d k slot : Nat) (s : State) : Res :=
  keyPort t k s fun s => s.keyCmd d k 8 slot fun s => s.keyPubkey d k

/-- The engine finishes the oldest command (R388): result and outputs, staging cleared, material zeroised, DONE.
DEDUCED, unsafe (notes/assumptions/40.md). -/
def execKeyCmdDone (t : Nat) (s : State) : Res :=
  live t s fun s =>
    match s.keys.runs with
    | [] => s
    | r :: l =>
      let p := pKEY r.port
      let s := { s with keys := { s.keys with runs := l } }
      let s := match r.zero with
        | some n => s.keyZero n
        | none => s
      let s := match r.result with
        | some h => s.wr p Reg.KEY_RESULT h
        | none => s
      let s := (s.setOutputs r.port r.outs).stagingClear r.port
      ((s.setFlag p Fd.KEY_CMD_STATUS_BUSY false).setFlag p Fd.KEY_CMD_STATUS_DONE true).raise p Iq.KEY_CMD_DONE

/-- KEY page 0's soft reset (R396). -/
def State.keySoftReset (s : State) : State :=
  let s := s.keys.runs.foldl (fun s r =>
    let p := pKEY r.port
    ((s.setFlag p Fd.KEY_CMD_STATUS_BUSY false).setFlag p Fd.KEY_CMD_STATUS_ERROR true).setFld p Fd.KEY_CMD_STATUS_ERR
      (Er.KEY_BUSY % 256)) s
  let s := { s with keys := { s.keys with runs := [] } }
  let s := foldN 256 (fun n s => if 2 ≤ n && s.slotValid n then (s.slotFree n).keyZero n else s) s
  foldN 4 (fun k s => (s.stagingClear k).setOutputs k []) s

/-- A health test of the noise source fails (R392). -/
def execRngHealthFail (t : Nat) (s : State) : Res :=
  live t s fun s =>
    let s := { s with keys := { s.keys with rngFail := true } }
    ((s.inc (pKEY 0) Cn.KEY_RNG_FAIL).raise (pKEY 0) Iq.KEY_RNG_FAIL).err (pKEY 0) Er.KEY_RNG 0

/-- A health test passes again (R392). -/
def execRngHealthRecovery (t : Nat) (s : State) : Res :=
  live t s fun s => { s with keys := { s.keys with rngFail := false } }

/-! ### OTP -/

/-- A word is programmable in life-cycle state `lc` (Table 1). -/
def otpProgrammable (w lc : Nat) : Bool :=
  if 0x020 ≤ w && w < 0x028 then lc = 1 || lc = 2
  else if 0x100 ≤ w && w < 0x300 then lc = 1 || lc = 2 || lc = 3
  else if 0x400 ≤ w then lc = 1 || lc = 2 || lc = 3
  else false

/-- Burn bits into a word: bits already burnt stay (R372).
DEDUCED, unsafe (notes/assumptions/44.md). -/
def State.otpBurn (s : State) (w bits : Nat) : State :=
  { s with otp := { s.otp with words := smSet 0 w (smGet 0 w s.otp.words ||| bits % 2 ^ 32) s.otp.words } }

/-- The state that a life-cycle word spells: the highest burnt group (R375). -/
def lcOf (w : Nat) : Nat :=
  if w / 256 % 4 ≠ 0 then 5 else if w / 64 % 4 ≠ 0 then 4 else if w / 16 % 4 ≠ 0 then 3
  else if w / 4 % 4 ≠ 0 then 2 else if w % 4 ≠ 0 then 1 else 0

/-- The transitions that LC_ADVANCE may request (Table 3).
DEDUCED, unsafe (notes/assumptions/44.md). -/
def lcAdvanceOk (src dst : Nat) : Bool :=
  (src = 1 && (dst = 2 || dst = 3)) || (src = 2 && dst = 3) || (1 ≤ src && src ≤ 4 && dst = 5)

/-- Generate a 256-bit root and burn it into the eight words from `w`. -/
def State.burnRoot (s : State) (w : Nat) : State :=
  let x := s.random 256
  foldN 8 (fun k s => s.otpBurn (w + k) (x / 2 ^ (32 * k) % 2 ^ 32)) s.draw

/-- The eight words from `w` are erased. -/
def State.otpErased (s : State) (w : Nat) : Bool := (List.range 8).all fun k => smGet 0 (w + k) s.otp.words = 0

/-- The device's action and the burn of a new life-cycle group (R377, R378, Table 3). -/
def State.lcBurn (s : State) (dst : Nat) : State :=
  let s := if s.lc = 0 && dst = 1 then s.burnRoot 0x018
    else if s.lc = 1 && (dst = 2 || dst = 3) && s.otpErased 0x010 then s.burnRoot 0x010
    else s
  let s := s.otpBurn 4 (3 * 4 ^ (dst - 1))
  s.setFld pOTP Fd.OTP_STATUS_LC_PENDING (lcOf (smGet 0 4 s.otp.words))

/-- The power-fail warning of the level-shift bridge is asserted (R373, R500). -/
def State.powerFail (s : State) : Bool := s.flag pLINE Fd.LINE_STATUS_PF_WARN

/-- An OTP command is refused: nothing is burnt. -/
def State.otpRefuse (s : State) (d w code : Nat) : State :=
  ((s.setFlag pOTP Fd.OTP_CMD_STATUS_ERROR true).setFld pOTP Fd.OTP_CMD_STATUS_ERR (code % 256)).errBy d pOTP code w 0

/-- A write of OTP_CMD with GO = 1: BUSY, OP, then the command's own check `chk`; it runs until OTP_CMD_DONE.
DEDUCED, unsafe (notes/assumptions/44.md). -/
def State.otpCmd (s : State) (d v : Nat) : State :=
  let a := pOTP * 4096 + Reg.OTP_CMD
  let op := v % 16
  let target := v / 65536 % 8
  let gen := v / 256 % 4
  s.judged d a 32 v fun s =>
    if !(v.testBit 31) then s
    else if s.flag pOTP Fd.OTP_CMD_STATUS_BUSY then s.errBy d pOTP Er.KEY_BUSY 0 v
    else if op = 0 || 3 < op then s.refuse d a v Er.REG_BAD_VALUE
    else
      let s := ((s.setFlag pOTP Fd.OTP_CMD_STATUS_ERROR false).setFlag pOTP Fd.OTP_CMD_STATUS_DONE false).setFld pOTP
        Fd.OTP_CMD_STATUS_ERR 0
      let start := fun (w x : Nat) =>
        { s.setFlag pOTP Fd.OTP_CMD_STATUS_BUSY true with otp := { s.otp with run := some (op, w, x) } }
      if op = 1 then
        let w := s.fld pOTP Fd.OTP_PROG_ADDR_WORD
        if !(otpProgrammable w s.lc) || smGet 0 w s.otp.words ≠ 0 then s.otpRefuse d w Er.OTP_LOCKED
        else if s.powerFail then s.otpRefuse d w Er.OTP_PROG_FAIL
        else start w (s.rd pOTP Reg.OTP_PROG_DATA)
      else if op = 2 then
        if !(s.secure d) || !(lcAdvanceOk s.lc target) then s.otpRefuse d target Er.OTP_LC_DENIED else start 4 target
      else start (0x101 + 0x80 * gen) 0xFF

/-- OTP_CMD with OP = PROGRAM by domain `d` (R373). -/
def execProgram (t d : Nat) (s : State) : Res := live t s fun s => s.otpCmd d (2 ^ 31 + 1)

/-- OTP_CMD with OP = LC_ADVANCE to state `target` (R377). -/
def execLcAdvance (t d target : Nat) (s : State) : Res := live t s fun s => s.otpCmd d (2 ^ 31 + target % 8 * 65536 + 2)

/-- OTP_CMD with OP = RETIRE of generation `gen` (R383). -/
def execRetire (t d gen : Nat) (s : State) : Res := live t s fun s => s.otpCmd d (2 ^ 31 + gen % 4 * 256 + 3)

/-- The OTP command completes; `lost` are the bits that did not burn, which the verify of PROGRAM finds (R373). -/
def execOtpCmdDone (t lost : Nat) (s : State) : Res :=
  live t s fun s =>
    match s.otp.run with
    | none => s
    | some (op, w, x) =>
      let s := ({ s with otp := { s.otp with run := none } }).setFlag pOTP Fd.OTP_CMD_STATUS_BUSY false
      let done := fun (s : State) => (s.setFlag pOTP Fd.OTP_CMD_STATUS_DONE true).raise pOTP Iq.OTP_CMD_DONE
      if op = 2 then done (s.lcBurn x)
      else
        let keep := (List.range 32).foldl (fun y i => if x.testBit i && !(lost.testBit i) then y + 2 ^ i else y) 0
        let s := s.otpBurn w keep
        if op = 1 && keep ≠ x then s.otpRefuse (s.ownerOf pOTP) w Er.OTP_PROG_FAIL
        else done (if op = 1 then s.inc pOTP Cn.OTP_WORDS_PROGRAMMED else s)

end Sys2Proof.Machine
end

