-- ==== Sys2Proof/Machine/Lin.lean ====
section
/-!
DEFINITION. The commands of the LIN channels (R116 to R124, R132 to R135): modes, schedules, frames, sleep and wake.
-/

namespace Sys2Proof.Machine

/-- A command of channel `n`'s protocol engine; at Comma entry a frame in progress completes (R133). -/
def linRun (t n : Nat) (s : State) (f : State → State) : Res :=
  always t s fun s => if n < 8 && (s.runs? || (s.winds && (s.lin n).frame.isSome)) then f s else s

/-- A LIN stamp: less the 12 ns of the bridge (R117). -/
def linStamp (edge : Nat) : Nat := edge - 12

/-! ### Modes (Table 3) -/

/-- No frame is in progress: a request to stop and FREEZE take effect. -/
def State.linSettle (s : State) (n : Nat) : State :=
  let m := s.linMode n
  if (s.lin n).frame.isSome || !(m = 1 || m = 2) then s
  else if s.frozen (pLINC n) then
    ((s.setLin n { s.lin n with frozenFrom := m }).setLinMode n 11).setFlag (pLINC n) Fd.STATUS_FROZEN true
  else if s.fld (pLINC n) Fd.LINC_MODE_REQ = 0 then (s.setLin n { s.lin n with slot := none, gtsNow := false }).setLinMode n 0
  else s

/-- FREEZE = 0: the previous mode (Table 3). -/
def State.linThaw (s : State) (n : Nat) : State :=
  let s := s.setFlag (pLINC n) Fd.STATUS_FROZEN false
  if s.linMode n = 11 then (s.setLinMode n (s.lin n).frozenFrom).linSettle n else s

/-- ENABLE = 0 or SOFT_RESET: OFF, the frame abandoned (Table 3). -/
def State.linOff (s : State) (n : Nat) : State :=
  ((s.setLin n {}).setFlag (pLINC n) Fd.STATUS_FROZEN false).setLinMode n 15

/-- ENABLE = 1: STOP. -/
def State.linOn (s : State) (n : Nat) : State := if s.linMode n = 15 then s.setLinMode n 0 else s

/-- The bit rate lies within 1 to 20 kbit/s (R116). -/
def State.linBaudOk (s : State) (n : Nat) : Bool := 64000 ≤ s.linBit16 n && s.linBit16 n ≤ 1280000

/-- A write of LINC_MODE: REQ, then WAKE (Table 5, R124, R133).
DEDUCED, unsafe (notes/assumptions/31.md). -/
def State.lincModeWrite (s : State) (d n v : Nat) : State :=
  let p := pLINC n
  let a := p * 4096 + Reg.LINC_MODE
  let req := v % 16
  let wake := fun (s : State) => if v.testBit 12 then s.linWakePulse n else s
  if 1 < req then s.refuse d a v Er.REG_BAD_VALUE
  else if s.linMode n = 0 && req = 1 then
    if s.linBaudOk n then
      let s := s.setLin n { s.lin n with lastAct := s.now }
      wake ((s.setFld p Fd.LINC_MODE_REQ 1).setLinMode n 1)
    else s.errBy d p Er.LIN_BAUD n v
  else wake ((s.setFld p Fd.LINC_MODE_REQ req).linSettle n)

/-- LINC_MODE_REQ (R133). -/
def execLincModeReq (t d n v : Nat) (s : State) : Res :=
  live t s fun s => if n < 8 then s.judged d (pLINC n * 4096 + Reg.LINC_MODE) 32 v fun s => s.lincModeWrite d n v else s

/-- LIN_WAKE: a write of LINC_MODE with WAKE = 1 (R124). -/
def execLinWake (t d n v : Nat) (s : State) : Res :=
  live t s fun s =>
    let v := v ||| 4096
    if n < 8 then s.judged d (pLINC n * 4096 + Reg.LINC_MODE) 32 v fun s => s.lincModeWrite d n v else s

/-! ### Schedules (R122, R123) -/

/-- Entry 0 of a schedule table is valid. -/
def State.linTabOk (s : State) (n tab : Nat) : Bool := fget (s.linSched n tab 0) En.SCHE_VALID = 1

/-- A write of LINC_SCHED: SWITCH and GO (R123). -/
def State.lincSchedWrite (s : State) (d n v : Nat) : State :=
  let p := pLINC n
  let a := p * 4096 + Reg.LINC_SCHED
  let cur := s.fld p Fd.LINC_SCHED_CUR
  let sw := v.testBit 1
  let go := v.testBit 0
  if (sw && !(s.linTabOk n (1 - cur))) || (go && !(s.linTabOk n cur)) then s.refuse d a v Er.REG_BAD_VALUE
  else
    let was := s.flag p Fd.LINC_SCHED_GO
    let s := s.setFlag p Fd.LINC_SCHED_GO go
    let s := if sw then s.setLin n { s.lin n with switch := true } else s
    if go && !was then (s.setFld p Fd.LINC_SCHED_POS 0).setLin n { s.lin n with slot := none } else s

/-- SCHED_SWITCH (R123). -/
def execSchedSwitch (t d n v : Nat) (s : State) : Res :=
  live t s fun s => if n < 8 then s.judged d (pLINC n * 4096 + Reg.LINC_SCHED) 32 v fun s => s.lincSchedWrite d n v else s

/-- SCHED_GO (R123). -/
def execSchedGo (t d n v : Nat) (s : State) : Res :=
  live t s fun s => if n < 8 then s.judged d (pLINC n * 4096 + Reg.LINC_SCHED) 32 v fun s => s.lincSchedWrite d n v else s

/-- The header of identifier `id` starts at `start`. -/
def State.linHeader (s : State) (n id start : Nat) (event : Bool) : State :=
  (s.setLin n { s.lin n with frame := some ⟨id, start, 4, event, []⟩, lastAct := start }).emit (.sent "lin header" [n, id])

/-- Go-to-sleep data: 0x00 and seven bytes of 0xFF (R122). -/
def gtsData : List Nat := [0, 255, 255, 255, 255, 255, 255, 255]

/-- The action of the slot that starts at `start` (R122). -/
def State.linSlotAction (s : State) (n start : Nat) (e : Entry) : State :=
  let x := s.lin n
  let id := fget e En.SCHE_ID
  let resp := s.linResp n id
  if start < x.holdoff || x.frame.isSome then s
  else if x.gts || fget e En.SCHE_TYPE = 3 then
    let s := s.linHeader n 60 start false
    s.setLin n { s.lin n with gts := false, gtsNow := true }
  else if fget e En.SCHE_TYPE = 2 && !(fget resp En.RESP_VALID = 1 && fget resp En.RESP_DIR = 1 && fget resp En.RESP_UPDATED = 1) then s
  else s.linHeader n id start (fget e En.SCHE_TYPE = 1)

/-- A slot boundary of a master at stamp `start`: sleep after a go-to-sleep slot, a pending switch, the next entry. -/
def State.linSlot (s : State) (n start : Nat) : State :=
  let p := pLINC n
  let x := s.lin n
  if x.gtsNow then (s.setLin n { x with slot := none, gtsNow := false }).linSleep n
  else
    let cur := s.fld p Fd.LINC_SCHED_CUR
    let pos := s.fld p Fd.LINC_SCHED_POS
    let s := if x.switch then
        let s := (s.setFld p Fd.LINC_SCHED_CUR (1 - cur)).setFld p Fd.LINC_SCHED_POS 0
        let s := s.setLin n { x with switch := false }
        (s.linEvent n 4 start).raise p Iq.LINC_SCHED_SWITCH
      else if x.slot.isNone then s
      else
        let next := pos + 1
        let ok := next < 64 && fget (s.linSched n cur next) En.SCHE_VALID = 1
        s.setFld p Fd.LINC_SCHED_POS (if ok then next else 0)
    let e := s.linSched n (s.fld p Fd.LINC_SCHED_CUR) (s.fld p Fd.LINC_SCHED_POS)
    let s := s.setLin n { s.lin n with slot := some (start, fget e En.SCHE_SLOT * 100000) }
    s.linSlotAction n start e

/-- SCHEDULE_SLOT: the slot boundary (R122). -/
def execScheduleSlot (t n : Nat) (s : State) : Res :=
  linRun t n s fun s =>
    if s.linMode n = 1 && s.linRole n = 0 && s.flag (pLINC n) Fd.LINC_SCHED_GO then
      match (s.lin n).slot with
      | none => s.linSlot n s.now
      | some (st, len) => if st + len ≤ s.now then s.linSlot n (st + len) else s
    else s

/-! ### Frames (R118 to R121) -/

/-- The interrupt source, counter and code of a status other than OK. -/
def linBad : Nat → Option (Nat × Nat × Nat)
  | 1 => some (Iq.LINC_NO_RESP, Cn.LINC_NO_RESP, Er.LIN_NO_RESP)
  | 2 => some (Iq.LINC_CSUM, Cn.LINC_CSUM, Er.LIN_CSUM)
  | 3 => some (Iq.LINC_BIT_ERR, Cn.LINC_BIT_ERR, Er.LIN_BIT)
  | 4 => some (Iq.LINC_SYNC_ERR, Cn.LINC_SYNC_ERR, Er.LIN_SYNC)
  | 5 => some (Iq.LINC_FRAMING, Cn.LINC_FRAMING, Er.LIN_FRAMING)
  | 6 => some (Iq.LINC_EVT_COLL, Cn.LINC_EVT_COLL, Er.LIN_EVT_COLL)
  | _ => none

/-- A frame closes with a status: deliveries of R121, the response entry, go-to-sleep (R124).
DEDUCED, unsafe (notes/assumptions/31.md). -/
def State.linClose (s : State) (n : Nat) (x : LinFrame) (status : Nat) (data : List Nat) (fin : Nat) : State :=
  let p := pLINC n
  let s := s.setLin n { s.lin n with frame := none, lastAct := fin }
  let e := s.linResp n x.id
  let dir := x.dir
  let s := if dir = 0 then s
    else
      let w0 := x.id * 1024 + dir * 256 + status * 16 + data.length
      let bytes := fitTo 0 8 data
      let s := match linBad status with
        | some (irq, cnt, code) => ((s.inc p cnt).raise p irq).err p code n
        | none =>
          let s := s.inc p Cn.LINC_FRAMES_OK
          let s := if s.flag p Fd.LINC_CFG_TO_ROUTER then
              s.srtPut { kind := 1, ch := n, stamp := fin, f := { id := x.id, len := data.length, data := data } }
            else s
          let s := if (s.fld pTRN Fd.TRN_TAP_MISC_LIN).testBit n then
              s.tap false 0x12 n fin s.coarseBit (leBytes 4 w0 ++ leBytes 4 (fin - x.start) ++ bytes)
            else s
          if x.id = 60 && fget e En.RESP_VALID = 0 then s
          else if dir = 1 then s.setEnt p 0 0 x.id (fput (s.linResp n x.id) En.RESP_UPDATED 0)
          else s.setEnt p 0 0 x.id (fput (s.linResp n x.id) En.RESP_DATA (leNat bytes))
      let s := if fget e En.RESP_VALID = 1 && fget e En.RESP_IRQ_EN = 1 then s.raise p Iq.LINC_RESP_RX else s
      if fget e En.RESP_VALID = 1 && fget e En.RESP_QUEUE = 1 then
        s.wqPut (24 + n) ([w0, x.start % 2 ^ 32, x.start / 2 ^ 32, fin % 2 ^ 32, fin / 2 ^ 32] ++ packWords bytes)
      else s
  let s := s.nmLinRx n fin
  let asleep := x.id = 60 && status = 0 && data = gtsData && s.linMode n = 1 && !((s.lin n).gtsNow)
  (if asleep then s.linSleep n else s).linSettle n

/-- What the channel does with a response: Table 1's DIR, or 0 when it ignores the frame.
DEDUCED, unsafe (notes/assumptions/31.md). -/
def State.linDir (s : State) (n id : Nat) : Nat :=
  let e := s.linResp n id
  if fget e En.RESP_VALID = 0 then 0
  else if s.linRole n = 2 then 3
  else if fget e En.RESP_DIR = 1 then 1 else if fget e En.RESP_DIR = 2 then 2 else 0

/-- The PID field of a header has ended: the response is published with the entry's data of this cycle, received, watched
for go-to-sleep, or ignored (R119, R124). -/
def State.linPid (s : State) (n id start : Nat) (event own : Bool) : State :=
  let x := s.lin n
  let e := s.linResp n id
  if own && x.gtsNow && id = 60 then s.setLin n { x with frame := some ⟨60, start, 1, false, gtsData⟩ }
  else
    let dir := s.linDir n id
    if dir = 0 && id ≠ 60 then (s.setLin n { x with frame := none }).linSettle n
    else
      let data := if dir = 1 then (leBytes 8 (fget e En.RESP_DATA)).take (fget e En.RESP_LEN) else []
      let s := s.setLin n { x with frame := some ⟨id, start, dir, event, data⟩, lastAct := s.now }
      if dir = 1 then s.emit (.sent "lin response" (n :: id :: data)) else s

/-- LIN_HEADER_RECEIVED: `dev` is the deviation of the sync field in per mille (R118, R119). A master hears its own
header.
DEDUCED, unsafe (notes/assumptions/31.md). -/
def execLinHeaderReceived (t n id start dev : Nat) (s : State) : Res :=
  linRun t n s fun s =>
    if s.linMode n ≠ 1 || 64 ≤ id then s
    else match (s.lin n).frame with
      | some x => if x.dir = 4 then s.linPid n x.id x.start x.event true else s
      | none =>
        if s.linRole n = 0 then s
        else
          let start := linStamp start
          if s.linRole n = 1 && s.flag (pLINC n) Fd.LINC_CFG_AUTO_SYNC && 150 < dev then
            s.linClose n ⟨id, start, s.linDir n id, false, []⟩ 4 [] (linStamp s.now)
          else s.linPid n id start false false

/-- LIN_FRAME_END: a response completes, or a bit read back differs (R120, R121).
DESIGN CHOICE, safe (notes/assumptions/15.md). -/
def execLinFrameEnd (t n : Nat) (e : LinEnd) (s : State) : Res :=
  linRun t n s fun s =>
    match (s.lin n).frame with
    | some x =>
      if x.dir = 4 then s
      else
        let data := if x.dir = 1 then x.data else e.data.take 8
        let st := if x.dir = 1 && e.bitErr then 3 else if e.csumOk then 0 else if x.event then 6 else 2
        s.linClose n x st data (linStamp e.fin)
    | none => s

/-- LIN_RESPONSE_TIMEOUT: RESP_PCT % of the nominal frame time has passed without a complete response (R120). -/
def execLinResponseTimeout (t n : Nat) (got : List Nat) (s : State) : Res :=
  linRun t n s fun s =>
    match (s.lin n).frame with
    | some x =>
      let len := fget (s.linResp n x.id) En.RESP_LEN
      let limit := s.linFrameNs n (if x.dir = 0 then 8 else len) * s.fld (pLINC n) Fd.LINC_TIMING_RESP_PCT / 100
      if (x.dir = 2 || x.dir = 3 || x.dir = 0) && x.start + limit ≤ s.now then
        s.linClose n x (if got.isEmpty then 1 else 5) (got.take 8) (linStamp s.now)
      else s
    | none => s

/-- The router writes published data (R119): only an entry with SRC = 1 takes it. -/
def State.linRouterData (s : State) (n id : Nat) (data : List Nat) : State :=
  let e := s.linResp n id
  if fget e En.RESP_SRC = 1 then
    s.setEnt (pLINC n) 0 0 id (fput (fput e En.RESP_DATA (leNat (fitTo 0 8 data))) En.RESP_UPDATED 1)
  else s.inc (pLINC n) Cn.LINC_ROUTER_IGNORED

/-! ### Sleep and wake (R124) -/

/-- LIN_WAKE_RECEIVED: a dominant level of `dur` ns has ended (R124, R361). -/
def execLinWakeReceived (t n dur : Nat) (s : State) : Res :=
  always t s fun s =>
    if 8 ≤ n || dur ≤ 150000 then s
    else
      let s := if s.runs? && s.linMode n = 2 then s.linAwake n 2 else s
      if s.ldie.linArmed.contains n then s.segWake (s.clOfLin n) ⟨8, n, s.wakeStamp s.now⟩ else s

/-- LIN_IDLE_SLEEP: a slave sleeps after 4 s of bus inactivity (R124). -/
def execLinIdleSleep (t n : Nat) (s : State) : Res :=
  linRun t n s fun s =>
    if s.linMode n = 1 && s.linRole n = 1 && s.flag (pLINC n) Fd.LINC_CFG_IDLE_SLEEP && (s.lin n).frame.isNone
        && (s.lin n).lastAct + 4000000000 ≤ s.now then s.linSleep n else s

/-- LIN_WAKE_HOLDOFF_END: 100 ms after a wake the master may send headers again (R124). -/
def execLinWakeHoldoffEnd (t n : Nat) (s : State) : Res :=
  linRun t n s fun s => if (s.lin n).holdoff ≤ s.now then s.setLin n { s.lin n with holdoff := 0 } else s

/-- LIN_DOMINANT_TIMEOUT: the line die's driver releases the bus (R543). -/
def execLinDominantTimeout (t n : Nat) (s : State) : Res :=
  always t s fun s =>
    if n < 8 && !(s.ldie.linReleased.contains n) then { s with ldie := { s.ldie with linReleased := n :: s.ldie.linReleased } }
    else s

/-! ### Register writes of a LINC page (R134, Table 5) -/

/-- A write of a LINC register that has no row of its own. -/
def State.lincWrite (s : State) (d n off w : Nat) : State :=
  let a := pLINC n * 4096 + off
  let w' := BitVec.ofNat 32 w
  let bad := s.refuse d a w Er.REG_BAD_VALUE
  let stopOnly := off = Reg.LINC_CFG || off = Reg.LINC_BAUD || off = Reg.LINC_TIMING
  let out := fun (f : Fld) lo hi => fget w' f < lo || hi < fget w' f
  if stopOnly && s.linMode n ≠ 0 then bad
  else if off = Reg.LINC_CFG && fget w' Fd.LINC_CFG_ROLE = 3 then bad
  else if off = Reg.LINC_BAUD && out Fd.LINC_BAUD_DIV 4000 80000 then bad
  else if off = Reg.LINC_TIMING && (out Fd.LINC_TIMING_BREAK 13 26 || out Fd.LINC_TIMING_RESP_PCT 100 200
      || out Fd.LINC_TIMING_WAKE_US 250 5000) then bad
  else s.store a w

end Sys2Proof.Machine
end

