-- ==== Sys2Proof/Machine/SrtOps.lean ====
section
/-!
DEFINITION. The signal router's operations: generations and route states, signal maps and images (R148 to R153), the
construction of outputs (R145, R146), and the IEEE 1722 tunnel (R164 to R169).
-/

namespace Sys2Proof.Machine

/-- A source frame under way through steps 4 to 6 of R144: its route and bank, its class (0 CAN or CAN XL, 1 LIN, 2 serial,
3 an image), the frame, 9-bit characters, the channel of its event items, the bus identifier of its ACF messages, its
stamp, and the AUTH_FAIL flag (R147). -/
structure RSrc where
  route : Nat
  bank : Nat
  cls : Nat
  f : CanFrame
  w9 : Bool := false
  ch : Nat := 0
  bus : Nat := 0
  stamp : Nat
  auth : Bool := false
deriving DecidableEq, Repr

/-! ### Generations (R140, R141) -/

def State.srtDraining (s : State) : Bool := s.flag pSRT Fd.STATUS_DRAINING

/-- The bank of an event with a stamp (R140). -/
def State.srtBank (s : State) (stamp : Nat) : Nat :=
  let b := s.fld pSRT Fd.SRT_GEN_BANK
  if s.srtDraining && stamp ≤ s.srt.commit then 1 - b else b

def State.routeE (s : State) (bank idx : Nat) : Entry := s.ent pSRT 0 bank idx

/-- ROUTE_STATE of a route (Table 17) and what it holds beside it. -/
def State.rstE (s : State) (idx : Nat) : Entry := s.ent pSRT 4 0 idx

def State.setRstE (s : State) (idx : Nat) (e : Entry) : State := s.setEnt pSRT 4 0 idx e

def State.rstF (s : State) (idx : Nat) (f : Fld) : Nat := fget (s.rstE idx) f

def State.setRstF (s : State) (idx : Nat) (f : Fld) (x : Nat) : State := s.setRstE idx (fput (s.rstE idx) f x)

def State.rroute (s : State) (idx : Nat) : RRoute := smGet {} idx s.srt.routes

def State.setRroute (s : State) (idx : Nat) (x : RRoute) : State := s.setSrt { s.srt with routes := smSet {} idx x s.srt.routes }

/-- The state of the previous generation that an event with a stamp finds, when a commit has reset the route (R140). -/
def State.srtPrev (s : State) (idx stamp : Nat) : Option (Entry × RRoute) :=
  if s.srtDraining && stamp ≤ s.srt.commit then smGet none idx s.srt.prev else none

/-- Run `f` on the route state of the event's generation. -/
def State.inGen (s : State) (idx stamp : Nat) (f : State → State) : State :=
  match s.srtPrev idx stamp with
  | none => f s
  | some (e, r) =>
    let e0 := s.rstE idx
    let r0 := s.rroute idx
    let s := f ((s.setRstE idx e).setRroute idx r)
    let s := s.setSrt { s.srt with prev := smSet none idx (some (s.rstE idx, s.rroute idx)) s.srt.prev }
    (s.setRstE idx e0).setRroute idx r0

/-- The router processes events: enabled and not frozen (R174, R557). -/
def State.srtActs (s : State) : Bool := s.enabled pSRT && !(s.frozen pSRT)

/-- A route entry is supervised (R154). -/
def State.supervised (s : State) (e : Entry) : Bool :=
  fget e En.ROUTE_VALID = 1 && fget e En.ROUTE_KIND = 0 && fget e En.ROUTE_TMO ≠ 0 && s.flag pSRT Fd.SRT_CFG_SUPERVISE
    && s.enabled pSRT

/-- A deadline that counts from stamp `a` (R154). -/
def deadlineFrom (e : Entry) (a : Nat) : Nat := (a + fget e En.ROUTE_TMO * 100000) % 2 ^ 64

/-- Set a route's deadline from stamp `a`, or none when it is not supervised. -/
def State.armRoute (s : State) (idx : Nat) (e : Entry) (a : Nat) : State :=
  s.setRstF idx En.RSTATE_DEADLINE (if s.supervised e then deadlineFrom e a else 0)

/-- The route's state is reset to IDLE and counts from stamp `a` (Table 9). -/
def State.resetRoute (s : State) (idx : Nat) (e : Entry) (a : Nat) : State :=
  ((s.setRstE idx 0).setRroute idx { act := a }).armRoute idx e a

/-! ### Fields of payloads and images (R148) -/

/-- Positions of a big-endian field, most significant bit first. -/
def bePos : Nat → Nat → List Nat
  | 0, _ => []
  | n + 1, p => p :: bePos n (if p % 8 = 0 then p + 15 else p - 1)

/-- Positions of a field, least significant bit first: order 0 little-endian, 1 big-endian. -/
def fieldPos (order start len : Nat) : List Nat :=
  if order = 0 then (List.range len).map (start + ·) else (bePos len start).reverse

/-- The value of the bits at some positions of a number, least significant first. -/
def getField (x : Nat) (ps : List Nat) : Nat := ps.foldr (fun p v => 2 * v + b2n (x.testBit p)) 0

/-- Bit `p` of a number set to `b`. -/
def setBitTo (x p : Nat) (b : Bool) : Nat := if x.testBit p = b then x else if b then x + 2 ^ p else x - 2 ^ p

/-- Write the low bits of `v` at some positions. -/
def putField (x : Nat) : List Nat → Nat → Nat
  | [], _ => x
  | p :: ps, v => putField (setBitTo x p (v % 2 = 1)) ps (v / 2)

/-- Image `i` as a number of 512 bits: bit p of the payload is bit p. -/
def State.image (s : State) (i : Nat) : Nat := (s.ent pSRT 3 0 (2 * i)).toNat + 2 ^ 256 * (s.ent pSRT 3 0 (2 * i + 1)).toNat

def State.setImage (s : State) (i x : Nat) : State :=
  (s.setEnt pSRT 3 0 (2 * i) (BitVec.ofNat 256 x)).setEnt pSRT 3 0 (2 * i + 1) (BitVec.ofNat 256 (x / 2 ^ 256))

/-- A map writes its field; `ub` sets or clears its update bit, and the record follows (R149, R150, R152).
DEDUCED, unsafe (notes/assumptions/34.md). -/
def State.mapWrite (s : State) (e : Entry) (v : Nat) (ub : Bool) : State :=
  let i := fget e En.MAP_DST_IMG
  let x := putField (s.image i) (fieldPos (fget e En.MAP_DORD) (fget e En.MAP_DSTART) (fget e En.MAP_DLEN)) v
  if fget e En.MAP_DST_UB_EN = 1 then
    let b := fget e En.MAP_DST_UB
    let rest := (smGet [] i s.srt.ubits).filter (· ≠ b)
    let l := if ub then b :: rest else rest
    (s.setImage i (setBitTo x b ub)).setSrt { s.srt with ubits := smSet [] i l s.srt.ubits }
  else s.setImage i x

/-- Image routes of a bank that name image `i`. -/
def State.imageRoutes (s : State) (bank : Nat) (hit : Entry → Bool) : List Nat :=
  ((s.tabList pSRT 0 bank).filter fun x => fget x.2 En.ROUTE_VALID = 1 && fget x.2 En.ROUTE_KIND = 1 && hit x.2).map (·.1)

/-- Every image route that names image `i` becomes pending (R152). -/
def State.imagePend (s : State) (bank i : Nat) : State :=
  (s.imageRoutes bank fun e => fget e En.ROUTE_IMG = i).foldl (fun s r => s.setRroute r { s.rroute r with pending := true }) s

/-- The key of a map's condition state: a map that a commit changed keeps its old state for the generation that drains
(R140, R151). -/
def State.mapKey (s : State) (bank m : Nat) : Nat :=
  let b := s.fld pSRT Fd.SRT_GEN_BANK
  if bank ≠ b && s.ent pSRT 2 bank m ≠ s.ent pSRT 2 b m then m + 32768 else m

/-- The comparison of a map (R151): its result. -/
def mapCompare (e : Entry) (v : Nat) (prev : Option Nat) : Bool :=
  let n := fget e En.MAP_DLEN
  let c := fget e En.MAP_CMP_VAL % 2 ^ n
  let x : Int := if fget e En.MAP_EXT = 1 then sgn n v else v
  let y : Int := if fget e En.MAP_EXT = 1 then sgn n c else c
  match fget e En.MAP_CMP with
  | 1 => decide (x = y)
  | 2 => decide (x ≠ y)
  | 3 => decide (x > y)
  | 4 => decide (x < y)
  | 5 => match prev with
    | some p => p ≠ v
    | none => false
  | _ => false

/-- A map runs on a source frame (R149, R151). -/
def State.mapRun (s : State) (x : RSrc) (m : Nat) : State :=
  let e := s.ent pSRT 2 x.bank m
  if fget e En.MAP_VALID = 0 then s
  else
    let n := 8 * x.f.data.length
    let num := leNat x.f.data
    let ps := fieldPos (fget e En.MAP_SORD) (fget e En.MAP_SSTART) (fget e En.MAP_SLEN)
    let ubOn : Bool := fget e En.MAP_SRC_UB_EN = 1
    let ub := fget e En.MAP_SRC_UB
    if ps.any (n ≤ ·) || (ubOn && n ≤ ub) then s.inc pSRT Cn.SRT_MAP_SHORT
    else if ubOn && !(num.testBit ub) then s
    else
      let slen := fget e En.MAP_SLEN
      let dlen := fget e En.MAP_DLEN
      let v0 := getField num ps
      let v := if fget e En.MAP_EXT = 1 then unsgn dlen (sgn slen v0) else v0
      let s := (s.mapWrite e v true).imagePend x.bank (fget e En.MAP_DST_IMG)
      let cmp := fget e En.MAP_CMP
      if cmp = 0 then s
      else
        let k := s.mapKey x.bank m
        let st := smGet {} k s.srt.maps
        let now := mapCompare e v st.value
        let fire := if cmp = 5 then now else now && !st.prev
        let s := s.setSrt { s.srt with maps := smSet {} k ⟨now, some v⟩ s.srt.maps }
        if !fire then s
        else
          let s := if fget e En.MAP_ACT_QUOTE = 1 then s.quote 4 x.stamp (m % 256) else s
          if fget e En.MAP_ACT_EVENT = 1 then s.srtEvent 8 x.route x.stamp m x.ch 0 x.auth else s

/-- The maps of a route in ascending index (R144). -/
def mapsOf (e : Entry) : List Nat := (List.range (fget e En.ROUTE_MAP_COUNT)).map (fget e En.ROUTE_MAP_BASE + ·)

/-- Substitution when a route times out (R150). -/
def State.mapSubst (s : State) (bank m : Nat) : State :=
  let e := s.ent pSRT 2 bank m
  if fget e En.MAP_VALID = 1 && fget e En.MAP_SUB_EN = 1 then
    (s.mapWrite e (fget e En.MAP_SUBST) false).imagePend bank (fget e En.MAP_DST_IMG)
  else s

/-! ### The tunnel's transmit side (R165 to R168) -/

/-- The value of view TS_VIEW at a stamp, or none when the view is disabled (R167). -/
def State.tsView (s : State) (stamp : Nat) : Option Nat :=
  let v := s.fld pSRT Fd.SRT_CFG_TS_VIEW
  if s.viewOn v then (s.viewAt v (stamp * 65536)).map fun x => x / 65536 % 2 ^ 64 else none

/-- A PDU closes and is handed to port 34: whole, or discarded when F is smaller than its cells (R165, R166, R282).
PRESUMED, unsafe (notes/assumptions/25.md). -/
def State.pduClose (s : State) (i : Nat) : State :=
  match smGet none i s.srt.pdus with
  | none => s
  | some p =>
    let g := fun f => s.entF pSRT 5 0 i f
    let seq := g En.TXS_SEQ
    let n := p.bytes.length
    let ts := match s.tsView s.now with
      | some t => (t + g En.TXS_TRANSIT_US * 1000) % 2 ^ 32
      | none => 0
    let hdr := if g En.TXS_SUBTYPE = 0 then [0x82, 0x80 + n / 256 % 8, n % 256, seq] ++ beBytes 8 (g En.TXS_STREAM_ID)
      else [0x05, 0x81, seq, 0] ++ beBytes 8 (g En.TXS_STREAM_ID) ++ beBytes 4 ts ++ [0, 0, 0, 0] ++ beBytes 2 n ++ [0, 0]
    let mac := s.rd pSRT Reg.SRT_MAC_LO + 2 ^ 32 * (s.rd pSRT Reg.SRT_MAC_HI % 65536)
    let body := beBytes 6 (g En.TXS_DA) ++ beBytes 6 mac ++ [0x81, 0x00] ++ beBytes 2 (g En.TXS_PCP * 8192 + g En.TXS_VID)
      ++ [0x22, 0xF0] ++ hdr ++ p.bytes
    let body := if body.length < 60 then fitTo 0 60 body else body
    let frame := body ++ fcsOf body
    let s := (s.setSrt { s.srt with pdus := smSet none i none s.srt.pdus }).setEntF pSRT 5 0 i En.TXS_SEQ (seq + 1)
    let s := s.inc pSRT Cn.SRT_PDU_TX
    if s.free < cellsOf frame.length then s.inc pSWC Cn.SWC_TUNNEL_DROP
    else s.frontPut 1 frame { port := 34, stamp := s.now, frac := s.nowFrac, fin := s.now }

/-- A message joins the PDU of stream `i`, or opens one (R166).
DEDUCED, unsafe (notes/assumptions/35.md). -/
def State.pduAdd (s : State) (i stamp : Nat) (msg : List Nat) : State :=
  let g := fun f => s.entF pSRT 5 0 i f
  if g En.TXS_VALID = 0 then s
  else if g En.TXS_MAX_BYTES < msg.length then s.inc pSRT Cn.SRT_OVERSIZE
  else
    let s := s.inc pSRT Cn.SRT_FWD_TUNNEL
    let s := match smGet none i s.srt.pdus with
      | some p => if p.ends < stamp || g En.TXS_MAX_BYTES < p.bytes.length + msg.length then s.pduClose i else s
      | none => s
    let p : Pdu := match smGet none i s.srt.pdus with
      | some p => { p with bytes := p.bytes ++ msg }
      | none => { ends := stamp + g En.TXS_WINDOW_US * 1000, bytes := msg }
    let s := s.setSrt { s.srt with pdus := smSet none i (some p) s.srt.pdus }
    if g En.TXS_WINDOW_US = 0 then s.pduClose i else s

/-- Quadlet padding. -/
def quadPad (n : Nat) : Nat := (4 - n % 4) % 4

/-- An ACF message: type and length in quadlets, the rest of the header, the payload, padded with zeros (R167).
PRESUMED, unsafe (notes/assumptions/25.md). -/
def acfBytes (typ : Nat) (hdr : Nat → List Nat) (payload : List Nat) : List Nat :=
  let pad := quadPad payload.length
  let rest := hdr pad ++ payload ++ fitTo 0 pad []
  let q := (rest.length + 2) / 4
  [typ * 2 + q / 256 % 2, q % 256] ++ rest

/-- The ACF message of an output frame of class `cls` (R167, Table 6).
DEDUCED, unsafe (notes/assumptions/35.md). -/
def State.acfMsg (s : State) (x : RSrc) (f : CanFrame) (brief : Bool) : List Nat :=
  let (mtv, ts) := match s.tsView x.stamp with
    | some t => (1, t)
    | none => (0, 0)
  let bus := x.bus % 32
  if x.cls = 1 then acfBytes 3 (fun pad => [pad * 64 + mtv * 32 + bus, f.id % 64] ++ beBytes 8 ts) f.data
  else if x.cls = 2 || f.fmt = 4 then
    let xl := x.cls ≠ 2
    let payload := if x.w9 then f.data.flatMap (beBytes 2) else f.data
    acfBytes 0x78 (fun pad => [pad * 64 + mtv * 32 + bus, b2n xl * 64 + b2n (xl && f.sec) * 32] ++ beBytes 8 ts
      ++ beBytes 2 (if xl then f.id % 2048 else 0) ++ [if xl then f.sdt else 0, if xl then f.vcid else 0]
      ++ beBytes 4 (if xl then f.af else 0) ++ beBytes 2 payload.length ++ [0, 0]) payload
  else
    let flags := b2n f.rtr * 16 + b2n f.ext * 8 + b2n f.brs * 4 + b2n (2 ≤ f.fmt) * 2 + b2n f.esi
    if brief then acfBytes 2 (fun pad => [pad * 64 + flags, bus] ++ beBytes 4 f.busId) f.data
    else acfBytes 1 (fun pad => [pad * 64 + mtv * 32 + flags, bus] ++ beBytes 8 ts ++ beBytes 4 f.busId) f.data

/-! ### Destinations (R145, R146) -/

/-- A field of slot `k` of a destination entry. -/
def slotFld (e : Entry) (k : Nat) (f : Fld) : Nat := bitsOf e (64 * k + f.lo) f.w

/-- The identifier of a source frame (R143, R145). -/
def RSrc.ident (x : RSrc) : Nat :=
  if x.cls = 0 then (if x.f.fmt = 4 then x.f.id % 2048 else x.f.busId)
  else if x.cls = 1 then x.f.id % 64
  else if x.cls = 2 then x.f.data.headD 0
  else 0

/-- The valid FD length at or above `n`. -/
def fdLen (n : Nat) : Nat :=
  if n ≤ 8 then n else (([12, 16, 20, 24, 32, 48].find? (n ≤ ·)).getD 64)

/-- The body of an output with payload limit `cap` (Table 2, R402): payload cut or padded to L, and the trailer when the slot
authenticates; none when the generation sends nothing. -/
def State.outBody (s : State) (x : RSrc) (e : Entry) (k cap idw pad : Nat) : Option (List Nat) × State :=
  let len := slotFld e k En.DSTS_LEN
  let want := if len = 0 then x.f.data.length else len
  let n := min want cap
  if slotFld e k En.DSTS_AUTH_EN = 1 then
    let pr := slotFld e k En.DSTS_AUTH
    let tl := s.trailerLen pr
    let l := if cap < n + tl then cap - tl else n
    let s := if l < want then s.inc pSRT Cn.SRT_TRUNC else s
    let payload := fitTo pad l x.f.data
    match s.authGen pr idw payload with
    | (some tr, s) => (some (payload ++ tr), s)
    | (none, s) => (none, s)
  else (some (fitTo pad n x.f.data), if n < want then s.inc pSRT Cn.SRT_TRUNC else s)

/-- A destination refuses the output (R146). -/
def State.srtRefuse (s : State) (x : RSrc) (k place : Nat) : State :=
  ((s.inc pSRT Cn.SRT_DST_REFUSED).srtEvent 9 x.route x.stamp 0 x.ch k x.auth).errRunAt pSRT Er.SRT_DST_REFUSED place x.route 0 x.stamp

/-- The identifier of an output (Table 2), before the format cuts it. -/
def outId (x : RSrc) (e : Entry) (k : Nat) : Nat :=
  let id := slotFld e k En.DSTS_ID
  match slotFld e k En.DSTS_ID_MODE with
  | 0 => id
  | 1 => x.ident
  | _ => x.ident / 256 * 256 + id % 256

/-- The effective format of a CAN output (Table 2). -/
def outFmt (x : RSrc) (e : Entry) (k : Nat) : Nat :=
  let f := slotFld e k En.DSTS_FORMAT
  if f = 7 then (if x.cls = 0 then x.f.fmt else 0) else f

/-- A CAN frame of an output (Table 2), or none when its generation sends nothing. -/
def State.outCan (s : State) (x : RSrc) (e : Entry) (k pad : Nat) : Option CanFrame × State :=
  let fmt := outFmt x e k
  let id := if fmt = 1 || fmt = 3 then outId x e k % 2 ^ 29 else outId x e k % 2 ^ 11
  if x.f.rtr && x.cls = 0 then (some { fmt := fmt, rtr := true, id := id, len := x.f.len }, s)
  else
    let cap := if fmt ≤ 1 then 8 else if fmt ≤ 3 then 64 else 2048
    let idw := b2n (fmt = 1 || fmt = 3) * 2 ^ 31 + id
    match s.outBody x e k cap idw pad with
    | (none, s) => (none, s)
    | (some body, s) =>
      let n := if fmt = 2 || fmt = 3 then fdLen body.length else if fmt = 4 then max 1 body.length else body.length
      let xl := x.cls = 0 && x.f.fmt = 4 && fmt = 4
      let f : CanFrame := { fmt := fmt, id := id, len := n, data := fitTo pad n body,
                            brs := decide (fmt = 2 ∨ fmt = 3) && slotFld e k En.DSTS_BRS = 1 }
      (some (if xl then { f with sdt := x.f.sdt, vcid := x.f.vcid, sec := x.f.sec, af := x.f.af } else f), s)

/-- One destination slot is served (R145 to R147). -/
def State.serveSlot (s : State) (x : RSrc) (e : Entry) (pad k : Nat) : State :=
  let kind := slotFld e k En.DSTS_KIND
  let ch := slotFld e k En.DSTS_CH
  let rtr := x.f.rtr && x.cls = 0
  let place := kind * 64 + ch
  if slotFld e k En.DSTS_VALID = 0 || (rtr && (kind ≠ 0 || 1 < outFmt x e k)) then s
  else
    match kind with
    | 0 =>
      match s.outCan x e k pad with
      | (none, s) => s
      | (some f, s) =>
        if s.rtqRefuses ch then (s.rtqEnter ch f s.now 0).srtRefuse x k place
        else if !(s.canFmtOn ch f.fmt) then s.srtRefuse x k place
        else ((s.rtqEnter ch f s.now 0).inc pSRT Cn.SRT_FWD_CAN).endRun pSRT Er.SRT_DST_REFUSED place
    | 1 =>
      let id := outId x e k % 64
      match s.outBody x e k 8 id pad with
      | (none, s) => s
      | (some body, s) =>
        let on := fget (s.linResp ch id) En.RESP_SRC = 1
        let s := s.linRouterData ch id (fitTo pad 8 body)
        if on then s.inc pSRT Cn.SRT_FWD_LIN else s
    | 2 =>
      match s.outBody x e k 1024 0 pad with
      | (none, s) => s
      | (some body, s) =>
        if s.serRtqRefuses ch then s.srtRefuse x k place
        else ((s.serRtqEnter ch body s.now).inc pSRT Cn.SRT_FWD_SER).endRun pSRT Er.SRT_DST_REFUSED place
    | _ =>
      let brief := s.entF pSRT 5 0 ch En.TXS_BRIEF = 1
      if x.cls = 1 || x.cls = 2 then
        match s.outBody x e k (if x.cls = 1 then 8 else 1024) (if x.cls = 1 then outId x e k % 64 else 0) pad with
        | (none, s) => s
        | (some body, s) => s.pduAdd ch x.stamp (s.acfMsg x { x.f with id := outId x e k, data := body } brief)
      else
        match s.outCan x e k pad with
        | (none, s) => s
        | (some f, s) => s.pduAdd ch x.stamp (s.acfMsg x f brief)

/-- Destination slots 0 to 3 in order. -/
def State.serveAll (s : State) (x : RSrc) : State :=
  let e := s.ent pSRT 1 x.bank x.route
  let pad := fget (s.routeE x.bank x.route) En.ROUTE_PAD
  foldN 4 (fun k s => s.serveSlot x e pad k) s

/-! ### Image sends (R152) -/

/-- An image route sends its image: copied, recorded update bits cleared, not pending, slots served.
DEDUCED, unsafe (notes/assumptions/34.md). -/
def State.imageSend (s : State) (idx bank : Nat) : State :=
  let i := fget (s.routeE bank idx) En.ROUTE_IMG
  let x := s.image i
  let s := s.setImage i ((smGet [] i s.srt.ubits).foldl (fun x b => setBitTo x b false) x)
  let s := s.setSrt { s.srt with ubits := smSet [] i [] s.srt.ubits }
  let s := (s.setRroute idx { s.rroute idx with pending := false, lastSend := some s.now }).inc pSRT Cn.SRT_EVENTS
  s.serveAll { route := idx, bank := bank, cls := 3, f := { len := 64, data := leBytes 64 x }, stamp := s.now }

/-- A pending image route may send: TX_MODE 0 or 2, MIN_GAP after its last send. -/
def State.imageReady (s : State) (idx bank : Nat) : Bool :=
  let e := s.routeE bank idx
  let r := s.rroute idx
  fget e En.ROUTE_VALID = 1 && fget e En.ROUTE_KIND = 1 && fget e En.ROUTE_TX_MODE ≠ 1 && r.pending
    && (match r.lastSend with
      | some t => t + fget e En.ROUTE_MIN_GAP * 100000 ≤ s.now
      | none => true)

/-- Step 6 of R144: pending image routes that may send do, in ascending index. -/
def State.imageFlush (s : State) (bank : Nat) : State :=
  (s.imageRoutes bank fun _ => true).foldl (fun s i => if s.imageReady i bank then s.imageSend i bank else s) s

end Sys2Proof.Machine
end

