-- ==== Sys2Proof/Machine/Srt.lean ====
section
/-!
DEFINITION. The signal router's commands (R137 to R175, R557).
-/

namespace Sys2Proof.Machine

/-! ### Arrivals and steps 2 to 6 of R144 -/

/-- An arrival is recorded (R154 to R157, R172). -/
def State.srtArrive (s : State) (idx : Nat) (e : Entry) (ch stamp : Nat) (auth : Bool) : State :=
  let r := s.rroute idx
  let s := if s.rstF idx En.RSTATE_STATE = 2 then
      if r.acted ≠ 0 && stamp ≤ r.acted then
        ((s.srtEvent 2 idx stamp 0 ch 0 auth).inc pSRT Cn.SRT_LATE).errAt pSRT Er.SRT_LATE_ARRIVAL idx 0 stamp
      else s.srtEvent 3 idx stamp 0 ch 0 auth
    else s
  let s := s.setRroute idx { s.rroute idx with acted := 0 }
  let s := (s.setRstF idx En.RSTATE_STATE 1).setRstF idx En.RSTATE_LAST stamp
  (s.setRstF idx En.RSTATE_ARRIVALS (s.rstF idx En.RSTATE_ARRIVALS + 1)).armRoute idx e stamp

/-- The class of an input: a tunnel message counts as what it carries (R143).
DEDUCED, unsafe (notes/assumptions/35.md). -/
def RIn.cls (x : RIn) : Nat := if x.kind = 3 then (if x.msg = 3 then 0 else x.msg) else x.kind

/-- The source frame of an input on a route. -/
def RIn.src (x : RIn) (idx bank : Nat) : RSrc :=
  { route := idx, bank := bank, cls := x.cls, f := x.f, w9 := x.w9, ch := x.ch,
    bus := if x.kind = 3 then x.bus else x.ch, stamp := x.stamp }

/-- The identifier word of bytes 2 to 5 of a tag's message (R400). -/
def RSrc.authId (x : RSrc) : Nat :=
  if x.cls = 0 then b2n x.f.ext * 2 ^ 31 + x.ident else if x.cls = 1 then x.ident else 0

/-- Verification under AUTH_V (R147, R403, R404): the frame to go on with, or none. -/
def State.srtVerify (s : State) (e : Entry) (x : RSrc) : Option RSrc × State :=
  if fget e En.ROUTE_AUTH_V_EN = 0 then (some x, s)
  else
    let pr := fget e En.ROUTE_AUTH_V
    match s.authVerify pr x.authId x.f.data with
    | (some payload, s) => (some { x with f := { x.f with data := payload, len := payload.length } }, s)
    | (none, s) =>
      let act := s.prof pr En.PROF_ACTION
      let fwd : Bool := act = 1 || act = 3
      let s := ((s.srtEvent 7 x.route x.stamp 0 x.ch 0 fwd).inc pSRT Cn.SRT_AUTH_FAIL).errAt pSRT Er.SRT_AUTH_FAIL x.route 0 x.stamp
      let s := if 2 ≤ act then s.quote 5 x.stamp pr else s
      (if fwd then some { x with auth := true } else none, s)

/-- Steps 4 to 6: maps, destination slots, image routes.
DEDUCED, unsafe (notes/assumptions/36.md). -/
def State.srtForward (s : State) (e : Entry) (x : RSrc) : State :=
  let s := if x.f.rtr && x.cls = 0 then s else (mapsOf e).foldl (fun s m => s.mapRun x m) s
  (s.serveAll x).imageFlush x.bank

/-- Steps 2 to 6 for an input that the policy accepts; `arrive` says whether it is still to be recorded as an arrival. -/
def State.srtDeliver (s : State) (idx bank : Nat) (x : RIn) (arrive : Bool) : State :=
  let e := s.routeE bank idx
  match s.srtVerify e (x.src idx bank) with
  | (none, s) => s
  | (some src, s) => (if arrive then s.srtArrive idx e x.ch x.stamp src.auth else s).srtForward e src

/-! ### Source policies (R159 to R163) -/

/-- A frame that the policy discards (R159). -/
def State.srtDiscard (s : State) : State := s.inc pSRT Cn.SRT_SRC_DISCARD

/-- POLICY 3 (R159, R160). -/
def State.srtHold (s : State) (idx bank : Nat) (x : RIn) (period : Nat) : State :=
  let r := s.rroute idx
  let owner := s.rstF idx En.RSTATE_OWNER
  let clash : Bool := match r.ownerLast with
    | some l => x.ch ≠ owner && x.stamp ≤ l + period
    | none => false
  if clash then
    let s := (s.setRstF idx En.RSTATE_HELD 1).srtEvent 4 idx x.stamp 0 owner x.ch false
    ((s.inc pSRT Cn.SRT_SRC_CLASH).errAt pSRT Er.SRT_SRC_CLASH idx x.ch x.stamp).srtDiscard
  else
    ((s.setRstF idx En.RSTATE_OWNER x.ch).setRroute idx { r with ownerLast := some x.stamp }).srtDeliver idx bank x true

/-- Two copies are identical: format, identifier, length and payload (R161).
DEDUCED, unsafe (notes/assumptions/33.md). -/
def sameCopy (a b : RIn) : Bool :=
  a.f.fmt = b.f.fmt && a.f.busId = b.f.busId && a.f.rtr = b.f.rtr && a.f.len = b.f.len && a.f.data = b.f.data

/-- Two copies of a set differ (R163, R323).
DEDUCED, unsafe (notes/assumptions/33.md). -/
def State.srtDisagree (s : State) (idx : Nat) (a b : RIn) : State :=
  let s := (s.srtEvent 6 idx b.stamp 0 a.ch b.ch false).inc pSRT Cn.SRT_DISAGREE
  let s := s.errAt pSRT Er.SRT_DISAGREE idx b.ch b.stamp
  if s.flag pTRN Fd.TRN_TAP_MISC_DISAGREE then
    s.tap false 0x21 0 b.stamp s.coarseBit (leBytes 2 idx ++ [2, 0] ++ leBytes 4 a.f.busId
      ++ copyBlock a.stamp a.ch a.f.data ++ copyBlock b.stamp b.ch b.f.data)
  else s

/-- The channels of a route. -/
def chanCount (e : Entry) : Nat := ((List.range 24).filter fun c => (fget e En.ROUTE_CHMASK).testBit c).length

/-- The copy that Table 4 delivers on the arrival of the last of `l`, if one is, and whether the set is settled. -/
def pickOnArrival (e : Entry) (l : List RIn) (x : RIn) : Option RIn × Bool :=
  let n := chanCount e
  if 3 ≤ n then
    if n / 2 + 1 ≤ (l.filter (sameCopy x)).length then (some x, true) else (none, false)
  else
    match fget e En.ROUTE_DIS, l with
    | 0, _ => (some x, true)
    | 1, _ => if x.ch = fget e En.ROUTE_PREF then (some x, true) else (none, false)
    | _, [a, _] => if sameCopy a x then (some a, true) else (none, true)
    | _, _ => (none, false)

/-- The copy that Table 4 delivers at window end. -/
def pickAtEnd (e : Entry) (l : List RIn) : Option RIn :=
  if 3 ≤ chanCount e then l.find? fun c => l.length < 2 * (l.filter (sameCopy c)).length
  else
    match fget e En.ROUTE_DIS, l with
    | 1, a :: _ => some a
    | 2, [a] => some a
    | _, _ => none

/-- Replace the set that opened with copy `a` at stamp `ends`. -/
def setSet (l : List RSet) (x : RSet) : List RSet := l.map fun y => if y.ends = x.ends then x else y

/-- POLICY 4: a copy joins its set or opens one (R161, R162).
DEDUCED, unsafe (notes/assumptions/33.md). -/
def State.srtRedundant (s : State) (idx bank : Nat) (x : RIn) (period : Nat) : State :=
  let e := s.routeE bank idx
  let r := s.rroute idx
  let newest : Bool := match r.sets with
    | y :: _ => decide (y.ends < x.stamp)
    | [] => true
  let sets := if newest then { ends := x.stamp + period, copies := [] } :: (r.sets.filter fun y => !y.closed) ++ (r.sets.filter (·.closed)).take 1
    else r.sets
  let hit := if newest then sets.head? else
    (r.sets.find? fun y => x.stamp ≤ y.ends && (y.copies.head?.map (·.stamp)).getD 0 ≤ x.stamp).or
      (r.sets.reverse.find? fun y => x.stamp ≤ y.ends)
  match hit with
  | none => s
  | some y =>
    if y.copies.any (·.ch = x.ch) then s.srtDiscard
    else
      let l := y.copies ++ [x]
      let first := l.headD x
      let differs := !(sameCopy first x)
      let report := differs && (!y.diff || y.closed)
      let s := s.setRroute idx { r with sets := setSet sets { y with copies := l, diff := y.diff || differs } }
      let s := if report then s.srtDisagree idx first x else s
      if y.closed then
        ((s.srtArrive idx e x.ch x.stamp false).inc pSRT Cn.SRT_LATE).errAt pSRT Er.SRT_LATE_ARRIVAL idx 0 x.stamp
      else if y.delivered then s.srtArrive idx e x.ch x.stamp false
      else
        let (pick, settled) := pickOnArrival e l x
        let s := s.setRroute idx
          { s.rroute idx with sets := setSet (s.rroute idx).sets { y with copies := l, diff := y.diff || differs, delivered := settled } }
        match pick with
        | some c =>
          if c = x then s.srtDeliver idx bank x true
          else (s.srtArrive idx e x.ch x.stamp false).srtDeliver idx bank c false
        | none => s.srtArrive idx e x.ch x.stamp false

/-- Step 1 of R144: the source policy (Table 3). -/
def State.srtPolicy (s : State) (idx bank : Nat) (x : RIn) : State :=
  let e := s.routeE bank idx
  let r := s.rroute idx
  let period := fget e En.ROUTE_PERIOD * 100000
  if s.rstF idx En.RSTATE_HELD = 1 then s.srtDiscard
  else
    match fget e En.ROUTE_POLICY with
    | 1 =>
      let inside : Bool := match r.periodEnd with
        | some t => decide (x.stamp ≤ t)
        | none => false
      if inside then s.srtDiscard
      else (s.setRroute idx { r with periodEnd := some (x.stamp + period) }).srtDeliver idx bank x true
    | 2 =>
      if x.ch = fget e En.ROUTE_PREF then
        (s.setRroute idx { r with prefLast := some x.stamp }).srtDeliver idx bank x true
      else
        let near : Bool := match r.prefLast with
          | some t => decide (x.stamp ≤ t + period)
          | none => false
        if near then s.srtDiscard else s.srtDeliver idx bank x true
    | 3 => s.srtHold idx bank x period
    | 4 => s.srtRedundant idx bank x period
    | _ => s.srtDeliver idx bank x true

/-! ### ROUTER_INPUT -/

/-- A route matches an input (R143). -/
def routeMatches (e : Entry) (x : RIn) : Bool :=
  let src := x.src 0 0
  let mask := fget e En.ROUTE_CHMASK
  let chan : Bool :=
    if x.kind = 3 then mask % 64 = x.ch && mask / 64 % 32 = x.bus && mask / 2048 % 4 = x.msg else mask.testBit x.ch
  let can : Bool := x.cls ≠ 0 || (fget e En.ROUTE_IDE = b2n x.f.ext && fget e En.ROUTE_XL = b2n (x.f.fmt = 4))
  let m := fget e En.ROUTE_MASK
  fget e En.ROUTE_VALID = 1 && fget e En.ROUTE_KIND = 0 && fget e En.ROUTE_SRC_KIND = x.kind && chan && can
    && (src.ident &&& m = fget e En.ROUTE_ID &&& m)

/-- The route that takes an input: the lowest index (R143). -/
def State.routeOf (s : State) (bank : Nat) (x : RIn) : Option Nat :=
  ((s.tabList pSRT 0 bank).find? fun r => routeMatches r.2 x).map (·.1)

/-- Input `a` is processed before input `b`: stamp, then CAN, LIN, serial, then the channel (R139). -/
def rinBefore (a b : RIn) : Bool :=
  a.stamp < b.stamp || (a.stamp = b.stamp && (a.kind < b.kind || (a.kind = b.kind && a.ch < b.ch)))

/-- The field-bus input that is due first.
DEDUCED, unsafe (notes/assumptions/35.md). -/
def rinHead : List RIn → Option RIn
  | [] => none
  | x :: l => match rinHead l with
    | some y => some (if rinBefore y x then y else x)
    | none => some x

/-- A deadline before this input has not been acted on: the input waits for it (R155).
DEDUCED, unsafe (notes/assumptions/33.md). -/
def State.unsettled (s : State) (idx stamp : Nat) : Bool :=
  let st := match s.srtPrev idx stamp with
    | some (e, _) => e
    | none => s.rstE idx
  let d := fget st En.RSTATE_DEADLINE
  d ≠ 0 && d < stamp && fget st En.RSTATE_STATE ≠ 2

/-- Frame events of an input on a route (R170). -/
def routeCost (e : Entry) : Nat := max 1 ((fget e En.ROUTE_MAP_COUNT + 15) / 16)

/-- The input leaves the queue and is processed (R143, R144). -/
def State.srtInput (s : State) (x : RIn) : State :=
  let bank := if x.kind = 3 then s.fld pSRT Fd.SRT_GEN_BANK else s.srtBank x.stamp
  let drop := fun (s : State) =>
    let r := s.srt
    (s.setSrt (if x.kind = 3 then { r with tunnel := r.tunnel.drop 1 } else { r with field := r.field.erase x })).srtLevel
  match s.routeOf bank x with
  | none => ((drop s).inc pSRT Cn.SRT_EVENTS).inc pSRT Cn.SRT_UNMATCHED
  | some idx =>
    let at_ := if x.kind = 3 then 2 ^ 64 else x.stamp
    if x.kind ≠ 3 && s.unsettled idx x.stamp then s
    else
      let s := ((drop s).addCnt pSRT Cn.SRT_EVENTS (routeCost (s.routeE bank idx))).inc pSRT Cn.SRT_MATCHED
      let s := s.setSrt { s.srt with avtp := x.avtp }
      let s := s.inGen idx at_ fun s => s.srtPolicy idx bank x
      s.setSrt { s.srt with avtp := none }

/-- A held field-bus input whose 1 µs has passed, or a tunnel message, is processed (R139, R144). -/
def execRouterInput (t : Nat) (s : State) : Res :=
  running t s fun s =>
    if !s.srtActs then s
    else
      match s.srt.tunnel with
      | x :: _ => s.srtInput x
      | [] =>
        match rinHead s.srt.field with
        | some x => if x.stamp + 1000 ≤ s.now then s.srtInput x else s
        | none => s

/-! ### Timers -/

/-- A route's deadline is acted on (R155). -/
def State.srtTimeout (s : State) (idx d : Nat) : State :=
  let bank := s.srtBank d
  let e := s.routeE bank idx
  if !(s.supervised e) || s.rstF idx En.RSTATE_STATE = 2 then s
  else
    let s := (s.setRstF idx En.RSTATE_STATE 2).setRstF idx En.RSTATE_DEADLINE 0
    let s := s.setRroute idx { s.rroute idx with acted := d }
    let s := ((mapsOf e).foldl (fun s m => s.mapSubst bank m) s).imageFlush bank
    let s := (s.inc pSRT Cn.SRT_EVENTS).inc pSRT Cn.SRT_TIMEOUTS
    (s.srtEvent 1 idx d 0 0 0 false).errAt pSRT Er.SRT_TIMEOUT idx 0 d

/-- The deadline of route `route` is acted on, at least 4 µs after it (R20, R155). -/
def execSrtTimeout (t route : Nat) (s : State) : Res :=
  running t s fun s =>
    if !s.srtActs then s
    else
      let due := fun (d : Nat) => d ≠ 0 && decide (d + 4000 ≤ s.now)
      let dp := match smGet none route s.srt.prev with
        | some (e, _) => fget e En.RSTATE_DEADLINE
        | none => 0
      let d := s.rstF route En.RSTATE_DEADLINE
      if (s.srtPrev route dp).isSome && due dp then s.inGen route dp fun s => s.srtTimeout route dp
      else if due d then s.srtTimeout route d
      else s

/-- The window-end decision of a set (R161, R162). -/
def State.srtWindowEnd (s : State) (idx : Nat) (y : RSet) : State :=
  let bank := s.srtBank y.ends
  let e := s.routeE bank idx
  let r := s.rroute idx
  let s := (s.setRroute idx { r with sets := setSet r.sets { y with closed := true, delivered := true } }).inc pSRT Cn.SRT_EVENTS
  if y.delivered then s
  else
    match pickAtEnd e y.copies with
    | some c => s.srtDeliver idx bank c false
    | none => s

/-- The oldest set of route `route` whose window has ended at least 4 µs ago is decided (R161). -/
def execRedundancyWindowEnd (t route : Nat) (s : State) : Res :=
  running t s fun s =>
    if !s.srtActs then s
    else
      let due := fun (y : RSet) => !y.closed && decide (y.ends + 4000 ≤ s.now)
      let old : Option RSet := match smGet none route s.srt.prev with
        | some (_, r) => (r.sets.reverse.find? due).filter fun (y : RSet) => (s.srtPrev route y.ends).isSome
        | none => none
      match old with
      | some y => s.inGen route y.ends fun s => s.srtWindowEnd route y
      | none =>
        match (s.rroute route).sets.reverse.find? due with
        | some y => s.srtWindowEnd route y
        | none => s

/-- The next cyclic tick of image route `route` (R152).
DEDUCED, unsafe (notes/assumptions/34.md). -/
def execCyclicTick (t route : Nat) (s : State) : Res :=
  running t s fun s =>
    let r := s.rroute route
    let cur := s.routeE (s.fld pSRT Fd.SRT_GEN_BANK) route
    let at_ := r.act + r.tick * fget cur En.ROUTE_TX_PERIOD * 100000
    let bank := s.srtBank at_
    let e := s.routeE bank route
    if s.srtActs && fget e En.ROUTE_VALID = 1 && fget e En.ROUTE_KIND = 1 && fget e En.ROUTE_TX_MODE ≠ 0
        && fget e En.ROUTE_TX_PERIOD ≠ 0 && decide (at_ ≤ s.now) then
      (s.setRroute route { r with tick := r.tick + 1 }).imageSend route bank
    else s

/-- A pending image route sends once MIN_GAP has passed (R152). -/
def execImageSend (t route : Nat) (s : State) : Res :=
  running t s fun s =>
    let bank := s.srtBank s.now
    if s.srtActs && s.imageReady route bank then s.imageSend route bank else s

/-- The open PDU of transmit stream `i` closes 1 µs after its window end (R166). -/
def execPduWindowEnd (t i : Nat) (s : State) : Res :=
  running t s fun s =>
    match smGet none i s.srt.pdus with
    | some p => if s.srtActs && decide (p.ends + 1000 ≤ s.now) then s.pduClose i else s
    | none => s

/-! ### Register commands -/

/-- A write of SRT_RELEASE (R160): a route that is held, an owner in its CHMASK. -/
def State.srtReleaseWrite (s : State) (d v : Nat) : State :=
  let a := pSRT * 4096 + Reg.SRT_RELEASE
  s.judged d a 32 v fun s =>
    if !(v.testBit 31) then s
    else
      let owner := v / 65536 % 32
      let route := v % 8192
      let e := s.routeE (s.fld pSRT Fd.SRT_GEN_BANK) route
      if s.rstF route En.RSTATE_HELD = 0 || !((fget e En.ROUTE_CHMASK).testBit owner) then s.refuse d a v Er.REG_BAD_VALUE
      else
        let s := (s.setRstF route En.RSTATE_HELD 0).setRstF route En.RSTATE_OWNER owner
        let s := s.setRroute route { s.rroute route with ownerLast := some s.now }
        s.srtEvent 5 route s.now 0 owner 0 false

def execSrtRelease (t d v : Nat) (s : State) : Res := live t s fun s => s.srtReleaseWrite d v

/-- Every supervised route that is not TIMED_OUT counts from stamp `a` (R154, R158). -/
def State.srtRestart (s : State) (a : Nat) : State :=
  (s.tabList pSRT 0 (s.fld pSRT Fd.SRT_GEN_BANK)).foldl (fun s x =>
    if s.rstF x.1 En.RSTATE_STATE = 2 then s else s.armRoute x.1 x.2 a) s

/-- A write of SRT_CFG: SUPERVISE going from 0 to 1 restarts the deadlines; going to 0 leaves none (R154). -/
def State.srtCfgWrite (s : State) (d v : Nat) : State :=
  let a := pSRT * 4096 + Reg.SRT_CFG
  s.judged d a 32 v fun s =>
    let old := s.flag pSRT Fd.SRT_CFG_SUPERVISE
    let s := s.store a v
    if s.flag pSRT Fd.SRT_CFG_SUPERVISE = old then s else s.srtRestart s.now

/-- SUPERVISE goes from 0 to 1: a write of SRT_CFG by domain `d`. -/
def execSuperviseEnable (t d v : Nat) (s : State) : Res := live t s fun s => s.srtCfgWrite d v

/-! ### The tunnel's receive side (R169) -/

/-- Split ACF bytes into messages: none when their lengths do not add up. -/
def acfSplit : Nat → List Nat → Option (List (List Nat))
  | _, [] => some []
  | 0, _ => none
  | n + 1, b0 :: b1 :: r =>
    let len := (b0 % 2 * 256 + b1) * 4
    let m := b0 :: b1 :: r
    if len < 4 || m.length < len then none else (acfSplit n (m.drop len)).map fun l => m.take len :: l
  | _, _ => none

/-- What a message carries: skipped (another ACF type), malformed, or an input. -/
inductive Acf where
  | skip | bad | input (x : RIn)
deriving DecidableEq, Repr

/-- The payload of a message after a header of `h` bytes, less its padding. -/
def acfPayload (m : List Nat) (h : Nat) : Option (List Nat) :=
  let pad := nth 0 m 2 / 64
  if m.length < h + pad then none else some ((m.drop h).take (m.length - h - pad))

/-- Read an ACF message of receive stream `i` (R164, R167, Table 6).
PRESUMED, unsafe (notes/assumptions/25.md). -/
def acfRead (i stamp : Nat) (avtp : Option Nat) (m : List Nat) : Acf :=
  let b := nth 0 m
  let inp := fun (msg bus : Nat) (f : CanFrame) => Acf.input { kind := 3, ch := i, stamp := stamp, f := f, bus := bus, msg := msg, avtp := avtp }
  match b 0 / 2 with
  | 1 | 2 =>
    let h := if b 0 / 2 = 1 then 16 else 8
    match acfPayload m h with
    | none => .bad
    | some p =>
      let ext := (b 2).testBit 3
      let fd := (b 2).testBit 1
      let fmt := b2n fd * 2 + b2n ext
      let id := beNat ((m.drop (h - 4)).take 4) % 2 ^ 29
      let rtr := (b 2).testBit 4
      if !(canLenOk fmt p.length) || (!ext && 2 ^ 11 ≤ id) || (fd && rtr) then .bad
      else inp 0 (b 3 % 32) { fmt := fmt, rtr := rtr, id := id, len := p.length, brs := (b 2).testBit 2, esi := (b 2).testBit 0, data := if rtr then [] else p }
  | 3 =>
    match acfPayload m 12 with
    | none => .bad
    | some p => if 8 < p.length then .bad else inp 1 (b 2 % 32) { id := b 3 % 64, len := p.length, data := p }
  | 0x78 =>
    match acfPayload m 24 with
    | none => .bad
    | some p =>
      let n := beNat ((m.drop 20).take 2)
      if n ≠ p.length then .bad
      else if b 3 / 64 = 0 then (if 1024 < n then .bad else inp 2 (b 2 % 32) { len := n, data := p })
      else if b 3 / 64 = 1 then
        if !(canLenOk 4 n) then .bad
        else inp 3 (b 2 % 32) { fmt := 4, id := beNat ((m.drop 12).take 2) % 2048, len := n, data := p, sdt := b 14, vcid := b 15, sec := (b 3).testBit 5, af := beNat ((m.drop 16).take 4) }
      else .bad
  | _ => .skip

/-- ACF_BAD: counted, event item, logged (R169). -/
def State.acfBad (s : State) (i stamp : Nat) : State :=
  ((s.inc pSRT Cn.SRT_ACF_BAD).srtEvent 0x0C 0 stamp 0 i 0 false).errAt pSRT Er.SRT_ACF_BAD i 0 stamp

/-- The messages of an accepted PDU in order: a malformed one ends it (R169). -/
def State.acfAll (s : State) (i stamp : Nat) (avtp : Option Nat) : List (List Nat) → State
  | [] => s
  | m :: l =>
    match acfRead i stamp avtp m with
    | .skip => (s.inc pSRT Cn.SRT_ACF_SKIPPED).acfAll i stamp avtp l
    | .bad => s.acfBad i stamp
    | .input x => (s.srtPut x).acfAll i stamp avtp l

/-- The receive stream of a PDU: the lowest valid one with its STREAM_ID that accepts its subtype. -/
def State.rxStream (s : State) (sub id : Nat) : Option Nat :=
  ((s.tabList pSRT 6 0).find? fun x =>
    fget x.2 En.RXS_VALID = 1 && fget x.2 En.RXS_STREAM_ID = id
      && (if sub = 0x82 then fget x.2 En.RXS_ACCEPT_NTSCF = 1 else sub = 0x05 && fget x.2 En.RXS_ACCEPT_TSCF = 1)).map (·.1)

/-- A PDU is accepted by a receive stream, with its sequence check, or discarded as ACF_BAD (R169). -/
def State.pduReceive (s : State) (stamp : Nat) (frame : List Nat) : State :=
  let tagged := (frame.drop 12).take 2 = [0x81, 0x00]
  let r := frame.drop (if tagged then 16 else 12)
  let p := r.drop 2
  let sub := nth 0 p 0
  let ntscf := sub = 0x82
  let hdr := if ntscf then 12 else 24
  let id := beNat ((p.drop 4).take 8)
  let n := if ntscf then nth 0 p 1 % 8 * 256 + nth 0 p 2 else beNat ((p.drop 20).take 2)
  let seq := if ntscf then nth 0 p 3 else nth 0 p 2
  let avtp := if ntscf then none else some (beNat ((p.drop 12).take 4))
  let data := (p.drop hdr).take n
  let ok := r.take 2 = [0x22, 0xF0] && nth 0 p 1 / 128 = 1 && nth 0 p 1 / 16 % 8 = 0 && hdr + n + 4 ≤ p.length
  match (if ok then s.rxStream sub id else none), acfSplit data.length data with
  | some i, some ms =>
    let s := s.inc pSRT Cn.SRT_PDU_RX
    let s := if s.entF pSRT 6 0 i En.RXS_SEQ_CHECK = 1 && s.entF pSRT 6 0 i En.RXS_SEQ_EXP ≠ seq then
        ((s.inc pSRT Cn.SRT_SEQ_GAP).srtEvent 0x0B 0 stamp 0 i 0 false).errAt pSRT Er.SRT_SEQ_GAP i 0 stamp
      else s
    (s.setEntF pSRT 6 0 i En.RXS_SEQ_EXP (seq + 1)).acfAll i stamp avtp ms
  | some i, none => s.acfBad i stamp
  | none, _ => s.acfBad 0 stamp

/-- The oldest frame that port 34 has delivered is parsed; a disabled router discards it (R169, R282, R557). -/
def execTunnelPduReceived (t : Nat) (s : State) : Res :=
  running t s fun s =>
    match s.srt.pduIn with
    | [] => s
    | (stamp, frame) :: l =>
      let s := s.setSrt { s.srt with pduIn := l }
      if s.enabled pSRT then s.pduReceive stamp frame else s

/-! ### Enable, soft reset, commit and window writes -/

/-- CTRL.ENABLE goes to 0: queue, PDUs, sets and holds are dropped (R557). -/
def State.srtDisable (s : State) : State :=
  let s := (s.setSrt { s.srt with field := [], tunnel := [], pdus := [], prev := [] }).srtLevel
  s.srt.routes.foldl (fun s x =>
    (s.setRroute x.1 { x.2 with sets := [] }).setRstF x.1 En.RSTATE_HELD 0) s

/-- Every valid route of the active bank is activated at stamp `a` (R154, R557). -/
def State.srtActivateAll (s : State) (a : Nat) : State :=
  let old := (s.tabList pSRT 4 0).map (·.1)
  let s := old.foldl (fun s i => s.setRstE i 0) (s.setSrt { s.srt with routes := [], prev := [] })
  (s.tabList pSRT 0 (s.fld pSRT Fd.SRT_GEN_BANK)).foldl (fun s x =>
    if fget x.2 En.ROUTE_VALID = 1 then s.resetRoute x.1 x.2 a else s) s

/-- CTRL.ENABLE goes from 0 to 1 (R557). -/
def State.srtEnable (s : State) : State := s.srtActivateAll s.now

/-- Soft reset: runtime state, input queue, event queue and open PDUs cleared; tables and images kept (Table 9).
DEDUCED, unsafe (notes/assumptions/34.md). -/
def State.srtSoftReset (s : State) : State :=
  let s := (s.setSrt { s.srt with field := [], tunnel := [], pdus := [], pduIn := [], ubits := [], maps := [] }).srtLevel
  let s := (s.setWq 36 {}).setFld pSRT Fd.SRT_EVQ_STAT_LEVEL 0
  s.srtActivateAll s.now

/-- Two entries match the same frames (R141). -/
def sameMatch (a b : Entry) : Bool :=
  fget a En.ROUTE_VALID = 1 && [En.ROUTE_KIND, En.ROUTE_SRC_KIND, En.ROUTE_IDE, En.ROUTE_XL, En.ROUTE_ID, En.ROUTE_MASK, En.ROUTE_CHMASK].all
    fun f => fget a f = fget b f

/-- The same image, TX_MODE and TX_PERIOD (R141). -/
def sameImage (a b : Entry) : Bool :=
  fget a En.ROUTE_VALID = 1 && [En.ROUTE_KIND, En.ROUTE_IMG, En.ROUTE_TX_MODE, En.ROUTE_TX_PERIOD].all fun f => fget a f = fget b f

/-- A route's entry changes at stamp `c` from `a` to `b` by a commit or a window write: its state survives, is recomputed or is
reset (R141, R154).
DEDUCED, unsafe (notes/assumptions/34.md). -/
def State.routeChange (s : State) (idx c : Nat) (a b : Entry) (commit : Bool) : State :=
  if a = b then s
  else
    let keep := fun (s : State) =>
      if commit then s.setSrt { s.srt with prev := smSet none idx (some (s.rstE idx, s.rroute idx)) s.srt.prev } else s
    if fget b En.ROUTE_VALID = 0 then ((keep s).setRstE idx 0).setRroute idx {}
    else if fget b En.ROUTE_KIND = 1 then
      if sameImage a b then s else ((keep s).setRstE idx 0).setRroute idx { act := c }
    else if sameMatch a b then
      if s.rstF idx En.RSTATE_STATE = 2 then s
      else if fget a En.ROUTE_TMO = fget b En.ROUTE_TMO then s
      else
        let base := if fget a En.ROUTE_TMO = 0 then c
          else if s.rstF idx En.RSTATE_ARRIVALS ≠ 0 then s.rstF idx En.RSTATE_LAST
          else (s.rroute idx).act
        s.armRoute idx b base
    else (keep s).resetRoute idx b c

/-- A commit's effect on the routes and maps, after the banks have switched (R140, R141, R151). -/
def State.srtCommit (s : State) : State :=
  let b := s.fld pSRT Fd.SRT_GEN_BANK
  let c := s.now
  let s := s.setSrt { s.srt with commit := c, prev := [] }
  let keys := fun (t : Nat) => ((s.tabList pSRT t 0).map (·.1) ++ (s.tabList pSRT t 1).map (·.1)).eraseDups
  let s := (keys 0).foldl (fun s i => s.routeChange i c (s.routeE (1 - b) i) (s.routeE b i) true) s
  (keys 2).foldl (fun s m =>
    if s.ent pSRT 2 0 m = s.ent pSRT 2 1 m then s
    else s.setSrt { s.srt with maps := smSet {} m {} (smSet {} (m + 32768) (smGet {} m s.srt.maps) s.srt.maps) }) s

/-- The previous generation has drained: no input or deadline of it waits (R140). -/
def State.srtDrained (s : State) : Bool :=
  let c := s.srt.commit
  s.srt.field.all (fun x => c < x.stamp)
    && s.srt.prev.all fun x => match x.2 with
      | some (e, r) => (fget e En.RSTATE_DEADLINE = 0 || c < fget e En.RSTATE_DEADLINE) && r.sets.all fun y => y.closed || c < y.ends
      | none => true

/-- Draining ends. -/
def State.srtDrainDone (s : State) : State := s.setSrt { s.srt with prev := [] }

/-- A window write has changed entry `idx` of table `tab` of the active bank from `old` (R142, R151, R154). -/
def State.srtWritten (s : State) (tab idx : Nat) (old : Entry) : State :=
  let b := s.fld pSRT Fd.SRT_GEN_BANK
  if tab = 0 then (if s.enabled pSRT then s.routeChange idx s.now old (s.routeE b idx) false else s)
  else if tab = 2 then s.setSrt { s.srt with maps := smSet {} idx {} s.srt.maps }
  else s

/-! ### Entry checks (R171, R175) -/

/-- Ones in the low `n` bits. -/
def ones (n x : Nat) : Nat := ((List.range n).filter fun i => x.testBit i).length

/-- A valid route entry within its ranges (Table 14). -/
def routeOk (e : Entry) : Bool :=
  let g := fget e
  let ch := ones 24 (g En.ROUTE_CHMASK)
  let pol := g En.ROUTE_POLICY
  let tun := g En.ROUTE_SRC_KIND = 3
  g En.ROUTE_MAP_COUNT ≤ 64 && g En.ROUTE_MAP_BASE + g En.ROUTE_MAP_COUNT ≤ 24576
    && (if g En.ROUTE_KIND = 1 then g En.ROUTE_TX_MODE ≠ 3 && (g En.ROUTE_TX_MODE = 0 || g En.ROUTE_TX_PERIOD ≠ 0)
      else pol ≤ 4 && g En.ROUTE_DIS ≠ 3 && (pol = 0 || g En.ROUTE_PERIOD ≠ 0)
        && (if tun then pol = 0
          else (pol ≠ 0 || ch = 1) && (pol ≠ 4 || 2 ≤ ch)
            && (!(pol = 2 || (pol = 4 && g En.ROUTE_DIS = 1)) || (g En.ROUTE_CHMASK).testBit (g En.ROUTE_PREF))))

/-- A valid destination slot within its ranges (Table 15). -/
def destOk (e : Entry) (k : Nat) : Bool :=
  let g := slotFld e k
  let lim := match g En.DSTS_KIND with
    | 0 => 24
    | 1 => 8
    | 2 => 4
    | _ => 64
  g En.DSTS_VALID = 0 || (g En.DSTS_LEN ≤ 64 && g En.DSTS_ID_MODE ≠ 3 && g En.DSTS_FORMAT ≠ 5 && g En.DSTS_FORMAT ≠ 6 && g En.DSTS_CH < lim)

/-- A valid map entry within its ranges (Table 16). -/
def mapOk (e : Entry) : Bool :=
  let g := fget e
  1 ≤ g En.MAP_SLEN && g En.MAP_SLEN ≤ g En.MAP_DLEN && g En.MAP_DLEN ≤ 64 && g En.MAP_CMP ≤ 5
    && (fieldPos (g En.MAP_DORD) (g En.MAP_DSTART) (g En.MAP_DLEN)).all (· < 512)

/-- The check of a WRITE of entry `e` to a router table: valid entries within their ranges; streams only while invalid. -/
def State.srtEntryCheck (s : State) (tab idx : Nat) (e : Entry) : Option Nat :=
  let bad : Bool := match tab with
    | 0 => fget e En.ROUTE_VALID = 1 && !(routeOk e)
    | 1 => !((List.range 4).all fun k => destOk e k)
    | 2 => fget e En.MAP_VALID = 1 && !(mapOk e)
    | 5 => s.entF pSRT 5 0 idx En.TXS_VALID = 1 || (fget e En.TXS_VALID = 1 &&
        (fget e En.TXS_MAX_BYTES < 64 || (if fget e En.TXS_SUBTYPE = 0 then 1488 else 1476) < fget e En.TXS_MAX_BYTES
          || 1000 < fget e En.TXS_WINDOW_US))
    | 6 => s.entF pSRT 6 0 idx En.RXS_VALID = 1
    | _ => false
  if bad then some Er.REG_BAD_VALUE else none

end Sys2Proof.Machine
end

