-- ==== Sys2Proof/Machine/Time.lean ====
section
/-!
DEFINITION. The commands of the time base (R47 to R80): FRC handover and reading, views, journal copies, the 802.1AS engine
and its servo, and the CAN time masters.
-/

namespace Sys2Proof.Machine

/-! ### The FRC between the dies (R50 to R52) -/

/-- Entry 2 to 4 of Table 1: with Period request asserted, the logic die hands stamping over, writes COARSE_START stamped
F_h and saves the views. -/
def State.handoverEntry (s : State) : State :=
  let s := { s with coarse := true }
  let s := s.jnlAt s.frc 0xFF 0x10 8 0 0
  s.viewsSave

/-- FRC_HANDOVER_ENTRY (R50, R51, R65); for a Period entry F_h is the commit point (R497). -/
def execFrcHandoverEntry (t : Nat) (s : State) : Res :=
  always t s fun s =>
    if !(s.time.handover && !s.coarse && s.boot ≠ .off) then s
    else
      let s := s.handoverEntry
      if s.pwr = .periodPending then
        { s.wr64 pPWR Reg.PWR_ENTRY_STAMP_LO s.now with pow := { s.pow with commit := s.now } }
      else s

/-- FRC_HANDOVER_EXIT: the logic die that has started loads F_x, resumes and writes COARSE_END (R50). -/
def execFrcHandoverExit (t : Nat) (s : State) : Res :=
  always t s fun s =>
    if s.coarse && s.boot ≠ .off && s.pwr ≠ .comma && !(s.pwr = .periodPending && !s.pow.abort) then
      let s := (s.jnlAt s.frc 0xFF 0x11 8 0 0).raise pTIME Iq.TIME_COARSE_END
      { s with coarse := false, time := { s.time with handover := false } }
    else s

/-- FRC_REALIGN: once per second the line die's copy takes the logic die's value (R52). -/
def execFrcRealign (t : Nat) (s : State) : Res :=
  always t s fun s =>
    if (s.boot = .ready || s.boot = .interjection) && !s.coarse || s.pwr = .comma then s.setTime { s.time with aligned := s.now } else s

/-- A read of TIME_FRC_LO latches the high word and the fraction (R78). -/
def State.frcLatch (s : State) : State :=
  (s.wr pTIME Reg.TIME_FRC_HI (s.now / 2 ^ 32)).wr pTIME Reg.TIME_FRC_FRAC s.nowFrac

/-- FRC_READ: a read of TIME_FRC_LO returns stamp64 [31:0] (R78). -/
def execFrcRead (t d : Nat) (s : State) : Res :=
  live t s fun s =>
    let s := s.frcLatch
    s.emit (.read d (pTIME * 4096 + Reg.TIME_FRC_LO) (s.now % 2 ^ 32))

/-! ### View commands (R56 to R63) -/

/-- The address of a register of view block `v`. -/
def viewAddr (r v : Nat) : Nat := pTIME * 4096 + r + 0x40 * v

/-- A refusal with REG_BAD_VALUE counts in REFUSALS and writes no journal entry (R59, R78). -/
def State.viewBad (s : State) (d a w : Nat) : State := (s.inc pTIME Cn.TIME_REFUSALS).refuse d a w Er.REG_BAD_VALUE

/-- A STEP past the check of its source: accepted, with the lists bound to the view rephased, or refused. -/
def State.viewStep (s : State) (src w v flags : Nat) (delta : Int) : State :=
  if s.viewStepOk v delta then (s.viewStepDo v flags delta).gclRephase v
  else s.viewRefuse src w v 0x08 flags delta 0 Er.TIME_STEP_REFUSED

/-- A write of TIME_VIEW_CMD, judged in the order of R59. -/
def State.viewCmd (s : State) (d v w : Nat) : State :=
  let op := w % 16
  let a := viewAddr Reg.TIME_VIEW_CMD v
  let delta := s.viewDelta v
  let req := s.viewReq v
  if v = 0 || !(s.viewOn v) || !(op = 1 || op = 2 || op = 3) then s.viewBad d a w
  else if op = 1 then
    if s.flag pTIME (vFld Fd.TIME_VIEW_STATE_ARMED v) || (s.view v).everArmed then s.viewBad d a w else s.viewArm v
  else if s.flag pTIME (vFld Fd.TIME_VIEW_CFG_SOURCE v) then
    s.viewRefuse d w v 0x0C 0 delta (if op = 3 then req else 0) Er.TIME_SRC_CONFLICT
  else if op = 2 then s.viewStep d w v 0 delta
  else (s.viewUpdate d w v 0 delta req).1

/-- A view command of domain `d` through the judgement of its write (R555). -/
def State.viewCmdWrite (s : State) (d v w : Nat) : State :=
  let a := viewAddr Reg.TIME_VIEW_CMD v
  match s.judge d a 32 w with
  | some c => (s.inc pTIME Cn.TIME_REFUSALS).refuse d a w c
  | none => s.viewCmd d v w

/-- ARM (R58). -/
def execViewArm (t d view : Nat) (s : State) : Res :=
  live t s fun s => if view < 8 then s.viewCmdWrite d view 1 else s

/-- STEP (R58, R60, R62). -/
def execViewStep (t d view : Nat) (s : State) : Res :=
  live t s fun s => if view < 8 then s.viewCmdWrite d view 2 else s

/-- UPDATE (R56, R58, R60). -/
def execViewUpdate (t d view : Nat) (s : State) : Res :=
  live t s fun s => if view < 8 then s.viewCmdWrite d view 3 else s

/-- An accepted or refused write of TIME_REARM (R61). -/
def State.viewRearm (s : State) (d w : Nat) : State :=
  let v := w % 8
  let bad := w / 65536 % 65536 ≠ 0x7A3E || v = 0 || !(s.viewOn v) || s.flag pTIME (vFld Fd.TIME_VIEW_STATE_ARMED v)
    || (s.flag pTIME Fd.TIME_CFG_REARM_SECURE && !(s.secure d))
  if bad then s.viewRefuse d w v 0x0A 0 0 0 Er.TIME_REARM_KEY
  else
    let s := s.setView v { s.view v with everArmed := true, keyed := true }
    ((s.setFlag pTIME (vFld Fd.TIME_VIEW_STATE_ARMED v) true).setFlag pTIME (vFld Fd.TIME_VIEW_STATE_STEPPED v) false).jnl v 0x09 0 0 0

/-- REARM: a keyed write of TIME_REARM (R61). -/
def execViewRearm (t d v : Nat) (s : State) : Res :=
  live t s fun s =>
    let a := pTIME * 4096 + Reg.TIME_REARM
    match s.judge d a 32 v with
    | some c => (s.inc pTIME Cn.TIME_REFUSALS).refuse d a v c
    | none => s.viewRearm d v

/-- A write of TIME_VIEW_CFG (Table 10, R57, R63).
DEDUCED, unsafe (notes/assumptions/60.md). -/
def State.viewCfgWrite (s : State) (d v w : Nat) : State :=
  let a := viewAddr Reg.TIME_VIEW_CFG v
  let src := w.testBit 1
  let gm := 1 ≤ v && v ≤ 4 && s.flag pGPTP (vFld Fd.GPTP_INST_CFG_GM (v - 1))
  if w / 65536 % 65536 = 0 || (src && !(1 ≤ v && v ≤ 4)) || (src && gm) then s.refuse d a w Er.REG_BAD_VALUE
  else if v = 0 then s.store a (w ||| 1)
  else
    let was := s.viewOn v
    let s := s.store a w
    if w.testBit 0 && !was then s.viewStart v
    else if !(w.testBit 0) && was then (s.gclViewGone v).viewStop v
    else s

/-- VIEW_ENABLE: a write of TIME_VIEW_CFG (R57). -/
def execViewEnable (t d view v : Nat) (s : State) : Res :=
  live t s fun s =>
    if view < 8 then s.judged d (viewAddr Reg.TIME_VIEW_CFG view) 32 v fun s => s.viewCfgWrite d view v else s

/-- VIEW_DISABLE: a write of TIME_VIEW_CFG with ENABLE = 0 (R57, R307). -/
def execViewDisable (t d view v : Nat) (s : State) : Res :=
  live t s fun s =>
    let v := v &&& (2 ^ 32 - 2)
    if view < 8 then s.judged d (viewAddr Reg.TIME_VIEW_CFG view) 32 v fun s => s.viewCfgWrite d view v else s

/-- GO = 1: the FRC and all eight views are latched in one cycle (R64). -/
def State.timeSnap (s : State) : State :=
  let put := fun (lo x : Nat) (s : State) => (s.wr64 pTIME lo (x / 65536)).wr pTIME (lo + 8) (x % 65536)
  let s := put Reg.TIME_SNAP_FRC_LO s.frc s
  foldN 8 (fun v s => put (Reg.TIME_VIEW_SNAP_LO + 0x40 * v) ((s.viewAt v s.frc).getD 0) s) s

/-- TIME_SNAP: a write of TIME_SNAP_CTRL (R64). -/
def execTimeSnap (t d v : Nat) (s : State) : Res :=
  live t s fun s =>
    s.judged d (pTIME * 4096 + Reg.TIME_SNAP_CTRL) 32 v fun s => if v.testBit 0 then s.timeSnap else s

/-- JOURNAL_COPY: the oldest entry not yet copied goes to the Transcript through JNL (R68).
DEDUCED, unsafe (notes/assumptions/60.md). -/
def execJournalCopy (t : Nat) (s : State) : Res :=
  running t s fun s =>
    if s.time.wait = 0 || !(s.flag pTIME Fd.TIME_CFG_JNL_COPY) || !(s.enabled pTRN) then s
    else
      let i := s.fld pTIME Fd.TIME_JNL_COPY_NEXT
      let e := s.ent pTIME 0 0 i
      let s := s.tap false 0x30 (bitsOf e 80 8) (bitsOf e 0 64) (b2n (bitsOf e 98 2 ≠ 0)) (entryToBytes e)
      (s.setTime { s.time with wait := s.time.wait - 1 }).setFld pTIME Fd.TIME_JNL_COPY_NEXT ((i + 1) % 1024)

/-! ### The 802.1AS engine (R70 to R75) -/

def State.ginst (s : State) (i : Nat) : GInst := smGet {} i s.time.insts

def State.setGinst (s : State) (i : Nat) (x : GInst) : State := s.setTime { s.time with insts := smSet {} i x s.time.insts }

def State.pdPort (s : State) (p : Nat) : PdPort := smGet {} p s.time.pds

def State.setPdPort (s : State) (p : Nat) (x : PdPort) : State := s.setTime { s.time with pds := smSet {} p x s.time.pds }

/-- A field of instance block `i`. -/
def State.giF (s : State) (i : Nat) (f : Fld) : Nat := s.fld pGPTP (vFld f i)

/-- A field of a port entry. -/
def State.gpF (s : State) (p : Nat) (f : Fld) : Nat := s.entF pGPTP 0 0 p f

/-- The instance operates. -/
def State.gActive (s : State) (i : Nat) : Bool := i < 4 && s.enabled pGPTP && s.giF i Fd.GPTP_INST_CFG_ENABLE = 1

/-- 2^LOG seconds in ns, for a signed logarithm of 4 bits. -/
def logInterval (code : Nat) : Nat :=
  match sgn 4 code with
  | .ofNat n => 1000000000 * 2 ^ n
  | .negSucc n => 1000000000 / 2 ^ (n + 1)

/-- The Sync interval of an instance in ns. -/
def State.syncInterval (s : State) (i : Nat) : Nat := logInterval (s.giF i Fd.GPTP_INST_CFG_LOG_SYNC)

/-- The Sync receipt deadline in ns (R72). -/
def State.syncDeadline (s : State) (i : Nat) : Option Nat :=
  (s.ginst i).last.map fun l => l / 65536 + s.giF i Fd.GPTP_INST_CFG_SYNC_TIMEOUT * s.syncInterval i

/-- Master ports of an instance that may carry it: role master, AS_CAPABLE (R75). -/
def State.masterPorts (s : State) (i : Nat) : List Nat :=
  (List.range 24).filter fun p =>
    let e := s.ent pGPTP 1 0 (32 * i + p)
    fget e En.GROLE_VALID = 1 && fget e En.GROLE_ROLE = 1 && s.gpF p En.GPORT_AS_CAPABLE = 1

/-- A time multiplied by a ratio given as its excess over 1 in units of 2^-16 ppb (R71). -/
def byRatio (x : Int) (r : Int) : Int := x + Int.fdiv (x * r) (1000000000 * 65536)

/-- The timeout's actions (R72). -/
def State.syncTimeout (s : State) (i : Nat) : State :=
  let s := s.setFlag pGPTP (vFld Fd.GPTP_INST_STATE_SYNC_TIMEOUT i) true
  let s := s.setGinst i { s.ginst i with relays := [] }
  let v := i + 1
  let s := if s.viewOn v then s.setHoldover v true else s
  ((s.jnl v 0x14 0 0 0).raise pGPTP (Iq.GPTP_SYNC_TIMEOUT + i)).err pGPTP Er.GPTP_SYNC_TIMEOUT i

/-- The servo's command for an offset of `o` ns (R73).
DEDUCED, unsafe (notes/assumptions/79.md). -/
def State.servo (s : State) (i : Nat) (o : Int) : State :=
  let v := i + 1
  if !(s.viewOn v) || !(s.flag pTIME (vFld Fd.TIME_VIEW_CFG_SOURCE v)) then s
  else if s.flag pTIME (vFld Fd.TIME_VIEW_STATE_ARMED v) then
    (s.viewStep 7 0 v 1 (-o * 65536)).setGinst i { s.ginst i with integ := 0 }
  else
    let kp := s.giF i Fd.GPTP_INST_SERVO_KP_SHIFT
    let ki := s.giF i Fd.GPTP_INST_SERVO_KI_SHIFT
    let x := s.ginst i
    let integ := x.integ + Int.fdiv o (2 ^ ki)
    let req := -(Int.fdiv o (2 ^ kp) + integ) * 65536
    let r := s.viewUpdate 7 0 v 1 (o * 65536) req
    if r.2 then r.1.setGinst i { x with integ := integ } else r.1

/-- An offset saturated to 32 bits (GPTP_INST_OFFSET). -/
def satOffset (o : Int) : Int := max (-(2 ^ 31 - 1)) (min (2 ^ 31 - 1) o)

/-- A Sync and its Follow_Up accepted on the slave port of instance `i` (R71, R73).
PRESUMED, unsafe (notes/assumptions/24.md). DEDUCED, unsafe (notes/assumptions/61.md). -/
def State.syncAccept (s : State) (i port : Nat) (m : SyncMsg) : State :=
  let late := s.giF i Fd.GPTP_INST_STATE_SYNC_TIMEOUT = 1
  let s := s.setFlag pGPTP (vFld Fd.GPTP_INST_STATE_SYNC_TIMEOUT i) false
  let s := s.inc pGPTP (Cn.GPTP_SYNC_RX + 8 * i)
  let nrr := sgn 32 (s.gpF port En.GPORT_NRR)
  let ratio := Int.fdiv (m.csro * (1000000000 * 65536)) (2 ^ 41) + nrr
  let delay := byRatio (s.gpF port En.GPORT_MEAN_DELAY) ratio
  let gm : Int := m.origin + m.corr + delay
  let view : Int := (s.viewAt (i + 1) m.ingress).getD 0
  let o := Int.fdiv (view - gm) 65536
  let s := (s.wr pGPTP (Reg.GPTP_INST_OFFSET + 0x40 * i) (unsgn 32 (satOffset o))).wr pGPTP (Reg.GPTP_INST_RATIO + 0x40 * i) (unsgn 32 ratio)
  let relays := if late && (s.ginst i).last.isNone then [] else
    (s.masterPorts i).map fun p => (⟨p, m.seq, m.ingress, m.origin, m.corr + delay, ratio, none⟩ : Relay)
  let s := s.setGinst i { s.ginst i with last := some m.ingress, relays := relays }
  if s.viewOn (i + 1) then s.servo i o else s

/-- The instance that a domain number and slave port name. -/
def State.gptpOf (s : State) (domain port : Nat) : Option Nat :=
  (List.range 4).find? fun i => s.gActive i && s.giF i Fd.GPTP_INST_CFG_DOMAIN_NUM = domain
    && s.giF i Fd.GPTP_INST_CFG_GM = 0 && s.giF i Fd.GPTP_INST_STATE_SLAVE_PORT = port

/-- SYNC_RECEIVE (R71 to R73). A Sync stamped after the deadline does not count for it: the timeout acts first. -/
def execSyncReceive (t domain port : Nat) (m : SyncMsg) (s : State) : Res :=
  running t s fun s =>
    if 24 ≤ port then s else
    match s.gptpOf domain port with
    | none => s
    | some i =>
      let timedOut := s.giF i Fd.GPTP_INST_STATE_SYNC_TIMEOUT = 1
      let counts := match s.syncDeadline i with
        | some D => m.ingress / 65536 ≤ D
        | none => true
      if timedOut && counts then (s.err pGPTP Er.GPTP_LATE_SYNC i).syncAccept i port m
      else if !timedOut && !counts then (s.syncTimeout i).syncAccept i port m
      else s.syncAccept i port m

/-- SYNC_RELAY: the Sync leaves a master port now; its egress stamp is kept for the Follow_Up (R71). -/
def execSyncRelay (t i port : Nat) (s : State) : Res :=
  running t s fun s =>
    let x := s.ginst i
    match x.relays.find? fun r => r.port = port && r.egress.isNone with
    | some r =>
      if !(s.gActive i) then s else
      let relays := x.relays.map fun y => if y = r then { y with egress := some s.frc } else y
      ((s.setGinst i { x with relays := relays }).inc pGPTP (Cn.GPTP_SYNC_TX + 8 * i)).emit (.sent "gptp sync" [i, port, r.seq])
    | none => s

/-- FOLLOW_UP_RELAY: the Follow_Up of a relayed or originated Sync, its correction raised by the residence time times the
ratio; the upstream delay is in it already (R71).
PRESUMED, unsafe (notes/assumptions/24.md). -/
def execFollowUpRelay (t i port : Nat) (s : State) : Res :=
  running t s fun s =>
    let x := s.ginst i
    match x.relays.find? fun r => r.port = port && r.egress.isSome with
    | some r =>
      if !(s.gActive i) then s else
      let corr := r.corr + byRatio ((r.egress.getD 0 : Nat) - (r.ingress : Int)) r.ratio
      (s.setGinst i { x with relays := x.relays.filter (· ≠ r) }).emit
        (.sent "gptp follow_up" [i, port, r.seq, r.origin, unsgn 64 corr, unsgn 32 r.ratio])
    | none => s

/-- SYNC_ORIGINATE: a grandmaster instance sends a Sync on each master port; each Follow_Up carries the bound view's value
at the egress stamp (R71). -/
def execSyncOriginate (t i : Nat) (s : State) : Res :=
  running t s fun s =>
    let x := s.ginst i
    let due := match x.lastOrig with
      | some l => l + s.syncInterval i ≤ s.now
      | none => true
    if !(s.gActive i) || s.giF i Fd.GPTP_INST_CFG_GM = 0 || !due then s
    else
      let ports := s.masterPorts i
      let origin := (s.viewAt (i + 1) s.frc).getD 0
      let relays := ports.map fun p => (⟨p, x.seq, s.frc, origin, 0, 0, some s.frc⟩ : Relay)
      let s := s.setGinst i { x with lastOrig := some s.now, seq := (x.seq + 1) % 65536, relays := relays }
      ports.foldl (fun s p => (s.inc pGPTP (Cn.GPTP_SYNC_TX + 8 * i)).emit (.sent "gptp sync" [i, p, x.seq])) s

/-- GPTP_SYNC_TIMEOUT: 4 µs after the deadline (R72). -/
def execGptpSyncTimeout (t i : Nat) (s : State) : Res :=
  running t s fun s =>
    match s.syncDeadline i with
    | some D =>
      if s.gActive i && s.giF i Fd.GPTP_INST_STATE_SYNC_TIMEOUT = 0 && D + 4000 ≤ s.now then s.syncTimeout i else s
    | none => s

/-- A port loses asCapable (R75). -/
def State.pdFail (s : State) (p : Nat) : State :=
  if s.gpF p En.GPORT_AS_CAPABLE = 0 then s
  else
    let s := s.setEntF pGPTP 0 0 p En.GPORT_AS_CAPABLE 0
    ((s.inc pGPTP Cn.GPTP_PDELAY_FAIL).raise pGPTP Iq.GPTP_PDELAY_FAIL).err pGPTP Er.GPTP_PDELAY_FAIL p

/-- A lost response counts towards the loss of asCapable (R75). -/
def State.pdLost (s : State) (p : Nat) : State :=
  let x := s.pdPort p
  let s := s.setPdPort p { x with req := none, lost := x.lost + 1 }
  if s.gpF p En.GPORT_ALLOWED_LOST ≤ x.lost + 1 then s.pdFail p else s

/-- Link delay measurement is on. -/
def State.pdOn (s : State) (p : Nat) : Bool := p < 24 && s.enabled pGPTP && s.gpF p En.GPORT_PDELAY_EN = 1

/-- PDELAY_REQUEST: a request leaves the port now; one still unanswered is lost (R70, R75). -/
def execPdelayRequest (t port : Nat) (s : State) : Res :=
  running t s fun s =>
    if !(s.pdOn port) then s
    else
      let s := if (s.pdPort port).req.isSome then s.pdLost port else s
      (s.setPdPort port { s.pdPort port with req := some s.frc }).emit (.sent "gptp pdelay_req" [port])

/-- The neighbour rate ratio minus 1 from two responses, in units of 2^-16 ppb: (t3 - t3') / (t4 - t4') - 1.
PRESUMED, unsafe (notes/assumptions/24.md). -/
def nrrOf (t3 t4 t3' t4' : Nat) : Int :=
  if t4 ≤ t4' then 0
  else Int.fdiv (((t3 : Int) - t3' - ((t4 : Int) - t4')) * (1000000000 * 65536)) ((t4 : Int) - t4')

/-- PDELAY_RESPONSE: a response updates NRR, MEAN_DELAY and AS_CAPABLE; a lost one counts (R75).
PRESUMED, unsafe (notes/assumptions/24.md). -/
def execPdelayResponse (t port : Nat) (r : Option PdelayResp) (s : State) : Res :=
  running t s fun s =>
    if !(s.pdOn port) then s else
    match (s.pdPort port).req, r with
    | none, _ => s
    | some _, none => s.pdLost port
    | some t1, some r =>
      let x := s.pdPort port
      let nrr := match x.prev with
        | some (a, b) => nrrOf r.t3 r.t4 a b
        | none => sgn 32 (s.gpF port En.GPORT_NRR)
      let delay := Int.fdiv (byRatio ((r.t4 : Int) - t1) nrr - ((r.t3 : Int) - r.t2)) 2
      let s := s.setPdPort port { req := none, lost := 0, prev := some (r.t3, r.t4) }
      let s := (s.setEntF pGPTP 0 0 port En.GPORT_NRR (unsgn 32 nrr)).setEntF pGPTP 0 0 port En.GPORT_MEAN_DELAY (unsgn 32 delay)
      if decide ((s.gpF port En.GPORT_DELAY_THRESH * 65536 : Nat) < delay) then s.pdFail port
      else s.setEntF pGPTP 0 0 port En.GPORT_AS_CAPABLE 1

/-- PDELAY_REQ_RECEIVED: the engine answers with the receipt stamp and, in the follow-up, the response's egress stamp
(R70). -/
def execPdelayReqReceived (t port seq ingress : Nat) (s : State) : Res :=
  running t s fun s =>
    if s.pdOn port then
      (s.emit (.sent "gptp pdelay_resp" [port, seq, ingress])).emit (.sent "gptp pdelay_resp_follow_up" [port, seq, s.frc])
    else s

/-- An instance starts afresh: no Sync accepted yet. -/
def State.gptpStart (s : State) (i : Nat) : State :=
  ((s.setGinst i {}).setFlag pGPTP (vFld Fd.GPTP_INST_STATE_SYNC_TIMEOUT i) false)

/-- A GPTP soft reset disables all instances; the views that an instance drove keep running in holdover (R75).
DEDUCED, unsafe (notes/assumptions/61.md). -/
def State.gptpSoftReset (s : State) : State :=
  let s := foldN 4 (fun i s =>
    let v := i + 1
    if s.giF i Fd.GPTP_INST_CFG_ENABLE = 1 && s.viewOn v && s.flag pTIME (vFld Fd.TIME_VIEW_CFG_SOURCE v) then s.setHoldover v true else s) s
  s.setTime { s.time with insts := [], pds := [] }

/-- A write of GPTP_INST_CFG (Table 11, R71). -/
def State.gptpCfgWrite (s : State) (d i w : Nat) : State :=
  let a := pGPTP * 4096 + Reg.GPTP_INST_CFG + 0x40 * i
  let w' := BitVec.ofNat 32 w
  let tout := fget w' Fd.GPTP_INST_CFG_SYNC_TIMEOUT
  let log := sgn 4 (fget w' Fd.GPTP_INST_CFG_LOG_SYNC)
  if tout < 2 || !(decide (-5 ≤ log) && decide (log ≤ 0))
      || (w.testBit 1 && s.flag pTIME (vFld Fd.TIME_VIEW_CFG_SOURCE (i + 1))) then s.refuse d a w Er.REG_BAD_VALUE
  else
    let was := s.giF i Fd.GPTP_INST_CFG_ENABLE = 1
    let s := s.store a w
    if w.testBit 0 && !was then s.gptpStart i else s

/-- GPTP_INST_STATE.SLAVE_PORT follows the role entries (R80, Table 13). -/
def State.gptpRoles (s : State) (i : Nat) : State :=
  let slave := (List.range 24).find? fun p =>
    fget (s.ent pGPTP 1 0 (32 * i + p)) En.GROLE_VALID = 1 && fget (s.ent pGPTP 1 0 (32 * i + p)) En.GROLE_ROLE = 2
  s.setFld pGPTP (vFld Fd.GPTP_INST_STATE_SLAVE_PORT i) (slave.getD 0x1F)

/-! ### CAN time masters (R76, R77) -/

/-- The message is skipped: CTM_SKIP is raised, counted and logged. -/
def State.ctmSkip (s : State) (m : Nat) : State :=
  ((s.inc pTIME (Cn.TIME_CTM_SKIP + 8 * m)).raise pTIME Iq.TIME_CTM_SKIP).err pTIME Er.CTM_SKIP m

/-- The reference message of instance `m`.
DEDUCED, unsafe (notes/assumptions/62.md). -/
def State.ctmFrame (s : State) (m : Nat) : CanFrame :=
  let ide := s.flag pTIME (ctmFld Fd.TIME_CTM_CFG_IDE m)
  let id := s.fld pTIME (ctmFld Fd.TIME_CTM_ID_ID m)
  { fmt := b2n ide, id := if ide then id else id % 2 ^ 11, len := 8, data := s.ctmPayload m }

/-- CTM_ENQUEUE: at F_0 + k × PERIOD the message enters its channel's router transmit queue, or is skipped (R77).
DEDUCED, unsafe (notes/assumptions/62.md). -/
def execCtmEnqueue (t m : Nat) (s : State) : Res :=
  running t s fun s =>
    let x := s.ctm m
    let period := s.rd pTIME (Reg.TIME_CTM_PERIOD + 0x10 * m) * 1000
    if 4 ≤ m || !(s.flag pTIME (ctmFld Fd.TIME_CTM_CFG_ENABLE m)) || s.now < x.f0 + x.k * period then s
    else
      let n := s.fld pTIME (ctmFld Fd.TIME_CTM_CFG_CHANNEL m)
      let s := s.setCtm m { x with k := x.k + 1 }
      if s.rtqRefuses n || s.flag pTIME (ctmFld Fd.TIME_CTM_STATUS_PENDING m) || s.canMode n = 3 then s.ctmSkip m
      else
        let f := s.ctmFrame m
        let s := s.setCtm m { s.ctm m with prevOk := false }
        (s.setFlag pTIME (ctmFld Fd.TIME_CTM_STATUS_PENDING m) true).rtqEnter n f s.now (m + 1)

/-- A write of TIME_CTM_CFG (Table 9): a channel above 23, and enabling on a disabled view, are refused. -/
def State.ctmCfgWrite (s : State) (d m w : Nat) : State :=
  let a := pTIME * 4096 + Reg.TIME_CTM_CFG + 0x10 * m
  let w' := BitVec.ofNat 32 w
  if 24 ≤ fget w' Fd.TIME_CTM_CFG_CHANNEL || (w.testBit 0 && !(s.viewOn (fget w' Fd.TIME_CTM_CFG_VIEW))) then
    s.refuse d a w Er.REG_BAD_VALUE
  else
    let was := s.flag pTIME (ctmFld Fd.TIME_CTM_CFG_ENABLE m)
    let s := s.store a w
    if w.testBit 0 && !was then s.setCtm m { f0 := s.now } else s

/-- A write of a TIME register that has no row of its own. -/
def State.timeWrite (s : State) (d off w : Nat) : State :=
  let a := pTIME * 4096 + off
  if Reg.TIME_CTM_CFG ≤ off && off < Reg.TIME_CTM_CFG + 0x40 then
    let m := (off - Reg.TIME_CTM_CFG) / 16
    if off % 16 = 0 then s.ctmCfgWrite d m w
    else if off % 16 = 8 && !(10000 ≤ w && w ≤ 10000000) then s.refuse d a w Er.REG_BAD_VALUE
    else s.store a w
  else if off = Reg.TIME_CFG then
    let s := s.store a w
    if w.testBit 1 then s
    else (s.setTime { s.time with wait := 0 }).setFld pTIME Fd.TIME_JNL_COPY_NEXT (s.fld pTIME Fd.TIME_JNL_STATUS_HEAD)
  else s.store a w

/-- A write of a GPTP register. -/
def State.gptpWrite (s : State) (d off w : Nat) : State :=
  let a := pGPTP * 4096 + off
  if 0x100 ≤ off && off < 0x200 && off % 0x40 = 0 then s.gptpCfgWrite d ((off - 0x100) / 0x40) w
  else if 0x100 ≤ off && off < 0x200 && off % 0x40 = 4 && (32 ≤ w % 256 || 32 ≤ w / 256 % 256) then s.refuse d a w Er.REG_BAD_VALUE
  else s.store a w

end Sys2Proof.Machine
end

