-- ==== Sys2Proof/Machine/Control.lean ====
section
/-!
DEFINITION. The control registers of a page header: enable, freeze, soft reset and commit (R27, R29 to R31), ownership (R34,
R35), and counter snapshots (R39, R40).
-/

namespace Sys2Proof.Machine

/-! ### Freeze (Table 4 of *Register Space*, and each block's chapter) -/

/-- CTRL.FREEZE of page `p` takes the value `on`. -/
def State.setFreeze (s : State) (p : Nat) (on : Bool) : State :=
  if s.frozen p = on then s
  else
    let s := s.setFlag p Fd.CTRL_FREEZE on
    match pageRow p with
    | none => s
    | some (r, i, _) =>
      match r.blk with
      | .canc => if on then s.canFreeze i else s.canThaw i
      | .linc => if on then s.linSettle i else s.linThaw i
      | .ser => if on then s.serSettle i else s.serThaw i
      | .eprt => (s.ethFreeze i on).setFlag p Fd.STATUS_FROZEN on
      | .emc => s.setFlag p Fd.STATUS_FROZEN (on && s.fld p Fd.EMC_ARB_HOLDER = 8)
      | _ => s.setFlag p Fd.STATUS_FROZEN on

/-! ### Enable -/

/-- The block of page `p` starts or stops. -/
def State.enableFx (s : State) (p : Nat) (on : Bool) : State :=
  match pageRow p with
  | none => s
  | some (r, i, _) =>
    match r.blk with
    | .canc => if on then s.canStop i else s.canOff i
    | .linc => if on then s.linOn i else s.linOff i
    | .ser => if on then s.serOn i else s.serOff i
    | .srt => if on then s.srtEnable else s.srtDisable
    | .eprt => if on then s.ethEnable i else s.ethDisable i
    | .fdb => if on then s.setFdb i { s.fdb i with sweepAt := s.now } else s.rehashAbort i
    | .emc => if on then s.emcEnable else s
    | .trn => if on then s.trnEnable else s.trnDisable
    | .nm => if on then s.nmEnable.nmStatus else s.nmDisable
    | .gptp =>
      if on then foldN 4 (fun i s => if s.giF i Fd.GPTP_INST_CFG_ENABLE = 1 then s.gptpStart i else s) s else s
    | _ => s

/-- CTRL.ENABLE of page `p` takes the value `on`. -/
def State.setEnable (s : State) (p : Nat) (on : Bool) : State :=
  if s.enabled p = on then s
  else ((s.setFlag p Fd.CTRL_ENABLE on).setFlag p Fd.STATUS_ENABLED on).enableFx p on

/-! ### Soft reset (R30) -/

/-- Block-specific registers that a soft reset keeps, as each block's chapter says.
DEDUCED, unsafe (notes/assumptions/73.md). -/
def softKeep (b : Blk) (off : Nat) : Bool :=
  match b with
  | .swc | .emc | .egr => true
  | .srt => off = Reg.SRT_GEN
  | .pipe => off = Reg.PIPE_GEN
  | .fdb => (Reg.FDB_SEED0_LO ≤ off && off ≤ Reg.FDB_SB_SEED1_HI) || off = Reg.FDB_GEN || off = Reg.FDB_COUNT
  | .trn => off = Reg.TRN_RING
  | _ => false

/-- The block-specific registers of page `p` return to their reset values, but for the offsets in `keep`. -/
def State.resetRegs (s : State) (p : Nat) (keep : Nat → Bool) : State :=
  { s with regs := smDrop (p * 4096 + 0x040) (p * 4096 + 0x800) (fun a => keep (a % 4096)) s.regs }

/-- All live counters of page `p` return to 0. -/
def State.clearCounts (s : State) (p : Nat) : State :=
  { s with cnt := smDrop (p * 4096) (p * 4096 + 4096) (fun _ => false) s.cnt }

/-- The received fields of an object, which a soft reset clears (R556). -/
def objReceived : List Fld :=
  [En.OBJ_NEW, En.OBJ_LOST, En.OBJ_RTR, En.OBJ_FORMAT, En.OBJ_BRS, En.OBJ_ESI, En.OBJ_LENGTH, En.OBJ_SOF_STAMP,
    En.OBJ_EOF_STAMP, En.OBJ_SDT, En.OBJ_VCID, En.OBJ_AF, En.OBJ_SEC]

/-- SOFT_RESET of a CAN controller (R556): objects of the former range lose what they received, the queue is empty. -/
def State.canSoftReset (s : State) (n : Nat) : State :=
  let p := pCANC n
  let base := s.fld p Fd.CANC_OBJ_RANGE_BASE
  let held := s.flag p Fd.CANC_MODE_NM_HELD
  let s := foldN (s.fld p Fd.CANC_OBJ_RANGE_COUNT) (fun i s =>
    let a := base + i
    let s := s.setCanObj a (objReceived.foldl (fun e f => fput e f 0) (s.canObj a))
    (s.setEnt (pCANC 0) 1 0 (2 * a) 0).setEnt (pCANC 0) 1 0 (2 * a + 1) 0) s
  let s := (s.resetRegs p fun _ => false).setFlag p Fd.CANC_MODE_NM_HELD held
  ((s.setCan n { s.can n with shadow := none, ardRound := 0, ardMatch := 0 }).canOff n).setWq n {}

/-- The functional state and the block-specific registers of the block of page `p` return to their reset values.
DEDUCED, unsafe (notes/assumptions/73.md). -/
def State.softResetFx (s : State) (p : Nat) : State :=
  match pageRow p with
  | none => s
  | some (r, i, _) =>
    let clear := fun (s : State) => s.resetRegs p (softKeep r.blk)
    match r.blk with
    | .gptp => clear s.gptpSoftReset
    | .canc => s.canSoftReset i
    | .linc => ((clear (s.linOff i)).linOff i).setWq (24 + i) {}
    | .ser => ((clear (s.serOff i)).serOff i).setWq (32 + i) {}
    | .srt => (clear s.srtSoftReset).setFlag p Fd.STATUS_DRAINING false
    | .eprt =>
      let held := s.flag p Fd.EPRT_TC10_NM_CTL
      ((clear (s.ethDisable i)).setFlag p Fd.EPRT_TC10_NM_CTL held).ethDisable i
    | .pipe => clear (s.pipeSoftReset i)
    | .fdb => clear (s.fdbSoftReset i)
    | .swc => s.swcSoftReset
    | .egr => s.egrSoftReset
    | .emc => s.emcSoftReset.clearCounts p
    | .trn => (clear s.trnSoftReset).trnLevels
    | .nm =>
      let levels := (List.range 8).filter fun k => s.flag p (Fd.NM_WAKEIN_LEVEL.at 4 k)
      let s := clear s.nmSoftReset
      (levels.foldl (fun s k => s.setFlag p (Fd.NM_WAKEIN_LEVEL.at 4 k) true) s).nmStatus
    | .key => (foldN 4 (fun k s => s.resetRegs (pKEY k) fun _ => false) s).keySoftReset.keyLevels
    | .msec =>
      let s := foldN 8 (fun k s => s.clearCounts (pMSEC k)) s
      let s := (s.tabList p 2 0).foldl (fun s x => s.setEnt p 2 0 x.1 0) s
      let s := (s.tabList p 1 0).foldl (fun s x => s.setEntF p 1 0 x.1 En.FRSH_EXHAUSTED 0) s
      clear (foldN 8 (fun k s =>
        let s := (s.tabList (pMSEC k) 6 0).foldl (fun s x => s.setEnt (pMSEC k) 6 0 x.1 0) s
        (s.tabList (pMSEC k) 5 0).foldl (fun s x => s.setEntF (pMSEC k) 5 0 x.1 En.SA_EXHAUSTED 0) s) s)
    | _ => s

/-- CTRL.SOFT_RESET is accepted at page `p`: every run of the page ends (R558).
DESIGN CHOICE, safe (notes/assumptions/10.md). -/
def State.softReset (s : State) (p : Nat) : State :=
  let s := { s with runs := s.runs.filter fun x => x.1 ≠ p }.softResetFx p
  { (s.setFlag p Fd.CTRL_SOFT_RESET true).setFlag p Fd.STATUS_RESET_BUSY true with resets := s.resets ++ [p] }

/-- SOFT_RESET_DONE: the soft reset of page `p` completes; a bus controller whose ENABLE reads 1 leaves OFF (R30, R556).
DESIGN CHOICE, safe (notes/assumptions/10.md). -/
def execSoftResetDone (t p : Nat) (s : State) : Res :=
  live t s fun s =>
    if !(s.resets.contains p) then s
    else
      let s := { s with resets := s.resets.filter (· ≠ p) }
      let s := (s.setFlag p Fd.CTRL_SOFT_RESET false).setFlag p Fd.STATUS_RESET_BUSY false
      if !(s.enabled p) then s
      else
        match pageRow p with
        | some (r, i, _) =>
          match r.blk with
          | .canc => s.canStop i
          | .linc => s.linOn i
          | .ser => s.serOn i
          | .eprt => s.ethEnable i
          | _ => s
        | none => s

/-! ### Commit (R31, R140, R223, R253) -/

/-- A commit is requested. -/
def State.commitRequest (s : State) (p : Nat) : State :=
  (s.setFlag p Fd.CTRL_COMMIT true).setFlag p Fd.STATUS_COMMIT_PENDING true

/-- BANK_SWITCH: the commit pending at page `p` takes effect now. -/
def execBankSwitch (t p : Nat) (s : State) : Res :=
  running t s fun s =>
    if !(s.flag p Fd.STATUS_COMMIT_PENDING) then s
    else
      let s := (s.setFlag p Fd.CTRL_COMMIT false).setFlag p Fd.STATUS_COMMIT_PENDING false
      match pageRow p with
      | some (r, i, _) =>
        match r.blk with
        | .srt =>
          let s := s.setFld p Fd.SRT_GEN_BANK (1 - s.fld p Fd.SRT_GEN_BANK)
          let s := s.setFld p Fd.SRT_GEN_GEN (s.fld p Fd.SRT_GEN_GEN + 1)
          (s.srtCommit.setFlag p Fd.STATUS_DRAINING true).raise p Iq.SRT_COMMIT_DONE
        | .pipe =>
          let s := (s.pipeCommit i).raise p Iq.PIPE_COMMIT_DONE
          if s.fld p Fd.PIPE_INFLIGHT_PREV_COUNT = 0 then s.raise p Iq.PIPE_DRAIN_DONE
          else s.setFlag p Fd.STATUS_DRAINING true
        | .fdb => ((s.fdbCommit i).setFlag p Fd.STATUS_DRAINING true).raise p Iq.FDB_COMMIT_DONE
        | _ => s
      | none => s

/-- DRAIN_DONE: the last event under the previous generation at page `p` has completed (R140, R224, R253). -/
def execDrainDone (t p : Nat) (s : State) : Res :=
  running t s fun s =>
    if !(s.flag p Fd.STATUS_DRAINING) then s
    else
      let done := fun (s : State) => s.setFlag p Fd.STATUS_DRAINING false
      match blkOf p with
      | some .srt => if s.srtDrained then done s.srtDrainDone else s
      | some .pipe => if s.fld p Fd.PIPE_INFLIGHT_PREV_COUNT = 0 then (done s).raise p Iq.PIPE_DRAIN_DONE else s
      | some .fdb => done s
      | _ => s

/-! ### The control register -/

/-- The check of xxx_CTRL that an accepted write fails, field by field from the most significant one (R31, R253, R453, R464). -/
def State.ctrlCheck (s : State) (p v : Nat) (b : Blk) : Option Nat :=
  let commit := hasBanks b && v.testBit 3
  if commit && s.flag p Fd.STATUS_DRAINING then some Er.WIN_BANK_DRAINING
  else if commit && b = .fdb && !(s.flag p Fd.STATUS_COMMIT_PENDING) && !(s.flag p Fd.STATUS_REBUILT) then some Er.REG_BAD_VALUE
  else if b = .emc && ((v.testBit 1 && s.enabled p) || s.emcEnableBad (v.testBit 0)) then some Er.REG_BAD_VALUE
  else none

/-- An accepted write of xxx_CTRL at page `p` by domain `d`: commit, freeze, enable, soft reset (notes/assumptions/20.md). The
fields are reserved on pages other than control pages (R27). -/
def State.ctrlWrite (s : State) (d p v : Nat) : State :=
  if !(isControlPage p) then s
  else
    match blkOf p with
    | none => s
    | some b =>
      match s.ctrlCheck p v b with
      | some c => s.refuse d (p * 4096 + Reg.CTRL) v c
      | none =>
        let s := if hasBanks b && v.testBit 3 && !(s.flag p Fd.STATUS_COMMIT_PENDING) then s.commitRequest p else s
        let s := s.setFreeze p (v.testBit 2)
        if alwaysEnabled b then s
        else
          let s := s.setEnable p (v.testBit 0)
          if v.testBit 1 then s.softReset p else s

/-- A write of xxx_CTRL by domain `d` at page `p`.
DEDUCED, safe (notes/assumptions/20.md). -/
def State.ctrlPut (s : State) (d p v : Nat) : State :=
  s.judged d (p * 4096 + Reg.CTRL) 32 v fun s => s.ctrlWrite d p v

/-- The word of xxx_CTRL's ENABLE and FREEZE as they are. -/
def State.ctrlNow (s : State) (p : Nat) : Nat := b2n (s.enabled p) + 4 * b2n (s.frozen p)

/-- ENABLE: domain `d` writes xxx_CTRL with ENABLE = `on` and FREEZE as it is. -/
def execCtrlEnable (t d p : Nat) (on : Bool) (s : State) : Res :=
  live t s fun s => s.ctrlPut d p (b2n on + 4 * b2n (s.frozen p))

/-- FREEZE: domain `d` writes xxx_CTRL with FREEZE = `on` and ENABLE as it is. -/
def execCtrlFreeze (t d p : Nat) (on : Bool) (s : State) : Res :=
  live t s fun s => s.ctrlPut d p (b2n (s.enabled p) + 4 * b2n on)

/-- SOFT_RESET: domain `d` writes xxx_CTRL with SOFT_RESET = 1, ENABLE and FREEZE as they are. -/
def execSoftReset (t d p : Nat) (s : State) : Res :=
  live t s fun s => s.ctrlPut d p (s.ctrlNow p + 2)

/-- COMMIT: domain `d` writes xxx_CTRL with COMMIT = 1, ENABLE and FREEZE as they are. -/
def execCtrlCommit (t d p : Nat) (s : State) : Res :=
  live t s fun s => s.ctrlPut d p (s.ctrlNow p + 8)

/-! ### Ownership (Table 9) -/

/-- Only a secure-world domain may take the page (R385). -/
def securePage (p : Nat) : Bool := p = pKEY 0 || blkOf p = some .otp

/-- Store an owner: DOMAIN `x`, owned, no longer orphaned. -/
def State.setOwner (s : State) (p x : Nat) : State :=
  let s := (s.setFld p Fd.OWNER_DOMAIN x).setFlag p Fd.OWNER_UNOWNED false
  (s.setFlag p Fd.OWNER_ORPHANED false).setFlag p Fd.STATUS_ORPHANED false

/-- A write of xxx_OWNER of page `p` by domain `d` that has passed checks 1 to 3 of R555: the row of Table 9 it matches, or
REG_NOT_OWNER.
DEDUCED, unsafe (notes/assumptions/78.md). -/
def State.ownerWrite (s : State) (d p v : Nat) : State :=
  let no := s.refuse d (p * 4096 + Reg.OWNER) v Er.REG_NOT_OWNER
  let x := v % 8
  let unowned := s.flag p Fd.OWNER_UNOWNED
  let orphaned := s.flag p Fd.OWNER_ORPHANED
  let mine := s.fld p Fd.OWNER_DOMAIN = d
  let fit := fun (x : Nat) => !(securePage p) || s.secure x
  if 5 < d then no
  else if v.testBit 4 then
    if !unowned && orphaned && mine then (s.setFlag p Fd.OWNER_ORPHANED false).setFlag p Fd.STATUS_ORPHANED false else no
  else if s.flag p Fd.OWNER_LOCKED then no
  else if v.testBit 3 then
    if !unowned && !orphaned && mine then (s.setFlag p Fd.OWNER_UNOWNED true).setFlag p Fd.IRQ_ROUTE_EN false else no
  else if 5 < x then no
  else if unowned then (if x = d && fit d then s.setOwner p d else no)
  else if orphaned then
    (if !mine && x = d && s.secure d = s.secure (s.fld p Fd.OWNER_DOMAIN) then s.setOwner p d else no)
  else if mine && x ≠ d && fit x then s.setOwner p x
  else no

/-- Domain `d` writes xxx_OWNER of page `p`. -/
def State.ownerPut (s : State) (d p v : Nat) : State :=
  s.judged d (p * 4096 + Reg.OWNER) 32 v fun s => if hasHeader p then s.ownerWrite d p v else s

/-- CLAIM: domain `d` writes its own number into the owner register of page `p`. -/
def execOwnerClaim (t d p : Nat) (s : State) : Res := live t s fun s => s.ownerPut d p (d % 8)

/-- TRANSFER: domain `d` writes domain `dst`. -/
def execOwnerTransfer (t d p dst : Nat) (s : State) : Res := live t s fun s => s.ownerPut d p (dst % 8)

/-- OWNER_RELEASE: domain `d` writes UNOWNED = 1. -/
def execOwnerRelease (t d p : Nat) (s : State) : Res := live t s fun s => s.ownerPut d p (8 + d % 8)

/-- ADOPTION: domain `d` writes ADOPT = 1. -/
def execOwnerAdoption (t d p : Nat) (s : State) : Res := live t s fun s => s.ownerPut d p (16 + d % 8)

/-- TAKE_OVER: domain `d` writes its own number into the owner register of an orphaned page. -/
def execTakeOver (t d p : Nat) (s : State) : Res := live t s fun s => s.ownerPut d p (d % 8)

/-! ### Counter snapshots (R39, R40) -/

/-- An accepted write of xxx_CNT_CTRL; it is ignored while a snapshot runs. -/
def State.cntCtrlWrite (s : State) (p v : Nat) : State :=
  if s.flag p Fd.CNT_BUSY then s
  else
    let lo := p * 4096
    let s :=
      if v.testBit 0 then
        let snap := (s.cnt.filter fun x => lo ≤ x.1 && x.1 < lo + 4096).foldl (fun m x => smSet 0 x.1 (smGet 0 x.1 s.cnt) m)
          (smDrop lo (lo + 4096) (fun _ => false) s.snap)
        let s := { s with snap := snap, snaps := s.snaps ++ [p] }
        (s.wr64 p Reg.CNT_STAMP_LO s.now).setFlag p Fd.CNT_BUSY true
      else s
    if v.testBit 1 then s.clearCounts p else s

/-- SNAP: domain `d` writes xxx_CNT_CTRL with SNAP = 1. -/
def execSnap (t d p : Nat) (s : State) : Res :=
  live t s fun s => s.judged d (p * 4096 + Reg.CNT_CTRL) 32 1 fun s => s.cntCtrlWrite p 1

/-- CNT_CLEAR: domain `d` writes xxx_CNT_CTRL with CLEAR = 1, and SNAP = 1 too where `snap` says so. -/
def execCntClear (t d p : Nat) (snap : Bool) (s : State) : Res :=
  live t s fun s => s.judged d (p * 4096 + Reg.CNT_CTRL) 32 (2 + b2n snap) fun s => s.cntCtrlWrite p (2 + b2n snap)

/-- SNAPSHOT_DONE: the snapshot of page `p` is complete.
DESIGN CHOICE, safe (notes/assumptions/10.md). -/
def execSnapshotDone (t p : Nat) (s : State) : Res :=
  live t s fun s => { s.setFlag p Fd.CNT_BUSY false with snaps := s.snaps.filter (· ≠ p) }

end Sys2Proof.Machine
end

