-- ==== Sys2Proof/Machine/PowerOps.lean ====
section
/-!
DEFINITION. The shared operations of starts and power states (R466 to R503): the PMIC handshake, the reset of the logic die
with what the line die and the MRAM keep through it, the freshness image (R406), and the actions of Comma entry and exit.
-/

namespace Sys2Proof.Machine

def State.setPow (s : State) (x : Power) : State := { s with pow := x }

/-- LINE_STATUS.SEQ (Table 2 of *Supplies and Power States*): 0 OFF, 1 POWERING, 2 ON, 3 RETRY, 4 SHUTDOWN, 5 FAULT. -/
def State.seq (s : State) : Nat := s.fld pLINE Fd.LINE_STATUS_SEQ

/-! ### The PMIC handshake (R488, Table 2) -/

/-- The three power-good inputs read `b`. -/
def State.setPg (s : State) (b : Bool) : State :=
  ((s.setFlag pLINE Fd.LINE_STATUS_PG_IO b).setFlag pLINE Fd.LINE_STATUS_PG_CORE b).setFlag pLINE Fd.LINE_STATUS_PG_DDR b

/-- PMIC_EN is asserted: POWERING. -/
def State.pmicOn (s : State) : State :=
  let s := (s.setFld pLINE Fd.LINE_STATUS_SEQ 1).setFlag pLINE Fd.LINE_STATUS_PMIC_EN true
  s.setPow { s.pow with enAt := s.now }

/-- PMIC_EN is deasserted, and the handshake goes to `seq`.
DEDUCED, unsafe (notes/assumptions/71.md). -/
def State.pmicOff (s : State) (seq : Nat) : State :=
  let s := ((s.setFld pLINE Fd.LINE_STATUS_SEQ seq).setFlag pLINE Fd.LINE_STATUS_PMIC_EN false).setPg false
  s.setPow { s.pow with offAt := some s.now, step4 := false }

/-- PMIC_EN has stayed low for PMIC_OFF_MS since its last deassertion (R488). -/
def State.pmicRested (s : State) : Bool :=
  match s.pow.offAt with
  | some x => x + s.fld pLINE Fd.LINE_CFG_PMIC_OFF_MS * 1000000 ≤ s.now
  | none => true

/-- From OFF, a pending start asserts PMIC_EN once VBAT stands at the start level or above (R490). -/
def State.tryStart (s : State) : State :=
  if s.seq = 0 && s.pow.start.isSome && s.pmicRested && 5900 ≤ s.fld pLINE Fd.LINE_VBAT_VBAT_MV then s.pmicOn else s

/-- A code to log at the next start that reaches READY (R38, R488). -/
def State.logLater (s : State) (code arg0 stamp : Nat) : State :=
  s.setPow { s.pow with logs := s.pow.logs ++ [(code, arg0, stamp)] }

/-! ### The reset of the logic die -/

/-- Block registers that the line die holds (R364, R504, Table 9), and those of the MRAM (R54, R342).
DEDUCED, unsafe (notes/assumptions/73.md). -/
def lineHeld (a : Nat) : Bool :=
  let p := a / 4096
  let off := a % 4096
  (p = pLINE && 0x040 ≤ off && off < 0x800)
    || (p = pPWR && Reg.PWR_EXIT_STAMP_LO ≤ off && off ≤ Reg.PWR_TIMER)
    || (p = pNM && (off = Reg.NM_DEV_WAKE || off = Reg.NM_DEV_WAKE_STAMP_LO || off = Reg.NM_DEV_WAKE_STAMP_HI
      || off = Reg.NM_T1S_ACT || (Reg.NM_WAKEIN ≤ off && off < Reg.NM_WAKEIN + 32)))
    || (p = pTIME && off = Reg.TIME_FRC_STATE)

/-- Registers that the MRAM system area holds. -/
def mramHeld (a : Nat) : Bool :=
  let p := a / 4096
  let off := a % 4096
  (p = pTIME && off = Reg.TIME_EPOCH) || (p = pMRAM && Reg.MRAM_SLOT ≤ off && off < Reg.MRAM_SLOT + 28)

/-- The logic die is reset or loses its power: everything it holds is lost. The line die keeps its registers, the sleep
settings of CAN channels 0 to 15 (R364) and the FRC; MRAM and OTP keep their contents. A quote trigger that was held is
dropped and counted (R334). -/
def State.logicReset (s : State) : State :=
  let held := s.trn.held.length
  let lo := tkey pNM 0 0 0
  let s' : State :=
    { pending := s.pending, out := s.out, frc := s.frc, coarse := s.coarse, draws := s.draws, pwr := s.pwr,
      regs := s.regs.filter fun x => lineHeld x.1 || mramHeld x.1,
      tabs := s.tabs.filter fun x => lo ≤ x.1 && x.1 < lo + 16,
      mram := s.mram, capGen := s.capGen, lastSlot := s.lastSlot, perst := s.perst,
      time := { aligned := s.time.aligned, saved := s.time.saved, handover := s.time.handover },
      ldie := s.ldie, otp := { words := s.otp.words }, pow := s.pow, freshSaved := s.freshSaved }
  let s' := foldN 16 (fun n s => s.setEntF pNM 0 0 n En.NMCH_NM_TX 0) s'
  let s' := (s'.setFlag pTIME Fd.TIME_FRC_STATE_COMMA false).setFlag pTIME Fd.TIME_FRC_STATE_ABRUPT_LAST false
  s'.addCnt pTRN Cn.TRN_TRIG_MASKED held

/-- The logic die goes without the handover of R50: where it carried the FRC, the line die's copy advances by 1 ms and the
views are not saved (R52).
DEDUCED, unsafe (notes/assumptions/75.md). -/
def State.abruptLoss (s : State) : State :=
  if s.boot = .off || (s.coarse && s.pwr ≠ .comma) then s
  else
    { s with frc := s.frc + 1000000 * 65536, coarse := true, pow := { s.pow with abrupt := true },
             time := { s.time with saved := none } }

/-- What a cause of Table 1 leaves of the power state machine: Clause at the next start. -/
def State.powClear (s : State) : State :=
  { s with pwr := .clause, pow := { s.pow with exit := none, abort := false, slept := [], lowSince := none } }

/-- The logic die ends in PF_HOLD without power (R501, R502). -/
def State.pfHoldEnter (s : State) : State :=
  let s := if s.boot = .off then s else s.logicReset
  let s := if s.seq = 1 || s.seq = 2 then s.pmicOff 4 else s
  { s with pwr := .pfHold, pow := { s.pow with start := none, exit := none, abort := false, lowSince := none, slept := [] } }

/-- A start with the rails up (causes 4 to 6 of Table 1): the logic die is reset, with the FRC handover or abruptly, and
begins again at step 4. Of two causes in one cycle the lower number is reported (R468). -/
def State.restart (s : State) (cause : Nat) (handover : Bool) : State :=
  let again := s.boot = .off && s.pow.step4 && s.pow.causeAt = s.now
  let cause := if again then min cause s.pow.cause else cause
  let s := if !handover then s.abruptLoss else if s.boot = .off || s.coarse then s else s.handoverEntry
  if s.powerFail then s.pfHoldEnter
  else
    let s := s.logicReset.powClear
    s.setPow { s.pow with cause := cause, causeAt := s.now, step4 := true, plls := 0, late := false }

/-- The logic die loses power and starts again with cause 3 (R488, R492). -/
def State.powerLost (s : State) : State :=
  let s := s.abruptLoss
  if s.powerFail then s.pfHoldEnter
  else
    let s := (s.logicReset.powClear).pmicOff 4
    s.setPow { s.pow with start := some 3, cause := 3, causeAt := s.now }

/-! ### The freshness image (R406) -/

/-- The slots that a valid generation profile names. -/
def State.genSlots (s : State) : List Nat :=
  (s.tabList (pMSEC 0) 0 0).filterMap fun x =>
    if fget x.2 En.PROF_VALID = 1 && fget x.2 En.PROF_DIR = 1 then some (fget x.2 En.PROF_FRESH) else none

/-- The slots with PERSIST = 1 go to the MRAM system area.
DEDUCED, unsafe (notes/assumptions/76.md). -/
def State.freshSave (s : State) : State :=
  let gen := s.genSlots
  let shift := s.fld (pMSEC 0) Fd.MSEC_CFG_RG_SHIFT
  let l := (s.tabList (pMSEC 0) 1 0).filterMap fun x =>
    if fget x.2 En.FRSH_PERSIST = 1 then
      some (⟨x.1, fget x.2 En.FRSH_FV, decide (fget x.2 En.FRSH_EXHAUSTED = 1), if gen.contains x.1 then some shift else none⟩ : FreshImg)
    else none
  { s with freshSaved := l }

/-- Every saved slot comes back; one that a generation profile named is advanced by 2^RG_SHIFT.
DEDUCED, unsafe (notes/assumptions/76.md). -/
def State.freshRestore (s : State) : State :=
  s.freshSaved.foldl (fun s x =>
    let fv := match x.shift with
      | some k => min (x.fv + 2 ^ k) (2 ^ 64 - 1)
      | none => x.fv
    let e := fput (fput (fput (0 : Entry) En.FRSH_FV fv) En.FRSH_PERSIST 1) En.FRSH_EXHAUSTED (b2n x.exhausted)
    s.setEnt (pMSEC 0) 1 0 x.slot e) s

/-- FRESHNESS_SAVE: once per second in Clause (R406). -/
def execFreshnessSave (t : Nat) (s : State) : Res :=
  running t s fun s => if s.pwr = .clause then s.freshSave else s

/-! ### Comma actions (R496) -/

/-- The ports flush and sleep (R196); the frame on a line is lost with its link. -/
def State.portsSleep (s : State) : State :=
  let up := (List.range 32).filter fun p => s.ethSt p ≠ 0
  let s := up.foldl (fun s p => let s := (s.txAbort p).portSleep p; if p < 24 then s.linkGone p else s) s
  let s := [32, 33, 34, 35].foldl (fun s p => s.portFlush p) s
  s.setPow { s.pow with slept := up }

/-- The router completes the events it holds and stops supervision (R158). -/
def State.srtDrain (s : State) : State :=
  let n := s.srt.tunnel.length + s.srt.field.length
  let s := foldN n (fun _ s =>
    match s.srt.tunnel with
    | x :: _ => if s.srtActs then s.srtInput x else s
    | [] =>
      match rinHead s.srt.field with
      | some x => if s.srtActs then s.srtInput x else s
      | none => s) s
  s.setSrt { s.srt with comma := true }

/-- The actions of a Comma entry, which a Period entry takes too (R496, R497).
DEDUCED, unsafe (notes/assumptions/74.md). -/
def State.commaActions (s : State) : State :=
  let s := foldN 24 (fun n s =>
    if s.canMode n = 15 then s else s.setCan n { s.can n with comma := true, commaMode := 0 }) s
  let s := (s.srtDrain.portsSleep.swcEmpty).closeHeads
  let s := s.setTrn { s.trn with low := [], high := [] }
  let s := s.setFld pLOG Fd.LOG_WDOG_STAT_STAGE 0
  let crg := s.rd pCRG Reg.CRG_STATUS
  (s.setPow { s.pow with locks := crg }).wr pCRG Reg.CRG_STATUS (crg &&& 0x301)

/-- Clause resumes after the Comma actions: controllers integrate, ports train, supervision and the watchdog restart at the
exit stamp, gate lists join their phase (R113, R158, R479, R516).
DEDUCED, unsafe (notes/assumptions/74.md). -/
def State.commaResume (s : State) : State :=
  let s := { s with pwr := .clause }
  let s := s.wr pCRG Reg.CRG_STATUS s.pow.locks
  let s := foldN 24 (fun n s =>
    let c := s.can n
    if !c.comma then s
    else
      let s := s.setCan n { c with comma := false, commaMode := 0 }
      if canOnBus c.commaMode then s.setCanMode n 8 else s) s
  let s := s.pow.slept.foldl (fun s p =>
    if s.ethSt p ≠ 5 then s else if 24 ≤ p || s.looped p then s.portUp p else s) s
  let s := (s.setSrt { s.srt with comma := false }).srtRestart s.now
  let s := foldN 36 (fun p s => s.gclJoin p) s.wdogStart
  let low := s.flag pNM Fd.NM_STATUS_LOW_POWER_OK
  s.setPow { s.pow with slept := [], abort := false, exit := none, lowSince := if low then some s.now else none }

/-- The device wake that ended Comma or Period goes to NM_DEV_WAKE (R361). -/
def State.devWakeShow (s : State) : State :=
  match s.ldie.devWake with
  | none => s
  | some (w, coarse) =>
    let s := { s with ldie := { s.ldie with devWake := none } }
    let s := (s.setFlag pNM Fd.NM_DEV_WAKE_VALID true).setFlag pNM Fd.NM_DEV_WAKE_COARSE coarse
    let s := (s.setFld pNM Fd.NM_DEV_WAKE_REASON w.reason).setFld pNM Fd.NM_DEV_WAKE_SRC w.src
    (s.wr64 pNM Reg.NM_DEV_WAKE_STAMP_LO w.stamp).raise pNM Iq.NM_DEV_WAKE

/-- Comma ends for the source `src` (R479, R498). -/
def State.commaExit (s : State) (src : Nat) : State :=
  let s := ((s.jnlAt s.frc 0xFF 0x11 4 0 0).raise pTIME Iq.TIME_COARSE_END).setFlag pTIME Fd.TIME_FRC_STATE_COMMA false
  let s := { s with coarse := false }.commaResume
  let s := (s.setFld pPWR Fd.PWR_STATE_STATE 0).setFld pPWR Fd.PWR_STATE_EXIT_SRC src
  let s := (s.wr64 pPWR Reg.PWR_EXIT_STAMP_LO s.now).setFld pGLB Fd.GLB_BOOT_TEST 0
  (s.raise pPWR Iq.PWR_COMMA_EXIT).devWakeShow

end Sys2Proof.Machine
end

