-- ==== Sys2Proof/Machine/Start.lean ====
section
/-!
DEFINITION. Starts of the device (R466 to R486): line-die reset and VBAT, the PMIC handshake, step 4 with the OTP load, the end
of the self-test with completion or the Interjection state, and the causes of Table 1 that begin a start.
-/

namespace Sys2Proof.Machine

/-! ### Supplies (R488 to R490) -/

/-- The line die's power-on reset: only MRAM and OTP keep their contents, the FRC starts at 0, cause 1 is pending (Table 1). -/
def State.linePor (s : State) : State :=
  { pending := s.pending, out := s.out, draws := s.draws, regs := s.regs.filter fun x => mramHeld x.1,
    mram := s.mram, capGen := s.capGen, lastSlot := s.lastSlot, perst := s.perst, otp := { words := s.otp.words },
    freshSaved := s.freshSaved }

/-- LINE_DIE_POR (R469, R490).
DESIGN CHOICE, safe (notes/assumptions/16.md). DEDUCED, unsafe (notes/assumptions/71.md). -/
def execLineDiePor (t : Nat) (s : State) : Res := always t s fun s => s.linePor

/-- A VBAT interrupt of LINE latches when its threshold is crossed, with the logic die up; `was` and `is` say beyond. -/
def State.vbatEdge (s : State) (bit : Nat) (was is : Bool) : State :=
  if is && !was && s.boot ≠ .off then s.raise pLINE bit else s

/-- VBAT_SAMPLE: the line die measures VBAT and VBAT_SNS in mV and acts on Table 3; below 4.5 V its reset asserts. -/
def execVbatSample (t vbat sns : Nat) (s : State) : Res :=
  always t s fun s =>
    if vbat < 4500 then s.linePor
    else
      let old := s.fld pLINE Fd.LINE_VBAT_VBAT_MV
      let lowMv := s.fld pLINE Fd.LINE_VMON_LOW_MV
      let highMv := s.fld pLINE Fd.LINE_VMON_HIGH_MV
      let s := (s.setFld pLINE Fd.LINE_VBAT_VBAT_MV vbat).setFld pLINE Fd.LINE_VBAT_SNS_MV sns
      let s := s.vbatEdge Iq.LINE_VBAT_LOW (old ≠ 0 && old < lowMv) (vbat < lowMv)
      let s := s.vbatEdge Iq.LINE_VBAT_HIGH (highMv < old) (highMv < vbat)
      let good := s.fld pLINE Fd.LINE_PF_THR_MV + 1000 ≤ min vbat sns
      let s := s.setPow { s.pow with highSince := if good then some (s.pow.highSince.getD s.now) else none }
      let s := if s.seq = 5 && old < 5900 && 5900 ≤ vbat then
          (s.setFld pLINE Fd.LINE_STATUS_SEQ 0).setPow { s.pow with touts := 0 }
        else s
      s.tryStart

/-- PG_ALL_GOOD: the three power-good inputs are high within 5 ms of PMIC_EN (Table 2): step 4 can begin. -/
def execPgAllGood (t : Nat) (s : State) : Res :=
  always t s fun s =>
    if s.seq ≠ 1 || s.pow.enAt + 5000000 < s.now then s
    else
      let s := (s.setPg true).setFld pLINE Fd.LINE_STATUS_SEQ 2
      s.setPow { s.pow with touts := 0, cause := s.pow.start.getD 1, causeAt := s.now, start := none, step4 := true, plls := 0, late := false }

/-- PG_TIMEOUT: 5 ms without them (Table 2). -/
def execPgTimeout (t : Nat) (s : State) : Res :=
  always t s fun s =>
    if s.seq ≠ 1 || s.now < s.pow.enAt + 5000000 then s
    else
      let n := s.pow.touts + 1
      let s := (s.pmicOff (if 3 ≤ n then 5 else 3)).setFlag pLINE Fd.LINE_RETAIN_PG_TIMEOUT true
      let s := if s.pow.logs.any fun x => x.1 = Er.PWR_PG_TIMEOUT then s else s.logLater Er.PWR_PG_TIMEOUT 0 s.now
      s.setPow { s.pow with touts := n }

/-- PMIC_OFF_ELAPSED: PMIC_OFF_MS have passed since the deassertion (Table 2). -/
def execPmicOffElapsed (t : Nat) (s : State) : Res :=
  always t s fun s =>
    if !s.pmicRested then s
    else if s.seq = 3 then s.pmicOn
    else if s.seq = 4 then (if s.pow.start.isSome then s.pmicOn else s.setFld pLINE Fd.LINE_STATUS_SEQ 0)
    else s.tryStart

/-- PG_LOST: a power-good input falls outside a commanded power-down (R488). -/
def execPgLost (t : Nat) (s : State) : Res :=
  always t s fun s =>
    if s.seq ≠ 2 then s
    else ((s.setFlag pLINE Fd.LINE_RETAIN_PG_LOST true).logLater Er.PWR_PG_LOST 0 s.now).powerLost

/-- CRG_REF_LOST: the 25 MHz reference is lost, or (`pll`) a PLL loses lock in Clause; the logic die is power-cycled
(R492). -/
def execCrgRefLost (t : Nat) (pll : Bool) (s : State) : Res :=
  always t s fun s =>
    if s.seq ≠ 2 || s.boot = .off || (pll && s.pwr = .comma) then s
    else
      let s := s.setFlag pLINE (if pll then Fd.LINE_RETAIN_PLL_FAIL else Fd.LINE_RETAIN_REF_LOST) true
      (s.logLater Er.CRG_REF_LOST 0 s.now).powerLost

/-- CRG_X32K_FAIL: the 32.768 kHz crystal stops, and the RC takes over (R493). -/
def execCrgX32kFail (t : Nat) (s : State) : Res :=
  always t s fun s =>
    if !(s.flag pLINE Fd.LINE_CFG_X32K_EN) || s.flag pTIME Fd.TIME_FRC_STATE_SRC_RC then s
    else
      let s := (s.setFlag pTIME Fd.TIME_FRC_STATE_SRC_RC true).setFlag pLINE Fd.LINE_STATUS_X32K_FAIL true
      if s.boot = .off then s.logLater Er.CRG_X32K_FAIL 0 s.now else s.err pCRG Er.CRG_X32K_FAIL 0

/-- X32K_START: the crystal oscillates for the first time since the line die's reset, and is used (R493, R548). -/
def execX32kStart (t : Nat) (s : State) : Res :=
  always t s fun s =>
    if s.flag pLINE Fd.LINE_CFG_X32K_EN && !(s.flag pLINE Fd.LINE_STATUS_X32K_FAIL) then
      s.setFlag pTIME Fd.TIME_FRC_STATE_SRC_RC false
    else s

/-- VCC5_UV: VCC5 is below 4.5 V; CAN channels 0 to 15 drive no dominant level (R489). -/
def execVcc5Uv (t : Nat) (s : State) : Res :=
  always t s fun s =>
    let s := s.setFlag pLINE Fd.LINE_STATUS_VCC5_OK false
    if s.boot = .off then s else (s.raise pLINE Iq.LINE_VCC5_UV).errRun pLINE Er.LINE_VCC5_UV 0 0

/-- VCC5_RECOVERY: VCC5 has stayed at or above 4.6 V for 1 ms (R489). -/
def execVcc5Recovery (t : Nat) (s : State) : Res :=
  always t s fun s => (s.setFlag pLINE Fd.LINE_STATUS_VCC5_OK true).endRun pLINE Er.LINE_VCC5_UV 0

/-- VCC5_EN is driven high (R489): a transceiver of channels 0 to 15 is in normal mode, or VCC5_FORCE = 1. -/
def State.vcc5En (s : State) : Bool :=
  s.flag pLINE Fd.LINE_CFG_VCC5_FORCE || (List.range 16).any fun n => smGet 0 n s.ldie.standby = 0

/-! ### Causes with the rails up (Table 1 of *Start-Up*) -/

/-- SYS_RESET_N has been held low for `ns`: 1 µs or more starts cause 4, less than 100 ns is ignored, and between the two
the spec leaves it open (R551): a free value decides.
DESIGN CHOICE, safe (notes/assumptions/77.md). -/
def execSysResetN (t ns : Nat) (s : State) : Res :=
  always t s fun s =>
    let s' := if 100 ≤ ns && ns < 1000 then s.draw else s
    let acts := 1000 ≤ ns || (100 ≤ ns && (Config.free s.draws).testBit 0)
    if acts && s.seq = 2 then s'.restart 4 false else s'

/-- An accepted write of GLB_RESET by domain `d` (R467). -/
def State.glbResetWrite (s : State) (d v : Nat) : State :=
  if v / 65536 % 65536 ≠ 0x5A0D || !(s.secure d) then s.refuse d (pGLB * 4096 + Reg.GLB_RESET) v Er.REG_BAD_VALUE
  else s.restart 5 true

/-- GLB_RESET: domain `d` writes the register with `v`. -/
def execGlbReset (t d v : Nat) (s : State) : Res :=
  live t s fun s => s.judged d (pGLB * 4096 + Reg.GLB_RESET) 32 v fun s => s.glbResetWrite d v

/-- LOG_WDOG_RESET: 4 µs after D2 without a kick (R515). -/
def execLogWdogReset (t : Nat) (s : State) : Res :=
  running t s fun s =>
    if s.fld pLOG Fd.LOG_WDOG_STAT_STAGE = 2 && s.fld pLOG Fd.LOG_WDOG_CFG_RESET_MS ≠ 0 && s.wdogD2 + 4000 ≤ s.now then
      (s.logLater Er.LOG_WDOG_RESET 0 s.wdogD2).restart 5 true
    else s

/-! ### Step 4 (R374, R375, R383, R470) -/

/-- Byte `k` of generation `g` of the boot configuration record (Table 4 of *Keys, OTP and Life Cycle*). -/
def State.bcrByte (s : State) (g k : Nat) : Nat := s.otpWord (0x100 + 0x80 * g + k / 4) / 256 ^ (k % 4) % 256

/-- Generation `g` can be selected: FORMAT, CRC, RETIRE (R383). -/
def State.bcrValid (s : State) (g : Nat) : Bool :=
  let w := fun k => s.bcrByte g k
  w 0 + 256 * w 1 = 1 && w 4 = 0
    && w 8 + 256 * w 9 + 65536 * w 10 + 2 ^ 24 * w 11 = crc32c ((List.range 500).map fun k => s.bcrByte g (12 + k))

/-- A byte of the active generation, or the default of R383. -/
def State.bcrOr (s : State) (k dflt : Nat) : Nat :=
  match s.bcrGen with
  | some g => s.bcrByte g k
  | none => dflt

/-- Exactly one bit of a life-cycle group is burnt. -/
def halfGroup (w g : Nat) : Bool := w / 4 ^ g % 4 = 1 || w / 4 ^ g % 4 = 2

/-- The second bit of every half-burnt group is burnt; the bits in `lost` do not take (R375). -/
def State.lcComplete (s : State) (lost : Nat) : State :=
  foldN 5 (fun g s =>
    let w := smGet 0 4 s.otp.words
    if halfGroup w g then
      let bit := if w / 4 ^ g % 4 = 1 then 2 * g + 1 else 2 * g
      if lost.testBit bit then s else s.otpBurn 4 (2 ^ bit)
    else s) s

/-- Words with an uncorrectable error: counted, logged, latched, and they read 0 (R374). -/
def State.otpLoad (s : State) (bad : List Nat) (corr : Nat) : State :=
  let bad := bad.filter fun w => w < 4096 && w ≠ 4
  let s := { s with otp := { s.otp with bad := bad } }.addCnt pOTP Cn.OTP_ECC_CORR corr
  let s := bad.foldl (fun s w =>
    let s := ((s.inc pOTP Cn.OTP_ECC_UNCORR).raise pOTP Iq.OTP_ECC).err pOTP Er.OTP_ECC w
    if s.flag pOTP Fd.OTP_ECC_LOC_VALID then s
    else (s.setFlag pOTP Fd.OTP_ECC_LOC_VALID true).setFld pOTP Fd.OTP_ECC_LOC_WORD w) s
  if bad.any fun w => 0x010 ≤ w && w < 0x020 then s.err (pKEY 0) Er.KEY_NO_ROOT 0 else s

/-- The active generation is selected (R383), and what it and the life cycle decide for this start: worlds, debug, the test
root (R380, R381). -/
def State.bcrSelect (s : State) : State :=
  let s := match [3, 2, 1, 0].find? fun g => s.bcrValid g with
    | some g => (s.setFlag pOTP Fd.OTP_STATUS_BCR_VALID true).setFld pOTP Fd.OTP_STATUS_BCR_GEN g
    | none => s.err pOTP Er.OTP_NO_BCR 0
  let worlds := s.bcrOr 12 1
  let s := foldN 6 (fun d s => s.setFlag (pHDOM d) Fd.HDOM_STATE_WORLD (worlds.testBit d)) s
  let lc := lcOf (smGet 0 4 s.otp.words)
  let debug := s.pow.debugReq
  let s := (s.setFld pOTP Fd.OTP_STATUS_LC lc).setFld pOTP Fd.OTP_STATUS_LC_PENDING lc
  let s := s.setFlag pOTP Fd.OTP_STATUS_DEBUG debug
  let s := s.setFlag pOTP Fd.OTP_STATUS_TEST_ROOT (lc = 1 || lc = 4 || (debug && (lc = 2 || lc = 3)))
  s.setPow { s.pow with debugReq := false }

/-- A new unlock challenge (R379); it reads 0 while the random source has failed (R392).
DESIGN CHOICE, safe (notes/assumptions/5.md). -/
def State.newChallenge (s : State) : State :=
  { s.draw with dbg := { s.dbg with chal := Config.free s.draws % 2 ^ 128 } }

/-- Step 4 past the fabric PLL: an abrupt loss is marked (R52), the OTP loaded, the life-cycle burn completed, the generation
selected; the self-test begins. `crg` holds CRG_STATUS bits [9:2] as they come up. -/
def State.step4Load (s : State) (bad : List Nat) (corr lost crg : Nat) : State :=
  let s := { s with boot := .starting }
  let s := s.wr pCRG Reg.CRG_STATUS (3 + crg % 256 * 4)
  let s := if s.pow.abrupt then
      let s := (s.jnlAt s.frc 0xFF 0x10 24 0 0).err pTIME Er.TIME_ABRUPT 0
      (s.setFlag pTIME Fd.TIME_FRC_STATE_ABRUPT_LAST true).setPow { s.pow with abrupt := false }
    else s
  let s := ((s.otpLoad bad corr).lcComplete lost).bcrSelect.newChallenge
  let s := s.setFld pGLB Fd.GLB_BOOT_CAUSE s.pow.cause
  let s := s.setFld pGLB Fd.GLB_BOOT_TEST (if s.pow.cause = 2 then 2 else 1)
  s.setFlag pGLB Fd.GLB_BOOT_CLK_LATE s.pow.late

/-- An attempt at step 4: the reference must be valid, then the fabric PLL locks, at the third failure not again. -/
def State.step4 (s : State) (ref pll : Bool) (bad : List Nat) (corr lost crg : Nat) : State :=
  if !(s.pow.step4) || s.boot ≠ .off || 3 ≤ s.pow.plls then s
  else if !ref then s.setPow { s.pow with late := true }
  else if !pll then
    let s := s.setPow { s.pow with plls := s.pow.plls + 1 }
    if s.pow.plls = 3 then
      (s.setFlag pLINE Fd.LINE_RETAIN_PLL_FAIL true).logLater Er.BOOT_PLL_FAIL 0 s.now
    else s
  else s.step4Load bad corr lost crg

/-- LOGIC_DIE_RESET_RELEASE (R470): `ref` the 25 MHz reference is valid, `pll` the fabric PLL locks, `bad` and `corr` the
uncorrectable words and corrected errors of the OTP load, `lost` life-cycle bits that do not burn, `crg` CRG_STATUS [9:2]. -/
def execLogicDieResetRelease (t : Nat) (ref pll : Bool) (bad : List Nat) (corr lost crg : Nat) (s : State) : Res :=
  always t s fun s => if s.pow.late then s else s.step4 ref pll bad corr lost crg

/-- REF_CHECK: the 1 ms check of a reference that was not valid (R470).
DEDUCED, unsafe (notes/assumptions/71.md). -/
def execRefCheck (t : Nat) (ref pll : Bool) (bad : List Nat) (corr lost crg : Nat) (s : State) : Res :=
  always t s fun s => if s.pow.late then s.step4 ref pll bad corr lost crg else s

/-! ### The self-test and its end (R471 to R477) -/

/-- The bits of Table 4 that the phases find. -/
def stMask : Nat := 0xFF7FFF

/-- The failure bitmap: what the phases found, with bits 24, 25 and 32.
DEDUCED, unsafe (notes/assumptions/72.md). -/
def State.failMap (s : State) (found : Nat) : Nat :=
  let w := smGet 0 4 s.otp.words
  let otp := s.otp.bad.any (· < 4) || 1024 ≤ w || (List.range 5).any fun g => halfGroup w g
  let x := (found &&& stMask) + b2n otp * 2 ^ 24 + b2n (s.lc = 5) * 2 ^ 25
  if x ≠ 0 && s.pow.cause = 2 then x + 2 ^ 32 else x

/-- DIAG_CH and the status frame's identifier (R482). -/
def State.diagCh (s : State) (map : Nat) : Nat := if map.testBit 24 then 0 else s.bcrOr 13 0 % 32

def State.diagId (s : State) (map : Nat) : Nat :=
  ((if map.testBit 24 then 0 else s.bcrOr 14 0 + 256 * s.bcrOr 15 0) % 2048) ^^^ 0x6F0

/-- The status frame of the Interjection state (R482). -/
def State.diagFrame (s : State) : CanFrame :=
  let map := s.rd pGLB Reg.GLB_ST_FAIL_LO + 2 ^ 32 * s.rd pGLB Reg.GLB_ST_FAIL_HI
  { id := s.diagId map, len := 8, data := leBytes 8 map }

/-- The channel that sends it. -/
def State.diagChan (s : State) : Nat :=
  s.diagCh (s.rd pGLB Reg.GLB_ST_FAIL_LO + 2 ^ 32 * s.rd pGLB Reg.GLB_ST_FAIL_HI)

/-- The status frame falls due: queued, or in place of the one that is still unsent (R482).
DEDUCED, unsafe (notes/assumptions/72.md). -/
def State.diagQueue (s : State) : State :=
  let n := s.diagChan
  let c := s.can n
  let s := s.setPow { s.pow with interN := s.pow.interN + 1 }
  if c.attempt.isSome || !c.rtq.isEmpty then s else s.setRtq n [⟨s.diagFrame, s.now, 0, 0⟩]

/-- The Interjection state is entered at E (R481, R482): other channels' transceivers are in standby without wake detection,
the diagnostic channel goes to NORMAL. -/
def State.interject (s : State) : State :=
  let s := { s with boot := .interjection }
  let n := s.diagChan
  let s := (s.setFlag pGLB Fd.GLB_BOOT_INTERJECTION true).wr64 pGLB Reg.GLB_READY_STAMP_LO s.now
  let s := foldN 16 (fun k s => s.setStandby k (if k = n then 0 else 3)) s
  let s := s.setPow { s.pow with interE := s.now, interN := 0 }
  if 24 ≤ n then s
  else
    let s := s.setEnable (pCANC n) true
    let s := (s.setFlag (pCANC n) Fd.CANC_CFG_AUTO_RECOVER true).setFld (pCANC n) Fd.CANC_CFG_TX_RETRY 0
    ((s.setFld (pCANC n) Fd.CANC_MODE_REQ 1).setCanMode n 8).diagQueue

/-- INTERJECTION_STATUS_FRAME: E + k × 100 ms (R482). -/
def execInterjectionStatusFrame (t : Nat) (s : State) : Res :=
  always t s fun s =>
    if s.boot = .interjection && s.diagChan < 24 && s.pow.interE + s.pow.interN * 100000000 ≤ s.now then s.diagQueue else s

/-! ### Completion (R472) -/

/-- A fixed slot's entry (R387); the attributes that the spec does not state for slot 1 are free values. -/
def fixedEntry (ty uses : Nat) (more flags : Nat) : Entry :=
  let attr := ty * 16 + uses * 256 + more
  let e : Entry := fput (0 : Entry) En.KSLOT_ATTR (attr / 16)
  let e := fput (fput e En.KSLOT_VALID 1) En.KSLOT_FIXED 1
  fput (fput e En.KSLOT_GENERATED flags) En.KSLOT_DERIVED flags

/-- The word of the root that Table 2 of *Keys, OTP and Life Cycle* selects, or none. -/
def State.rootWord (s : State) : Option Nat :=
  if s.lc = 0 || s.lc = 5 then none
  else
    let w := if s.flag pOTP Fd.OTP_STATUS_TEST_ROOT then 0x018 else 0x010
    if s.otp.bad.any fun x => w ≤ x && x < w + 8 then none else some w

/-- Slots 0 and 1 are loaded, and every other slot's GEN drawn (R386, R387).
DEDUCED, unsafe (notes/assumptions/71.md). -/
def State.keyLoad (s : State) : State :=
  let s := foldN 254 (fun k s =>
    s.draw.setSlot (k + 2) (fput (0 : Entry) En.KSLOT_GEN (Config.free s.draws % 65535 + 1))) s
  match s.rootWord with
  | none => s
  | some w =>
    let root := s.otpNum w 8
    let open1 := Config.free s.draws % 2 ^ 32 &&& 0x3FFF1000
    let s := (s.setSlot 0 (fixedEntry 2 4 (0x1000 + 0xBF * 65536 + 0x1E * 2 ^ 24) 0)).draw.setSlot 1 (fixedEntry 3 8 open1 1)
    let id := kdfKey 3 256 root [0x00, 0x49, 0x44] s.uid
    let mat := smSet 0 1 id (smSet 0 0 root s.keys.mat)
    { s with keys := { s.keys with mat := mat } }.setFlag pOTP Fd.OTP_STATUS_ROOT_OK true

/-- The MRAM system area is read: epoch, views, capsule slots, freshness slots (R54, R65, R342, R406). -/
def State.mramLoad (s : State) : State :=
  let c := s.pow.cause
  let s := if c = 1 then
      let s := s.wr pTIME Reg.TIME_EPOCH (s.rd pTIME Reg.TIME_EPOCH + 1)
      s.jnlAt 0 0xFF 0x13 0 (s.rd pTIME Reg.TIME_EPOCH * 65536) 0
    else if c = 2 || c = 5 || c = 6 then s.viewsRestore else s
  let s := foldN 7 (fun k s =>
    if s.fld pMRAM (Fd.MRAM_SLOT_STATE.at 4 k) = 1 then
      ((s.setFld pMRAM (Fd.MRAM_SLOT_STATE.at 4 k) 3).raise pMRAM Iq.MRAM_INCOMPLETE).err pMRAM Er.MRAM_INCOMPLETE k
    else s) s
  (s.setFld pMRAM Fd.MRAM_STATUS_NEXT ((s.lastSlot + 1) % 7)).freshRestore

/-- Owners from OWNERS (R384); the pages of the host domains belong to them (R417). -/
def State.ownersLoad (s : State) : State :=
  match s.bcrGen with
  | none => s
  | some g =>
    ((List.range 221).zip headerPages).foldl (fun s x =>
      let (k, p) := x
      if blkOf p = some .hdom then s
      else
        let b := s.bcrByte g (32 + k)
        let owned := b.testBit 3 && b % 8 ≠ 6
        s.wr p Reg.OWNER (b % 8 + b2n (!owned) * 8 + b2n (b.testBit 4) * 64)) s

/-- The control pages that START_EN names, by bit (Table 4 of *Keys, OTP and Life Cycle*).
DEDUCED, unsafe (notes/assumptions/72.md). -/
def startPages : List Nat :=
  [pSRT, pPIPE 0, pPIPE 1, pFDB 0, pFDB 1, pSWC, pEGR, pEMC, pTRN, pKEY 0, pMSEC 0, pNM]

/-- CTRL.ENABLE of the blocks in START_EN.
DEDUCED, unsafe (notes/assumptions/72.md). -/
def State.startEnables (s : State) : State :=
  let en := s.bcrOr 16 0 + 256 * s.bcrOr 17 0
  ((List.range 12).zip startPages).foldl (fun s x =>
    if en.testBit x.1 && !(x.2 = pEMC && s.emcEnableBad true) then s.setEnable x.2 true else s) s

/-- Step 6 (R472). -/
def State.complete (s : State) (rows : Nat) : State :=
  let s := { s with boot := .ready, pwr := .clause }
  let s := s.keyLoad.mramLoad.ownersLoad.startEnables
  let s := foldN 4 (fun d s =>
    if s.flag (pHDOM d) Fd.HDOM_STATE_LINK then s else s.setFld (pHDOM d) Fd.HDOM_STATE_STATE 2) s
  let s := s.err pGLB Er.BOOT_RESET s.pow.cause
  let s := if rows = 0 then s else s.err pGLB Er.BOOT_MBIST_REPAIR (min rows 255)
  let s := if s.pow.late then s.err pGLB Er.BOOT_CLK_LATE 0 else s
  let s := s.pow.logs.foldl (fun s x => s.errAt pGLB x.1 x.2.1 0 x.2.2) s
  let s := (s.wr64 pGLB Reg.GLB_READY_STAMP_LO s.now).setFlag pGLB Fd.GLB_BOOT_READY true
  let s := match s.pow.exit with
    | some (src, _) => if s.pow.cause = 2 then s.setFld pPWR Fd.PWR_STATE_EXIT_SRC src else s
    | none => s
  let low := s.flag pNM Fd.NM_STATUS_LOW_POWER_OK
  (s.setPow { s.pow with logs := [], exit := none, late := false, lowSince := if low then some s.now else none }).wdogStart.devWakeShow

/-- SELF_TEST_DONE: the phases have ended with the failure bits `found` and `rows` spare rows used (R471 to R477): step 6, or
the Interjection state.
DEDUCED, unsafe (notes/assumptions/71.md). -/
def execSelfTestDone (t found rows : Nat) (s : State) : Res :=
  always t s fun s =>
    if s.boot ≠ .starting then s
    else
      let map := s.failMap found
      let s := (s.wr64 pGLB Reg.GLB_ST_FAIL_LO map).setFld pGLB Fd.GLB_REPAIR_ROWS (min rows 255)
      let s := { s with keys := { s.keys with rngFail := found.testBit 19 } }
      if map = 0 then s.complete rows
      else ((List.range 33).foldl (fun s b => if map.testBit b then s.err pGLB Er.BOOT_SELFTEST_FAIL b else s) s).interject

/-! ### The vendor capability (R485) and FAULT_N (R525) -/

/-- FAULT_N is driven low: from step 4 until READY, in the Interjection state, and with LOG_STATUS.PIN after.
DESIGN CHOICE, safe (notes/assumptions/81.md). -/
def State.faultN (s : State) : Bool :=
  s.boot = .starting || s.boot = .interjection || (s.boot = .ready && s.flag pLOG Fd.LOG_STATUS_PIN)

/-- The words of the vendor capability at 0x400 to 0x41C, answered from step 4 onward (Table 6). -/
def State.vendorCap (s : State) : List Nat :=
  let st := match s.boot with
    | .ready => 0
    | .interjection => 2
    | _ => 1
  [0x0001000B, 0x02005A01,
    b2n (s.flag pOTP Fd.OTP_STATUS_BCR_VALID) * 2 ^ 14 + s.fld pOTP Fd.OTP_STATUS_BCR_GEN * 2 ^ 12 + s.lc * 256 + st,
    s.rd pGLB Reg.GLB_ST_FAIL_LO, s.rd pGLB Reg.GLB_ST_FAIL_HI, s.rd pGLB Reg.GLB_READY_STAMP_LO,
    s.rd pGLB Reg.GLB_READY_STAMP_HI, s.rd pGLB Reg.GLB_BOOT]

end Sys2Proof.Machine
end

