-- ==== Sys2Proof/Machine/Power.lean ====
section
/-!
DEFINITION. The power states (R494 to R503): requests for Comma and Period, entries and exits, power-fail and the last gasp.
-/

namespace Sys2Proof.Machine

/-! ### Requests (R495) -/

/-- EMC training runs. -/
def State.emcTrains (s : State) : Bool := !(s.flag pEMC Fd.EMC_DRAM_READY) && !(s.flag pEMC Fd.EMC_DRAM_FAIL)

/-- A KEY, OTP or TRN export command is BUSY. -/
def State.cmdBusy (s : State) : Bool :=
  (List.range 4).any (fun k => s.flag (pKEY k) Fd.KEY_CMD_STATUS_BUSY) || s.flag pOTP Fd.OTP_CMD_STATUS_BUSY
    || s.flag pTRN Fd.TRN_XSTAT_BUSY

/-- The reason that refuses a request of domain `d` for state `st`, or none (R495). -/
def State.pwrReason (s : State) (d st : Nat) (force : Bool) : Option Nat :=
  if s.boot ≠ .ready then some 1
  else if s.pwr = .lastGasp then some 2
  else if st = 2 && !force && !(s.flag pNM Fd.NM_STATUS_LOW_POWER_OK) then some 3
  else if st = 2 && !force && (List.range 4).any (fun e => s.qF e En.QENT_STATE ≠ 0) then some 4
  else if s.cmdBusy || s.emcTrains then some 5
  else if s.pwr ≠ .clause then some 6
  else if st = 2 && !(s.secure d) then some 7
  else none

/-- An accepted request: Comma with its commit point M, or the Period sequence up to the handover (R496, R497). -/
def State.pwrAccept (s : State) (st : Nat) : State :=
  let s := s.setPow { s.pow with exit := none, abort := false }
  if st = 1 then
    let m := s.now + s.fld pPWR Fd.PWR_CFG_COMMIT_US * 1000
    let s := (s.wr64 pPWR Reg.PWR_ENTRY_STAMP_LO m).setFld pPWR Fd.PWR_STATE_STATE 1
    { s with pwr := .commaPending, pow := { s.pow with commit := m } }
  else
    let s := s.commaActions.freshSave.setFld pPWR Fd.PWR_STATE_STATE 2
    { s with pwr := .periodPending, time := { s.time with handover := true } }

/-- A request of domain `d` for state `st`, written as `v`, is accepted, or refused with its reason; `auto` is the device's
own. -/
def State.pwrRequest (s : State) (d v st : Nat) (force auto : Bool) : State :=
  match s.pwrReason d st force with
  | some r =>
    let s := (s.setFld pPWR Fd.PWR_STATE_REFUSE r).raise pPWR Iq.PWR_ENTRY_REFUSED
    let s := s.errBy d pPWR Er.PWR_REFUSED r v
    if auto then s.setPow { s.pow with lowSince := none } else s
  | none => s.pwrAccept st

/-- An accepted write of PWR_REQ by domain `d`. -/
def State.pwrReqWrite (s : State) (d v : Nat) : State :=
  let st := v % 4
  if st = 0 || st = 3 then s.refuse d (pPWR * 4096 + Reg.PWR_REQ) v Er.REG_BAD_VALUE
  else if v.testBit 31 then s.pwrRequest d v st (v.testBit 2) false else s

/-- COMMA_REQUEST: domain `d` writes PWR_REQ with GO = 1 and STATE 1. -/
def execCommaRequest (t d : Nat) (s : State) : Res :=
  live t s fun s =>
    let v := 2 ^ 31 + 1
    s.judged d (pPWR * 4096 + Reg.PWR_REQ) 32 v fun s => s.pwrReqWrite d v

/-- PERIOD_REQUEST: domain `d` writes PWR_REQ with GO = 1, STATE 2 and FORCE as given. -/
def execPeriodRequest (t d : Nat) (force : Bool) (s : State) : Res :=
  live t s fun s =>
    let v := 2 ^ 31 + b2n force * 4 + 2
    s.judged d (pPWR * 4096 + Reg.PWR_REQ) 32 v fun s => s.pwrReqWrite d v

/-- AUTO_POWER_REQUEST: LOW_POWER_OK has read 1 for AUTO_DELAY_MS, and the device requests as D7 (R495). -/
def execAutoPowerRequest (t : Nat) (s : State) : Res :=
  running t s fun s =>
    let auto := s.fld pPWR Fd.PWR_CFG_AUTO
    match s.pow.lowSince with
    | some x =>
      if (auto = 1 || auto = 2) && x + s.fld pPWR Fd.PWR_CFG_AUTO_DELAY_MS * 1000000 ≤ s.now then
        (s.setPow { s.pow with lowSince := some s.now }).pwrRequest 7 0 auto false true
      else s
    | none => s

/-! ### Entries and exits (Table 6) -/

/-- COMMA_ENTRY: at M + 50 µs the entry actions run (R496). -/
def execCommaEntry (t : Nat) (s : State) : Res :=
  always t s fun s =>
    if s.pwr ≠ .commaPending || s.now < s.pow.commit + 50000 then s
    else
      let s := (s.commaActions.inc pPWR Cn.PWR_COMMA_ENTRIES).jnlAt s.frc 0xFF 0x10 4 0 0
      let s := s.setFlag pTIME Fd.TIME_FRC_STATE_COMMA true
      { s with pwr := .comma, coarse := true }

/-- COMMA_EXIT: an exit source ends Comma (R479); an aborted Period entry resumes Clause in the same way (R497).
DEDUCED, unsafe (notes/assumptions/74.md). -/
def execCommaExit (t : Nat) (s : State) : Res :=
  always t s fun s =>
    match s.pwr with
    | .comma =>
      match s.pow.exit with
      | some (src, _) => s.commaExit src
      | none => s
    | .periodPending =>
      if s.pow.abort && !s.coarse then { s.commaResume with time := { s.commaResume.time with handover := false } } else s
    | _ => s

/-- PERIOD_ENTRY: after the handover the logic die is reset and PMIC_EN falls (R497 step 5); a power-fail declared since
leaves PF_HOLD (Table 6).
DEDUCED, unsafe (notes/assumptions/74.md). -/
def execPeriodEntry (t : Nat) (s : State) : Res :=
  always t s fun s =>
    if s.pwr ≠ .periodPending || !s.coarse || s.pow.abort then s
    else
      let s := s.inc pPWR Cn.PWR_PERIOD_ENTRIES
      if s.powerFail then s.pfHoldEnter
      else
        let s := s.logicReset.pmicOff 4
        { s with pwr := .period, pow := { s.pow with start := none, slept := [], lowSince := none } }

/-- PERIOD_EXIT: a wake or the timer starts the logic die with cause 2 (R478, R498). -/
def execPeriodExit (t : Nat) (s : State) : Res :=
  always t s fun s =>
    if s.pwr ≠ .period || s.pow.exit.isNone then s
    else
      let s := s.wr64 pPWR Reg.PWR_EXIT_STAMP_LO s.now
      { s with pwr := .clause, pow := { s.pow with start := some 2, cause := 2, causeAt := s.now } }.tryStart

/-- HOST_ACCESS_WAKE: a PCIe L1 exit (`src` 2, 3) or an SPI chip-select (4, 5) accepted at `stamp` aborts a Comma entry at or
before M, or ends Comma (R496, R498). -/
def execHostAccessWake (t src stamp : Nat) (s : State) : Res :=
  always t s fun s =>
    if src < 2 || 5 < src then s
    else if s.pwr = .commaPending then
      (if stamp ≤ s.pow.commit && s.now < s.pow.commit + 50000 then s.entryAbort else s.exitDue src stamp)
    else if s.pwr = .comma then s.exitDue src stamp
    else s

/-- WAKE_TIMER: SECONDS after the commit point (R498). -/
def execWakeTimer (t : Nat) (s : State) : Res :=
  always t s fun s =>
    let sec := s.fld pPWR Fd.PWR_TIMER_SECONDS
    if (s.pwr = .comma || s.pwr = .period) && sec ≠ 0 && s.pow.commit + sec * 1000000000 ≤ s.now then s.exitDue 7 s.now else s

/-! ### Power-fail and the last gasp (R341, R342, R500 to R502) -/

/-- The Transcript's part at stamp P (R341). -/
def State.transcriptPf (s : State) (P : Nat) : State :=
  let s := (s.setTrn { s.trn with pf := some P }).setFlag pTRN Fd.TRN_STATE_PF true
  let s := s.exportEnd Er.TRN_EXPORT_ERR
  let s := foldN 4 (fun e s =>
    if s.qF e En.QENT_STATE ≠ 0 && s.qF e En.QENT_CAP = 1 then (s.setQF e En.QENT_CAP 5).err pTRN Er.TRN_PF_DROP e else s) s
  let s := s.setFlag pMRAM Fd.MRAM_STATUS_LASTGASP true
  match s.trn.cap with
  | some c => s.setQF c.entry En.QENT_END P
  | none =>
    if !((s.fld pTRN Fd.TRN_QCFG_SRC_EN).testBit 6) then s.inc pTRN Cn.TRN_TRIG_MASKED
    else
      let s := s.inc pTRN Cn.TRN_TRIGGERS
      match (List.range 4).find? fun e => s.qF e En.QENT_STATE = 0 with
      | some e =>
        let s := s.quoteOpen e 7 P 0 (P - s.fld pTRN Fd.TRN_QPF_PF_PRE_S * 1000000000) P
        s.quoteMark e (s.qF e En.QENT_GEN) 7 0 P false
      | none =>
        let s := (s.inc pTRN Cn.TRN_TRIG_LOST).raise pTRN Iq.TRN_TRIG_LOST
        (s.err pTRN Er.TRN_TRIG_LOST 7).draw.quoteMark 0xFF (Config.free s.draws % 2 ^ 32) 7 0 P false

/-- The last gasp starts: PHYs and links go down, the transceivers of channels 0 to 15 enter the standby of their SLEEP_MODE
(Table 7).
DEDUCED, unsafe (notes/assumptions/75.md). -/
def State.lastGasp (s : State) (P : Nat) : State :=
  let s := s.transcriptPf P
  let s := foldN 16 (fun n s =>
    let m := s.sleepMode n
    s.setStandby n (if m = 1 then 2 else if m = 3 then 3 else 1)) s
  let s := foldN 4 (fun d s => s.setFlag (pHDOM d) Fd.HDOM_STATE_LINK false) s
  let s := s.wr pCRG Reg.CRG_STATUS (s.rd pCRG Reg.CRG_STATUS &&& 0x30B)
  { s.setFld pPWR Fd.PWR_STATE_STATE 3 with pwr := .lastGasp, pow := { s.pow with exit := none, abort := false } }

/-- A declared power-fail in Clause or a pending entry: the last gasp, or PF_HOLD at once with the Transcript disabled.
DEDUCED, unsafe (notes/assumptions/75.md). -/
def State.gaspOrHold (s : State) (P : Nat) : State :=
  if s.enabled pTRN then s.lastGasp P else s.freshSave.abruptLoss.pfHoldEnter

/-- POWER_FAIL: the lower of VBAT and VBAT_SNS has stayed below THR_MV for FILT_US since the sample stamped P (R500, R502,
Table 6).
DEDUCED, unsafe (notes/assumptions/75.md). -/
def execPowerFail (t P : Nat) (s : State) : Res :=
  always t s fun s =>
    if s.powerFail || s.now < P + s.fld pLINE Fd.LINE_PF_FILT_US * 1000 then s
    else
      let s := (s.setFlag pLINE Fd.LINE_STATUS_PF_WARN true).setFlag pLINE Fd.LINE_RETAIN_PF true
      let s := (s.wr64 pPWR Reg.PWR_PF_STAMP_LO P).setPow { s.pow with highSince := none }
      let s := if s.boot = .off then s else (s.inc pPWR Cn.PWR_POWER_FAILS).errAt pPWR Er.PWR_PF 0 0 P
      if s.boot ≠ .ready then s.abruptLoss.pfHoldEnter
      else
        match s.pwr with
        | .periodPending => if s.coarse then s.setPow { s.pow with abort := false } else s.gaspOrHold P
        | .comma => (s.commaExit 6).gaspOrHold P
        | _ => s.gaspOrHold P

/-- LAST_GASP_COMPLETE: the capsule is closed, the freshness slots are saved, the FRC is handed over and PMIC_EN falls
(R502). -/
def execLastGaspComplete (t : Nat) (s : State) : Res :=
  always t s fun s =>
    if s.pwr ≠ .lastGasp || s.trn.cap.isSome then s
    else
      let s := if s.coarse then s.freshSave else s.freshSave.handoverEntry
      (s.setFlag pLINE Fd.LINE_RETAIN_PF_DONE true).pfHoldEnter

/-- VBAT_RECOVERY: both supplies have stayed at THR_MV + 1,000 mV or above for RESTART × 10 ms in PF_HOLD (R501). -/
def execVbatRecovery (t : Nat) (s : State) : Res :=
  always t s fun s =>
    match s.pow.highSince with
    | some x =>
      if s.pwr = .pfHold && x + s.fld pLINE Fd.LINE_PF_RESTART * 10000000 ≤ s.now then
        let s := (s.setFlag pLINE Fd.LINE_STATUS_PF_WARN false).wr64 pPWR Reg.PWR_EXIT_STAMP_LO s.now
        { s with pwr := .clause, pow := { s.pow with start := some 2, cause := 2, causeAt := s.now, exit := some (7, s.now) } }.tryStart
      else s
    | none => s

end Sys2Proof.Machine
end

