-- ==== Sys2Proof/Machine/WindowOps.lean ====
section
/-!
DEFINITION. The entries of the window tables (R80, R115, R135, R136, R175, R229, R258, R288, R318, R345, R371, R398, R416,
R445): where an entry is held, what a READ returns, which bits a write stores, the entry checks of the chapters, and what
a write does beside storing.
-/

namespace Sys2Proof.Machine

/-! ### Reading -/

/-- All 256 bits of an entry. -/
abbrev allBits : Nat := 2 ^ 256 - 1

/-- Where entry `idx` of table `tab` of page `p` is held: the receive objects of all CAN controllers are one memory, which
each reaches at its own BASE (R92). -/
def State.winHome (s : State) (p tab idx : Nat) : Nat × Nat :=
  if blkOf p = some .canc && tab = 0 then (pCANC 0, s.fld p Fd.CANC_OBJ_RANGE_BASE + idx)
  else if blkOf p = some .canc && tab = 1 then (pCANC 0, 2 * s.fld p Fd.CANC_OBJ_RANGE_BASE + idx)
  else (p, idx)

/-- The entry as it is held. -/
def State.heldEntry (s : State) (p tab bank idx : Nat) : Entry :=
  let h := s.winHome p tab idx
  s.ent h.1 tab bank h.2

/-- A coordinate of the identity key's public point as 32 big-endian bytes; 0 while slot 1 is empty (R387, R398). -/
def State.identityPub (s : State) (i : Nat) : Entry :=
  if s.slotValid 1 then
    let q := p256Public (smGet 0 1 s.keys.mat)
    bytesToEntry (beBytes 32 (if i = 0 then q.1 else q.2))
  else 0

/-- The fields of an NM channel entry that the line die holds: all but NM_TX, on channels 0 to 15 (R364). -/
def nmLineBits : Nat := En.NMCH_rw - 2 ^ 3

/-- What a READ of an entry returns. `fail`: every attempt on the management link failed, so what the line die holds reads 0
(R503). -/
def State.winEntry (s : State) (p tab bank idx : Nat) (fail : Bool) : Entry :=
  let e := s.heldEntry p tab bank idx
  match blkOf p, tab with
  | some .canc, 1 =>
    let a := (s.winHome p 1 idx).2
    match (s.can (p - pCANC 0)).shadow with
    | some (o, x, y) => if a / 2 = o then (if a % 2 = 0 then x else y) else e
    | none => e
  | some .nm, 0 => if fail && idx < 16 then e &&& ~~~(BitVec.ofNat 256 nmLineBits) else e
  | some .key, 0 => s.ent (pKEY 0) 0 0 idx
  | some .key, 1 => 0
  | some .key, 3 => s.identityPub idx
  | some .otp, _ => if otpSecret idx then 0 else BitVec.ofNat 256 (s.otpWord idx)
  | some .egr, 3 => if bank = 1 then e &&& BitVec.ofNat 256 En.GLP_rw else e
  | some .msec, 5 =>
    if s.encoding (16 * (p - pMSEC 0) + idx / 4) (idx % 4) then fput e En.SA_IN_USE 1 else e
  | _, _ => e

/-- Key material under R34: the staging tables and the OTP words that hold keys (R372, R398). -/
def winSecret (p tab idx : Nat) : Bool :=
  (blkOf p = some .key && tab = 1) || (blkOf p = some .otp && otpSecret idx)

/-! ### Writing -/

/-- The bits of an entry that a write stores; the others are RO or reserved. -/
def entryRw (p tab : Nat) : Nat :=
  match blkOf p, tab with
  | some .gptp, 0 => En.GPORT_rw
  | some .gptp, _ => En.GROLE_rw
  | some .canc, 0 => En.OBJ_rw
  | some .canc, 2 => En.TXH_rw
  | some .canc, 4 => 2 ^ 65 - 1
  | some .canc, _ => allBits
  | some .linc, 0 => En.RESP_rw
  | some .linc, _ => En.SCHE_rw
  | some .ser, _ => allBits
  | some .srt, 0 => En.ROUTE_rw
  | some .srt, 1 => En.DSTS_rw * (1 + 2 ^ 64 + 2 ^ 128 + 2 ^ 192)
  | some .srt, 2 => En.MAP_rw
  | some .srt, 3 => allBits
  | some .srt, 5 => En.TXS_rw
  | some .srt, 6 => En.RXS_rw
  | some .pipe, 0 => En.PPORT_rw
  | some .pipe, 1 => En.PCLS_rw
  | some .pipe, 2 => En.PKEY_rw
  | some .pipe, 3 => En.PACT_rw
  | some .pipe, 4 => En.METER_rw
  | some .pipe, 5 => En.SFILT_rw
  | some .pipe, 6 => En.MSTATE_rw
  | some .pipe, 7 => En.SFCNT_rw
  | some .fdb, 1 => En.VLAN_rw
  | some .fdb, 2 => En.GRP_rw
  | some .fdb, 3 => En.LPORT_rw
  | some .swc, 0 => En.SPORT_rw
  | some .egr, 0 => En.EPORT_rw
  | some .egr, 1 => En.EQ_rw
  | some .egr, 2 => En.GLE_rw
  | some .egr, 3 => En.GLP_rw
  | some .egr, 4 => En.STRM_rw
  | some .egr, 5 => En.GENF_rw
  | some .egr, 6 => En.RECF_rw
  | some .trn, 0 => En.ETAP_rw
  | some .nm, 0 => En.NMCH_rw
  | some .key, 1 => allBits
  | some .msec, 0 => En.PROF_rw
  | some .msec, 1 => En.FRSH_rw
  | some .msec, 3 => En.MPORT_rw
  | some .msec, 4 => En.SC_rw
  | some .msec, 5 => En.SA_rw
  | some .hdom, 0 => En.RING_rw - (2 ^ 8 - 1) * 2 ^ 192 - (2 ^ 6 - 1) * 2 ^ 180
  | some .hdom, _ => En.RING_rw
  | _, _ => 0

/-- The entry that a write of `e` leaves where `old` stood. A clear by 0 of MARK_RED and BLOCKED (R229); the data of a
response entry only from the host for SRC = 0 (R119); a ring starts at 0 (R428); an association starts unused (R416); a
write of an offender entry clears it (R371). -/
def merged (p tab : Nat) (old e : Entry) : Entry :=
  let rw := BitVec.ofNat 256 (entryRw p tab)
  let x := (old &&& ~~~rw) ||| (e &&& rw)
  match blkOf p, tab with
  | some .pipe, 6 | some .pipe, 7 => old &&& (e ||| ~~~rw)
  | some .linc, 0 =>
    if fget e En.RESP_SRC = 1 then fput x En.RESP_DATA (fget old En.RESP_DATA) else fput x En.RESP_UPDATED 1
  | some .nm, 1 => 0
  | some .msec, 5 => fput (fput x En.SA_EXHAUSTED 0) En.SA_IN_USE 0
  | some .hdom, _ => fput (fput (fput x En.RING_HEAD 0) En.RING_TAIL 0) En.RING_STATE (fget e En.RING_VALID)
  | _, _ => x

/-- Buffer 2 of a channel changes hands when NM_TX changes (R352). -/
def State.nmTxChanged (s : State) (n : Nat) (was now : Bool) : State :=
  let c := s.can n
  let st := s.txbState n 2
  let busy := st = 1 || st = 2
  if was = now then s
  else if now then
    if c.nmBuf = 0 && busy then (s.setCan n { c with nmBuf := 1 }).txbCancel n 2 s.now
    else s.setCan n { c with nmBuf := 2 }
  else if c.nmBuf = 1 then s.setCan n { c with nmBuf := 0 }
  else if busy then (s.setCan n { c with nmBuf := 3 }).txbCancel n 2 s.now
  else
    let s := (s.setTxbState n 2 0).setEnt (pCANC n) 2 0 2 0
    let s := foldN 64 (fun k s => s.setEnt (pCANC n) 3 0 (128 + k) 0) s
    s.setCan n { s.can n with nmBuf := 0 }

/-- What has to be brought up to date before an entry changes: the credits of a port (R294), an open PDU (R166). -/
def State.beforeWrite (s : State) (p tab idx : Nat) : State :=
  match blkOf p, tab with
  | some .egr, 0 => s.creditSync idx
  | some .egr, 1 => s.creditSync (idx / 8)
  | _, _ => s

/-- What follows a change of an entry by the window from `old`: `active` says that the entry stands in the active bank. -/
def State.afterWrite (s : State) (p tab idx : Nat) (old : Entry) (active : Bool) : State :=
  match blkOf p, tab with
  | some .gptp, 1 => s.gptpRoles (idx / 32)
  | some .srt, _ => if active then s.srtWritten tab idx old else s
  | some .egr, 6 => s.frWritten idx
  | some .nm, 0 => (s.nmTxChanged idx (fget old En.NMCH_NM_TX = 1) (s.entF pNM 0 0 idx En.NMCH_NM_TX = 1)).nmStatus
  | some .hdom, t =>
    let d := p - pHDOM 0
    let s := s.setRingRt d t idx { s.ringRt d t idx with coal := 0, since := 0 }
    if t = 1 then s.setDom d { s.dom d with resetRings := (s.dom d).resetRings.filter (· ≠ idx) } else s
  | _, _ => s

/-- The index under which a table location is remembered for R514: MSEC tables 4 to 6 by their device-wide index. -/
def eccKey (p tab idx : Nat) : Nat × Nat × Nat :=
  if blkOf p = some .msec && 4 ≤ tab then (pMSEC 0, tab, (if tab = 4 then 16 else 64) * (p - pMSEC 0) + idx) else (p, tab, idx)

/-- Replace one entry by the window. `fail`: the line die's part of an NM channel entry is not written (R503). -/
def State.putEntry (s : State) (p tab bank idx : Nat) (e : Entry) (fail : Bool) : State :=
  let s := s.beforeWrite p tab idx
  let h := s.winHome p tab idx
  let old := s.ent h.1 tab bank h.2
  let new := merged p tab old e
  let new := if fail && blkOf p = some .nm && tab = 0 && idx < 16 then fput old En.NMCH_NM_TX (fget new En.NMCH_NM_TX) else new
  let s := s.setEnt h.1 tab bank h.2 new
  let s := { s with eccSeen := s.eccSeen.filter (· ≠ eccKey p tab idx) }
  s.afterWrite p tab idx old (!(tabBanked p tab) || bank = s.bankOf p)

/-! ### Entry checks -/

/-- REG_BAD_VALUE where the condition holds. -/
def badIf (b : Bool) : Option (Nat × Nat) := if b then some (Er.REG_BAD_VALUE, 0) else none

/-- The entry's field `f` lies outside `lo` to `hi`. -/
def outside (e : Entry) (f : Fld) (lo hi : Nat) : Bool := fget e f < lo || hi < fget e f

/-- A buffer of a CAN controller: the engine's buffer first (R351), then its state (R100). -/
def State.canBufCheck (s : State) (n b : Nat) : Option (Nat × Nat) :=
  if s.nmOwnsTxb n b then some (Er.REG_BAD_VALUE, 0)
  else if s.txbState n b = 1 || s.txbState n b = 2 then some (Er.CAN_TXB_LOCKED, b)
  else none

/-- Entry 0 of a schedule table that runs, or that a pending switch will start, stays valid while GO = 1 (R123). -/
def State.schedHeld (s : State) (n tab idx : Nat) : Bool :=
  let cur := s.fld (pLINC n) Fd.LINC_SCHED_CUR + 1
  idx = 0 && s.flag (pLINC n) Fd.LINC_SCHED_GO && (tab = cur || (s.lin n).switch)

/-- LIN tables (R123, R135). -/
def State.linCheck (s : State) (n tab idx : Nat) (e : Entry) : Option (Nat × Nat) :=
  if tab = 0 then badIf (fget e En.RESP_VALID = 1 && (fget e En.RESP_LEN = 0 || fget e En.RESP_DIR = 3))
  else badIf ((fget e En.SCHE_VALID = 1 && fget e En.SCHE_SLOT = 0) || (fget e En.SCHE_VALID = 0 && s.schedHeld n tab idx))

/-- PIPE tables (R229). -/
def pipeCheck (tab : Nat) (e : Entry) : Option (Nat × Nat) :=
  match tab with
  | 0 => badIf (fget e En.PPORT_TAG_MAX = 0 || fget e En.PPORT_ACCEPT = 3 || outside e En.PPORT_PVID 1 4094)
  | 1 => badIf (fget e En.PCLS_VALID = 1 && (fget e En.PCLS_HI < fget e En.PCLS_LO || fget e En.PCLS_CLASS = 0))
  | 3 => badIf ((fget e En.PACT_VID_EN = 1 && outside e En.PACT_VID 1 4094) || 5 ≤ fget e En.PACT_TAP
      || (fget e En.PACT_DST_KIND = 0 && 35 < fget e En.PACT_DST))
  | 4 => badIf (fget e En.METER_VALID = 1 && (10000000 < fget e En.METER_EIR || 10000000 < fget e En.METER_CIR))
  | _ => none

/-- SWC port entries (R288). -/
def swcCheck (idx : Nat) (e : Entry) : Option (Nat × Nat) :=
  badIf ((fget e En.SPORT_FULL_POLICY = 1 && !([32, 33, 35].contains idx)) || (fget e En.SPORT_TX_MIRROR_EN = 1 && idx = 35)
    || ((fget e En.SPORT_CT_OUT = 1 || fget e En.SPORT_CT_IN = 1) && 32 ≤ idx))

/-- The highest MAC rate of a port in kbit/s (Table 1 of *Ethernet Ports and PHYs*). -/
def maxKbps (p : Nat) : Nat := if p < 4 then 10000000 else if p < 12 then 2500000 else if p < 24 then 100000 else 10000

/-- The idle slopes of a port's queues with TSA 1 exceed its highest MAC rate when queue `q` takes slope `x` (R295). -/
def State.slopesOver (s : State) (p q x : Nat) : Bool :=
  maxKbps p < (((List.range 8).filter fun k => s.tsa p k = 1).map fun k => if k = q then x else s.eqF p k En.EQ_IDLE_SLOPE).sum

/-- EGR tables (R289, R295, R306, R318). -/
def State.egrCheck (s : State) (tab idx : Nat) (e : Entry) : Option (Nat × Nat) :=
  match tab with
  | 0 => badIf ((List.range 8).any fun q => bitsOf e (192 + 8 * q) 8 = 0 || bitsOf e (176 + 2 * q) 2 = 3
      || (32 ≤ idx && bitsOf e (176 + 2 * q) 2 = 1))
  | 1 => badIf (10000000 < fget e En.EQ_IDLE_SLOPE
      || (s.tsa (idx / 8) (idx % 8) = 1 && s.slopesOver (idx / 8) (idx % 8) (fget e En.EQ_IDLE_SLOPE)))
  | 2 =>
    if s.gclSt (idx / 256) = 2 then some (Er.WIN_BANK_DRAINING, 0)
    else badIf (outside e En.GLE_INTERVAL 40 1000000000 || fget e En.GLE_OP = 3
      || (12 ≤ idx / 256 && (fget e En.GLE_OP = 1 || fget e En.GLE_OP = 2)))
  | 3 => if s.gclSt idx = 2 then some (Er.WIN_BANK_DRAINING, 0) else badIf (256 < fget e En.GLP_LEN)
  | 6 => badIf (10000 < fget e En.RECF_WINDOW_US || 35 < fget e En.RECF_PRIM_PORT || fget e En.RECF_DIS = 3
      || outside e En.RECF_PATHS 2 4 || outside e En.RECF_HISTORY_LEN 2 64)
  | _ => none

/-- Ethernet tap entries (R345, Table 12). -/
def tapCheck (e : Entry) : Option (Nat × Nat) :=
  let mode := fun f => !([0, 2, 3, 4].contains (fget e f))
  badIf (fget e En.ETAP_RX_N = 0 || fget e En.ETAP_TX_N = 0 || outside e En.ETAP_TRUNC 1 32 || mode En.ETAP_TX_MODE
    || mode En.ETAP_RX_MODE)

/-- A binding check that fails carries the key slot (R394). -/
def State.keyBind (s : State) (d h use : Nat) (types : List Nat) : Option (Nat × Nat) :=
  (s.bindCheck d h use types).map fun c => (c, h % 256)

/-- A valid profile of direction `dir`, other than `idx`, names freshness slot `slot` (R405). -/
def State.freshNamed (s : State) (slot dir idx : Nat) : Bool :=
  (s.tabList (pMSEC 0) 0 0).any fun x =>
    x.1 ≠ idx && fget x.2 En.PROF_VALID = 1 && fget x.2 En.PROF_DIR = dir && fget x.2 En.PROF_FRESH = slot

/-- Some association of channel `c` is valid. -/
def State.scBusy (s : State) (c : Nat) : Bool := (List.range 4).any fun an => s.saF c an En.SA_VALID = 1

/-- Another valid transmit channel stands on port `p`. -/
def State.txScOf (s : State) (p c : Nat) : Bool :=
  (List.range 128).any fun x =>
    x ≠ c && s.scF x En.SC_VALID = 1 && s.scF x En.SC_DIR = 1 && s.scF x En.SC_PORT = p

/-- MSEC tables of page `k` (R394, R405, R411, R412, R416). -/
def State.msecCheck (s : State) (d k tab idx : Nat) (e : Entry) : Option (Nat × Nat) :=
  match tab with
  | 0 =>
    if outside e En.PROF_TAG_BITS 24 128 || 32 < fget e En.PROF_FV_TX_BITS || 2040 < fget e En.PROF_PLEN then some (Er.REG_BAD_VALUE, 0)
    else if fget e En.PROF_VALID = 0 then none
    else
      (s.keyBind d (fget e En.PROF_KEY) useCmac [1, 2]).or
        (badIf (s.freshNamed (fget e En.PROF_FRESH) (1 - fget e En.PROF_DIR) idx))
  | 1 => badIf (fget e En.FRSH_FV < s.fresh idx && s.freshNamed idx 1 256)
  | 3 =>
    let c := fget e En.MPORT_TX_SC
    badIf ((fget e En.MPORT_TX_EN = 1 && !(s.scF c En.SC_VALID = 1 && s.scF c En.SC_DIR = 1 && s.scF c En.SC_PORT = idx))
      || fget e En.MPORT_OFFSET = 3 || fget e En.MPORT_VALIDATE = 3)
  | 4 =>
    let c := 16 * k + idx
    badIf (s.scBusy c || 23 < fget e En.SC_PORT
      || (fget e En.SC_VALID = 1 && fget e En.SC_DIR = 1 && s.txScOf (fget e En.SC_PORT) c))
  | 5 =>
    let c := 16 * k + idx / 4
    let pn := fget e En.SA_NEXT_PN
    if s.encoding c (idx % 4) || pn = 0 || (!(s.isXpn c) && 2 ^ 32 ≤ pn) then some (Er.REG_BAD_VALUE, 0)
    else if fget e En.SA_VALID = 1 then s.keyBind d (fget e En.SA_KEY) useGcm [if s.scF c En.SC_SUITE % 2 = 0 then 1 else 2]
    else none
  | _ => none

/-- Ring entries of domain `x` (R433, R445, Table 12). -/
def State.ringCheck (s : State) (x tab idx : Nat) (e : Entry) : Option (Nat × Nat) :=
  let src := if x < 2 then 32 else 33
  badIf (s.ringF x tab idx En.RING_VALID = 1 || bitsOf e 64 12 ≠ 0 || fget e En.RING_COAL_CNT = 0
    || outside e En.RING_LOG2_SIZE 6 12 || (tab = 1 && fget e En.RING_SRC_PORT ≠ src && fget e En.RING_SRC_PORT ≠ 35))

/-- The entry check of a WRITE, or of one entry of a FILL, of value `e` by domain `d` (step 7 of R46).
DEDUCED, unsafe (notes/assumptions/21.md). -/
def State.entryCheck (s : State) (d p tab idx : Nat) (e : Entry) : Option (Nat × Nat) :=
  match pageRow p with
  | none => none
  | some (r, i, k) =>
    match r.blk, tab with
    | .gptp, 1 => badIf (fget e En.GROLE_VALID = 1 && fget e En.GROLE_ROLE = 2 && (List.range 24).any fun q =>
        32 * (idx / 32) + q ≠ idx && s.entF p 1 0 (32 * (idx / 32) + q) En.GROLE_VALID = 1
          && s.entF p 1 0 (32 * (idx / 32) + q) En.GROLE_ROLE = 2)
    | .canc, 2 => s.canBufCheck i idx
    | .canc, 3 => s.canBufCheck i (idx / 64)
    | .linc, _ => s.linCheck i tab idx e
    | .ser, _ => if s.fld p Fd.SER_TXB_STATE = 1 || s.fld p Fd.SER_TXB_STATE = 2 then some (Er.SER_TXB_LOCKED, i) else none
    | .srt, _ => (s.srtEntryCheck tab idx e).map fun c => (c, 0)
    | .pipe, _ => pipeCheck tab e
    | .swc, _ => swcCheck idx e
    | .egr, _ => s.egrCheck tab idx e
    | .trn, _ => tapCheck e
    | .nm, 0 => badIf (16 ≤ idx && fget e En.NMCH_SLEEP_MODE < 2)
    | .msec, _ => s.msecCheck d k tab idx e
    | .hdom, _ => s.ringCheck i tab idx e
    | _, _ => none

/-- The check of an INVALIDATE: an encoding association (R416), entry 0 of a schedule (R123), a CAN buffer's header. -/
def State.invalidCheck (s : State) (p tab idx : Nat) : Option (Nat × Nat) :=
  match pageRow p with
  | none => none
  | some (r, i, k) =>
    match r.blk, tab with
    | .canc, 2 => s.canBufCheck i idx
    | .linc, 1 | .linc, 2 => badIf (s.schedHeld i tab idx)
    | .msec, 5 => badIf (s.encoding (16 * k + idx / 4) (idx % 4))
    | _, _ => none

/-- The entries of a FILL one after another: the first check that fails, and the state with all of them written. -/
def State.fillRun (s : State) (d p tab bank idx : Nat) (e : Entry) (fail : Bool) : Nat → Option (Nat × Nat) × State
  | 0 => (none, s)
  | n + 1 =>
    match s.entryCheck d p tab idx e with
    | some c => (some c, s)
    | none => (s.putEntry p tab bank idx e fail).fillRun d p tab bank (idx + 1) e fail n

/-- COPY of one entry from the active bank to the standby bank; only what a write stores is copied. -/
def State.copyEntry (s : State) (p tab idx : Nat) : State :=
  let b := s.bankOf p
  s.setEnt p tab (1 - b) idx (s.ent p tab b idx &&& BitVec.ofNat 256 (entryRw p tab))

/-- INVALIDATE of one entry: only its valid bits clear (R43, R175); a ring stops, its HEAD and TAIL at 0 (R433); an open PDU
closes first (R166). -/
def State.dropEntry (s : State) (p tab bank idx : Nat) : State :=
  let s := if p = pSRT && tab = 5 then s.pduClose idx else s
  let h := s.winHome p tab idx
  let old := s.ent h.1 tab bank h.2
  let new := old &&& ~~~(BitVec.ofNat 256 (validBits p tab))
  let new := if blkOf p = some .hdom then fput (fput (fput new En.RING_STATE 0) En.RING_HEAD 0) En.RING_TAIL 0 else new
  let s := s.setEnt h.1 tab bank h.2 new
  s.afterWrite p tab idx old (!(tabBanked p tab) || bank = s.bankOf p)

/-- The bits that READ_CLR zeroes: counters, or NEW and LOST of an object (R95, R229, R288, R318, R416). -/
def clrBits (p tab : Nat) : Nat :=
  match blkOf p, tab with
  | some .canc, _ => 2 ^ 4 + 2 ^ 5
  | some .pipe, 6 => 2 ^ 192 - 1
  | some .pipe, 7 => 2 ^ 224 - 1
  | some .swc, _ => allBits - (2 ^ 128 - 1)
  | _, _ => allBits

end Sys2Proof.Machine
end

