-- ==== Sys2Proof/Machine/Window.lean ====
section
/-!
DEFINITION. The window commands of every table (R43 to R46, R95). A command's effect on its entries is made when it is
accepted; WIN_CMD_DONE ends it (notes/assumptions/21.md).
-/

namespace Sys2Proof.Machine

/-- TABLE and INDEX of a page's WIN_ADDR. -/
def State.winTab (s : State) (p : Nat) : Nat := s.fld p Fd.WIN_TABLE

def State.winIdx (s : State) (p : Nat) : Nat := s.fld p Fd.WIN_INDEX

/-- READ, and the first half of READ_CLR: the entry goes to DATA0 to DATA7; key material reads 0 with REG_KEY_READ (R34); an
uncorrectable error ends the command with WIN_ECC and zeros (R46). -/
def State.readEntry (s : State) (d p : Nat) (ecc fail : Bool) : Nat × State :=
  let tab := s.winTab p
  let idx := s.winIdx p
  if ecc || (blkOf p = some .otp && s.otp.bad.contains idx) then (Er.WIN_ECC, s.setWinData p 0)
  else
    let s := s.beforeWrite p tab idx
    let s := if winSecret p tab idx then s.errBy d p Er.REG_KEY_READ Reg.WIN_CMD 1 else s
    (0, s.setWinData p (s.winEntry p tab (s.winBank p tab) idx fail))

/-- READ by domain `d` at page `p`. `ecc`: the entry holds an uncorrectable error. -/
def State.winRead (s : State) (d p v : Nat) (ecc fail : Bool) : State :=
  s.winRun d p v (fun _ => none) fun s => s.readEntry d p ecc fail

/-- WRITE by domain `d` at page `p`. -/
def State.winWrite (s : State) (d p v : Nat) (fail : Bool) : State :=
  s.winRun d p v (fun s => s.entryCheck d p (s.winTab p) (s.winIdx p) (s.winData p)) fun s =>
    (0, s.putEntry p (s.winTab p) (s.winBank p (s.winTab p)) (s.winIdx p) (s.winData p) fail)

/-- INVALIDATE by domain `d` at page `p`. -/
def State.winInvalidate (s : State) (d p v : Nat) : State :=
  s.winRun d p v (fun s => s.invalidCheck p (s.winTab p) (s.winIdx p)) fun s =>
    (0, s.dropEntry p (s.winTab p) (s.winBank p (s.winTab p)) (s.winIdx p))

/-- The run of a FILL of COUNT `cnt`. -/
def State.winFillRun (s : State) (d p cnt : Nat) (fail : Bool) : Option (Nat × Nat) × State :=
  s.fillRun d p (s.winTab p) (s.winBank p (s.winTab p)) (s.winIdx p) (s.winData p) fail (max cnt 1)

/-- FILL by domain `d` at page `p`: every entry is checked before any is written (step 7 of R46). -/
def State.winFill (s : State) (d p v : Nat) (fail : Bool) : State :=
  s.winRun d p v (fun s => (s.winFillRun d p (v / 65536) fail).1) fun s => (0, (s.winFillRun d p (v / 65536) fail).2)

/-- The check of a COPY: a PENDING port's administrative entries (R306). -/
def State.copyCheck (s : State) (p tab idx cnt : Nat) : Option (Nat × Nat) :=
  if p = pEGR && (List.range (max cnt 1)).any fun k => s.gclSt (if tab = 2 then (idx + k) / 256 else idx + k) = 2 then
    some (Er.WIN_BANK_DRAINING, 0)
  else none

/-- COPY by domain `d` at page `p`. -/
def State.winCopy (s : State) (d p v : Nat) : State :=
  let cnt := v / 65536
  s.winRun d p v (fun s => s.copyCheck p (s.winTab p) (s.winIdx p) cnt) fun s =>
    (0, foldN (max cnt 1) (fun k s => s.copyEntry p (s.winTab p) (s.winIdx p + k)) s)

/-- READ_CLR by domain `d` at page `p`: the entry goes to DATA0 to DATA7 and its counters, or NEW and LOST, clear in the
same access; an object's data go to the read shadow (R95). -/
def State.winReadClr (s : State) (d p v : Nat) (ecc : Bool) : State :=
  s.winRun d p v (fun _ => none) fun s =>
    let tab := s.winTab p
    let h := s.winHome p tab (s.winIdx p)
    let r := s.readEntry d p ecc false
    if r.1 ≠ 0 then r
    else
      let s := r.2
      let s := s.setEnt h.1 tab 0 h.2 (s.ent h.1 tab 0 h.2 &&& ~~~(BitVec.ofNat 256 (clrBits p tab)))
      (0, if blkOf p = some .canc then
          let n := p - pCANC 0
          s.setCan n { s.can n with shadow := some (h.2, s.ent (pCANC 0) 1 0 (2 * h.2), s.ent (pCANC 0) 1 0 (2 * h.2 + 1)) }
        else s)

/-- A write of the word `v` to WIN_CMD of page `p`: the command that its OP names (Table 17, and the chapters' own codes);
other codes are refused by the checks of R46. -/
def State.winCmdWrite (s : State) (d p v : Nat) (ecc fail : Bool) : State :=
  let op := v % 16
  let i := pageInst p
  if op = 1 then s.winRead d p v ecc fail
  else if op = 2 then s.winWrite d p v fail
  else if op = 3 then s.winInvalidate d p v
  else if op = 4 then s.winFill d p v fail
  else if op = 5 then s.winCopy d p v
  else if p = pTRN && op = 8 then s.trnFind d v
  else if p = pTRN && op = 9 then s.trnNext d v
  else if p = pFDB i then
    if op = 8 then s.fdbSearch d i v else if op = 9 then s.fdbNextCmd d i v else if op = 10 then s.fdbInsertCmd d i v
    else if op = 11 then s.fdbDelete d i v else if op = 12 then s.fdbFlushPort d i v else if op = 13 then s.fdbRehash d i v
    else if op = 14 then s.fdbHashCmd d i v else s.winCmd d p v (fun _ => none) id
  else if op = 8 then s.winReadClr d p v ecc
  else s.winCmd d p v (fun _ => none) id

/-! ### The commands -/

/-- READ (R43). -/
def execWinRead (t d p : Nat) (ecc fail : Bool) (s : State) : Res := live t s fun s => s.winRead d p 1 ecc fail

/-- WRITE (R43). -/
def execWinWrite (t d p : Nat) (fail : Bool) (s : State) : Res := live t s fun s => s.winWrite d p 2 fail

/-- INVALIDATE (R43). -/
def execWinInvalidate (t d p : Nat) (s : State) : Res := live t s fun s => s.winInvalidate d p 3

/-- FILL (R43). -/
def execWinFill (t d p cnt : Nat) (fail : Bool) (s : State) : Res := live t s fun s => s.winFill d p (cnt % 65536 * 65536 + 4) fail

/-- COPY (R43). -/
def execWinCopy (t d p cnt : Nat) (s : State) : Res := live t s fun s => s.winCopy d p (cnt % 65536 * 65536 + 5)

/-- READ_CLR, the block-specific OP 0x8 of the tables that have it (R95, R229, R288, R318, R416). -/
def execReadClr (t d p : Nat) (ecc : Bool) (s : State) : Res :=
  live t s fun s => if blkOf p = some .trn || blkOf p = some .fdb then s else s.winReadClr d p 8 ecc

/-- WIN_CMD_DONE: the command that runs on page `p` ends: BUSY clears and WIN_CMD_STATUS reports it alone (R46). REHASH
stays busy until REHASH_DONE (R254).
DESIGN CHOICE, safe (notes/assumptions/10.md). DEDUCED, unsafe (notes/assumptions/21.md). -/
def execWinCmdDone (t p : Nat) (s : State) : Res :=
  live t s fun s =>
    match s.wins.find? fun r => r.page = p with
    | none => s
    | some r =>
      if blkOf p = some .fdb && s.fld p fRebuild = 1 then s
      else
        let s := { s with wins := s.wins.filter fun x => x.page ≠ p }
        let s := s.setFlag p Fd.WIN_BUSY false
        let ok : Bool := r.err = 0
        let s := (s.setFlag p Fd.WIN_DONE ok).setFlag p Fd.WIN_ERROR !ok
        if ok then s else (s.setFld p Fd.WIN_ERR r.err).errBy r.dom p r.err Reg.WIN_CMD (s.rd p Reg.WIN_ADDR)

end Sys2Proof.Machine
end

