-- ==== Sys2Proof/Machine/RegWrites.lean ====
section
/-!
DEFINITION. Step 7 of R555 for the block-specific registers that have no command of their own: the values a field description
refuses and what a stored value starts. Each `xxxWrite` takes a write that has passed checks 1 to 6.
-/

namespace Sys2Proof.Machine

/-! ### Level sources (R32) -/

/-- Valid entries in a database's stash. -/
def State.stashCount (s : State) (i : Nat) : Nat := s.fld (pFDB i) Fd.FDB_COUNT_STASH

/-- xxx_IRQ_RAW of page `p`: ERR while an error is latched, and the sources that the chapters describe as levels. A source
that is a momentary event reads 0 (DEDUCED from Table 6 of *Register Space*, notes/assumptions/22.md). -/
def State.irqRaw (s : State) (p : Nat) : Nat :=
  let bit := fun (b : Nat) (c : Bool) => b2n c * 2 ^ b
  let err := bit 31 (s.flag p Fd.ERR_VALID)
  if !(isControlPage p) then err
  else
    err + match pageRow p with
    | none => 0
    | some (r, i, _) =>
      match r.blk with
      | .canc =>
        bit Iq.CANC_RXQ_AVAIL ((s.wq i).level ≠ 0)
          + bit Iq.CANC_TEC_WARN (s.fld p Fd.CANC_EWL_TEC_WARN ≤ s.fld p Fd.CANC_ERR_TEC)
          + bit Iq.CANC_REC_WARN (s.fld p Fd.CANC_EWL_REC_WARN ≤ s.fld p Fd.CANC_ERR_REC)
      | .linc => bit Iq.LINC_RXQ_AVAIL ((s.wq (24 + i)).level ≠ 0)
      | .ser => bit Iq.SER_RXQ_AVAIL ((s.wq (32 + i)).level ≠ 0)
      | .srt => bit Iq.SRT_EVQ_AVAIL ((s.wq 36).level ≠ 0)
      | .log => bit Iq.LOG_FIFO_AVAIL ((s.wq 37).level ≠ 0)
      | .fdb =>
        bit Iq.FDB_REHASH_REQ (s.flag p Fd.STATUS_REHASH_REQ)
          + bit Iq.FDB_STASH_HI (s.fld p Fd.FDB_STASH_WARN_LEVEL ≤ s.stashCount i)
      | .swc =>
        bit Iq.SWC_BUF_LOW (s.free < s.fld p Fd.SWC_FREE_WARN_LEVEL)
          + bit Iq.SWC_SPILL_ON (s.flag p Fd.SWC_SPILL_STAT_ACTIVE)
          + bit Iq.SWC_SPILL_NOSPACE (s.flag p Fd.SWC_SPILL_STAT_NO_SPACE)
          + bit Iq.SWC_QENTRY_LOW (s.fld p Fd.SWC_QENTRY_FREE_FREE < 4096)
      | .trn =>
        bit Iq.TRN_HI_SUSP (s.flag p Fd.TRN_STATE_HI_SUSP) + bit Iq.TRN_LO_SUSP (s.flag p Fd.TRN_STATE_LO_SUSP)
      | .line =>
        bit Iq.LINE_VBAT_LOW (s.fld p Fd.LINE_VBAT_VBAT_MV < s.fld p Fd.LINE_VMON_LOW_MV)
          + bit Iq.LINE_VBAT_HIGH (s.fld p Fd.LINE_VMON_HIGH_MV < s.fld p Fd.LINE_VBAT_VBAT_MV)
          + bit Iq.LINE_VCC5_UV (!(s.flag p Fd.LINE_STATUS_VCC5_OK))
      | _ => 0

/-- Store a register of page `a / 4096`; a level source that the new value raises latches (R32).
DEDUCED, safe (notes/assumptions/22.md). -/
def State.storeE (s : State) (a v : Nat) : State :=
  let p := a / 4096
  let old := s.irqRaw p
  let s := s.store a v
  let new := s.irqRaw p
  foldN 31 (fun b s => if new.testBit b && !(old.testBit b) then s.raise p b else s) s

/-- Store the value when it is one the field descriptions allow, or refuse it with REG_BAD_VALUE. -/
def State.keepIf (s : State) (ok : Bool) (d a v : Nat) : State :=
  if ok then s.storeE a v else s.refuse d a v Er.REG_BAD_VALUE

/-! ### Ethernet (R178 to R180, R187, R198, R199) -/

/-- The register exists on this kind of port (Tables 1 and 8 of *Ethernet Ports and PHYs*). -/
def eprtHas (n off : Nat) : Bool :=
  if off = Reg.EPRT_PCS || off = Reg.EPRT_SERDES || off = Reg.EPRT_PMAC || off = Reg.EPRT_PMAC_STAT then n < 12
  else if off = Reg.EPRT_T1 || off = Reg.EPRT_TC10 then 12 ≤ n && n < 24
  else if off = Reg.EPRT_PLCA || off = Reg.EPRT_PLCA_CTRL then 24 ≤ n
  else true

/-- EPRT_PCS takes this value on port `n` (Table 2, R178, R179).
DEDUCED, unsafe (notes/assumptions/48.md). -/
def pcsOk (n v : Nat) : Bool :=
  let mode := wf v Fd.EPRT_PCS_MODE
  let speed := wf v Fd.EPRT_PCS_SPEED
  let an := v.testBit 11
  speed ≤ 5 && mode ≤ 5 && (mode < 3 || n < 4)
    && (mode = 0 || (if mode = 1 || mode = 5 then an || modeCarries mode speed else !an))

/-- A write of an EPRT register.
PRESUMED, safe (notes/assumptions/27.md). -/
def State.eprtWrite (s : State) (d n off v : Nat) : State :=
  let a := pEPRT n * 4096 + off
  let closed := s.enabled (pEPRT n)
  if !(eprtHas n off) then s
  else if off = Reg.EPRT_CFG then
    s.keepIf (!closed && 64 ≤ wf v Fd.EPRT_CFG_MAX_LEN && wf v Fd.EPRT_CFG_MAX_LEN ≤ (if n < 12 then 9216 else 2048)
      && (wf v Fd.EPRT_CFG_LOOP ≠ 3 || (12 ≤ n && n < 24))) d a v
  else if off = Reg.EPRT_PCS then s.keepIf (!closed && pcsOk n v) d a v
  else if off = Reg.EPRT_T1 then s.keepIf (!closed && [0, 1, 2, 4, 5].contains (wf v Fd.EPRT_T1_TEST_MODE)) d a v
  else if off = Reg.EPRT_PLCA then s.keepIf (!closed && wf v Fd.EPRT_PLCA_NODE_CNT ≠ 0) d a v
  else if off = Reg.EPRT_PLCA_CTRL then
    s.keepIf (!closed && !(v.testBit 8 && s.fld (pEPRT n) Fd.EPRT_PLCA_NODE_ID = 255)) d a v
  else if off = Reg.EPRT_HOLD then s.keepIf (wf v Fd.EPRT_HOLD_HOLD_MS ≤ 50) d a v
  else if off = Reg.EPRT_PMAC then
    let ms := wf v Fd.EPRT_PMAC_VERIFY_MS
    if 1 ≤ ms && ms ≤ 128 then
      let old := (s.flag (pEPRT n) Fd.EPRT_PMAC_PREEMPT_EN, s.flag (pEPRT n) Fd.EPRT_PMAC_VERIFY_DIS)
      (s.store a v).pmacWritten n old
    else s.refuse d a v Er.REG_BAD_VALUE
  else if off = Reg.EPRT_TC10 then s.tc10Write d n v
  else s.store a v

/-! ### The switch (R228, R257, R287) -/

/-- A write of a PIPE register. -/
def State.pipeWrite (s : State) (d i off v : Nat) : State :=
  let a := pPIPE i * 4096 + off
  let us := wf v Fd.PIPE_CFG_RECIRC_MAX_US
  if off = Reg.PIPE_CFG then s.keepIf (1 ≤ us && us ≤ 1000) d a v else s.store a v

/-- A write of an FDB register: seeds of the standby bank are refused while it is mirrored (Table 4 of *Forwarding*); ageing
that is switched on starts its sweep now. -/
def State.fdbWrite (s : State) (d i off v : Nat) : State :=
  let p := pFDB i
  let a := p * 4096 + off
  if off = Reg.FDB_AGE then
    let was := s.fld p Fd.FDB_AGE_AGE_SEC
    let s := s.store a v
    if was = 0 && s.fld p Fd.FDB_AGE_AGE_SEC ≠ 0 then s.setFdb i { s.fdb i with sweepAt := s.now } else s
  else if Reg.FDB_SB_SEED0_LO ≤ off && off ≤ Reg.FDB_SB_SEED1_HI then s.keepIf (s.fld p fRebuild = 0) d a v
  else if off = Reg.FDB_STASH_WARN then
    s.keepIf (1 ≤ wf v Fd.FDB_STASH_WARN_LEVEL && wf v Fd.FDB_STASH_WARN_LEVEL ≤ 64) d a v
  else s.store a v

/-- A target port of a mirror or a sampler. -/
def copyTarget (x : Nat) : Bool := x ≤ 33 || x = 35

/-- A write of an SWC register (Table 7 of *Switch Core*). -/
def State.swcWrite (s : State) (d off v : Nat) : State :=
  let a := pSWC * 4096 + off
  let level := v % 2 ^ 17
  if off = Reg.SWC_CFG then s.keepIf (1 ≤ wf v Fd.SWC_CFG_CT_CELLS && wf v Fd.SWC_CFG_CT_CELLS ≤ 4) d a v
  else if off = Reg.SWC_FREE_WARN then s.keepIf (level ≤ 98304) d a v
  else if off = Reg.SWC_SPILL_ON then s.keepIf (1 ≤ level && level ≤ 98303) d a v
  else if off = Reg.SWC_SPILL_OFF then s.keepIf (s.fld pSWC Fd.SWC_SPILL_ON_LEVEL < level) d a v
  else if off = Reg.SWC_SPILL_HEAD then
    let keep := wf v Fd.SWC_SPILL_HEAD_HEAD_KEEP
    let low := wf v Fd.SWC_SPILL_HEAD_HEAD_LOW
    s.keepIf (32 ≤ keep && keep ≤ 4096 && 1 ≤ low && low < keep) d a v
  else if (arrIx off Reg.SWC_CLASS_CFG 8 8).isSome then s.keepIf (level ≤ 98304) d a v
  else if (arrIx off Reg.SWC_CLASS_QMAX 8 8).isSome then s.keepIf (wf v Fd.SWC_CLASS_QMAX_QMAX ≠ 0) d a v
  else if (arrIx off Reg.SWC_MIRROR 4 4).isSome then
    s.keepIf (copyTarget (wf v Fd.SWC_MIRROR_TARGET) && wf v Fd.SWC_MIRROR_TRUNC ≤ 16) d a v
  else if (arrIx off Reg.SWC_SAMP_CFG 8 4).isSome then
    s.keepIf (wf v Fd.SWC_SAMP_CFG_N ≠ 0 && copyTarget (wf v Fd.SWC_SAMP_CFG_TARGET) && wf v Fd.SWC_SAMP_CFG_TRUNC ≤ 16) d a v
  else s.store a v

/-! ### External memory and Transcript (R452, R465, R330 to R346) -/

/-- A write of an EMC register. -/
def State.emcWrite (s : State) (d off v : Nat) : State :=
  let a := pEMC * 4096 + off
  if off = Reg.EMC_CFG then s.emcCfgWrite d v
  else if off = Reg.EMC_SPILL then s.keepIf (!(s.enabled pEMC) && wf v Fd.EMC_SPILL_MIB ≤ 2048) d a v
  else if off = Reg.EMC_TRN then s.keepIf (!(s.enabled pEMC) && wf v Fd.EMC_TRN_SEGS ≤ 12288) d a v
  else if off = Reg.EMC_HOST then s.keepIf (!(s.enabled pEMC) && v % 16 ≠ 15) d a v
  else if off = Reg.EMC_HOG_LIMIT then s.keepIf (256 ≤ v % 65536) d a v
  else if off = Reg.EMC_SCRUB then s.keepIf (1 ≤ v % 65536) d a v
  else s.store a v

/-- A write of a TRN register. -/
def State.trnWrite (s : State) (d off v : Nat) : State :=
  let a := pTRN * 4096 + off
  if off = Reg.TRN_SUSP then
    if wf v Fd.TRN_SUSP_HI_LEVEL ≤ wf v Fd.TRN_SUSP_LO_LEVEL then s.refuse d a v Er.REG_BAD_VALUE
    else (s.store a v).trnLevels
  else if off = Reg.TRN_QCFG then
    s.keepIf (10 ≤ wf v Fd.TRN_QCFG_PRE_PCT && wf v Fd.TRN_QCFG_PRE_PCT ≤ 100) d a v
  else if off = Reg.TRN_QWIN then s.keepIf (wf v Fd.TRN_QWIN_POST_S ≤ 600) d a v
  else if off = Reg.TRN_QTRIG then s.qtrigWrite v
  else if off = Reg.TRN_QREL then s.qrelWrite d v
  else if off = Reg.TRN_XCMD then s.xcmdWrite d v
  else s.store a v

/-- A write of an MRAM control register. -/
def State.mramWrite (s : State) (d off v : Nat) : State :=
  match arrIx off Reg.MRAM_SLOT 4 7 with
  | some n => s.mramSlotWrite d n v
  | none => s.store (pMRAM * 4096 + off) v

/-! ### Host domains and Brackets (R435 to R441, R444, R446) -/

/-- A write of a register of HDOM[x]. -/
def State.hdomWrite (s : State) (d x off v : Nat) : State :=
  let a := pHDOM x * 4096 + off
  if off = Reg.HDOM_WDOG then (s.store a v).setDom x { s.dom x with wdogBase := s.now }
  else if off = Reg.HDOM_WDOG_KICK then s.kickWrite d x v
  else if off = Reg.HDOM_VEC_MASK then
    let old := s.rd (pHDOM x) Reg.HDOM_VEC_MASK
    (s.store a v).vecMaskWritten x old
  else if off = Reg.HDOM_VEC_EOI then s.eoiWrite x v
  else s.store a v

/-- BRK_GUARD[n] takes the word `v` (R437). -/
def State.bindOk (s : State) (n v : Nat) : Bool :=
  let p := wf v Fd.BRK_GUARD_PAGE
  let taken := (List.range 64).any fun m =>
    m ≠ n && s.flag pBRK (Fd.BRK_GUARD_EN.at 4 m) && s.fld pBRK (Fd.BRK_GUARD_PAGE.at 4 m) = p
  let bound := taken || unmapped p || p = pBRK || blkOf p = some .hdom || inMramWindow p
  !(2 ≤ wf v Fd.BRK_GUARD_SCOPE) && !(v.testBit 31 && bound)

/-- A write of a BRK register.
DEDUCED, unsafe (notes/assumptions/56.md). -/
def State.brkRegWrite (s : State) (d off v : Nat) : State :=
  let a := pBRK * 4096 + off
  match arrIx off Reg.BRK_LOCK 4 64 with
  | some n => s.brkOp d n v
  | none =>
    match arrIx off Reg.BRK_GUARD 4 64 with
    | some n => s.keepIf (s.bindOk n v) d a v
    | none =>
      if off = Reg.BRK_LAST_BREAK || off = Reg.BRK_LAST_RESET then
        if v.testBit 31 then (s.store a v).wr64 pBRK (off + 4) 0 else s
      else s.store a v

/-! ### Network management (R347, R363, R370) -/

/-- A write of a register of cluster `c`. -/
def State.clWrite (s : State) (d c off v : Nat) : State :=
  let r := off - 0x40 * c
  let a := pNM * 4096 + off
  let closed := s.clF c Fd.NM_CL_CFG_ENABLE = 1
  if r = Reg.NM_CL_CFG then s.clCfgWrite d c v
  else if r = Reg.NM_CL_REQ then s.clReqWrite d c v
  else if r = Reg.NM_CL_ID || r = Reg.NM_CL_IDMASK || r = Reg.NM_CL_CAN || r = Reg.NM_CL_SEG then s.keepIf (!closed) d a v
  else if r = Reg.NM_CL_TIME1 then
    let timeout := wf v Fd.NM_CL_TIME1_NM_TIMEOUT_MS
    let cycle := wf v Fd.NM_CL_TIME1_NM_CYCLE_MS
    s.keepIf (100 ≤ timeout && 10 ≤ cycle && cycle < timeout) d a v
  else if r = Reg.NM_CL_TIME2 then s.keepIf (wf v Fd.NM_CL_TIME2_REPEAT_MS ≠ 0 && wf v Fd.NM_CL_TIME2_WBS_MS ≠ 0) d a v
  else if r = Reg.NM_CL_TIME3 then s.keepIf (wf v Fd.NM_CL_TIME3_FW_IDLE_MS ≠ 0) d a v
  else s.store a v

/-- A write of an NM register. -/
def State.nmWrite (s : State) (d off v : Nat) : State :=
  let a := pNM * 4096 + off
  if 0x100 ≤ off && off < 0x300 then s.clWrite d ((off - 0x100) / 0x40) off v
  else if off = Reg.NM_DEV_WAKE then
    if v.testBit 31 then ((s.wr pNM off 0).wr pNM (off + 4) 0).wr pNM (off + 8) 0 else s
  else if off = Reg.NM_T1S_ACT then
    s.keepIf (wf v Fd.NM_T1S_ACT_WINDOW_MS ≠ 0 && wf v Fd.NM_T1S_ACT_COUNT ≠ 0 && 8 ≤ wf v Fd.NM_T1S_ACT_BURST_US) d a v
  else if (arrIx off Reg.NM_WAKEIN 4 8).isSome then
    s.keepIf (wf v Fd.NM_WAKEIN_FILT ≠ 0 && wf v Fd.NM_WAKEIN_EDGE ≠ 3) d a v
  else s.store a v

/-! ### Power, the line die and the fault log (R504, R517) -/

/-- A write of a PWR register. -/
def State.pwrWrite (s : State) (d off v : Nat) : State :=
  let a := pPWR * 4096 + off
  let us := wf v Fd.PWR_CFG_COMMIT_US
  if off = Reg.PWR_CFG then
    s.keepIf (wf v Fd.PWR_CFG_AUTO_DELAY_MS ≠ 0 && 50 ≤ us && us ≤ 4095 && wf v Fd.PWR_CFG_AUTO ≠ 3) d a v
  else if off = Reg.PWR_REQ then s.pwrReqWrite d v
  else s.store a v

/-- A write of a LINE register. -/
def State.lineWrite (s : State) (d off v : Nat) : State :=
  let a := pLINE * 4096 + off
  let within := fun (f : Fld) (lo hi : Nat) => decide (lo ≤ wf v f ∧ wf v f ≤ hi)
  if off = Reg.LINE_PF then
    s.keepIf (within Fd.LINE_PF_FILT_US 10 255 && within Fd.LINE_PF_RESTART 1 255 && within Fd.LINE_PF_THR_MV 6000 30000) d a v
  else if off = Reg.LINE_VMON then
    s.keepIf (within Fd.LINE_VMON_HIGH_MV 6000 58000 && within Fd.LINE_VMON_LOW_MV 4500 36000) d a v
  else if off = Reg.LINE_CFG then s.keepIf (wf v Fd.LINE_CFG_PMIC_OFF_MS ≠ 0) d a v
  else s.store a v

/-- A write of a LOG register. -/
def State.logWrite (s : State) (d off v : Nat) : State :=
  let a := pLOG * 4096 + off
  let sev := fun (f : Fld) => decide (1 ≤ wf v f ∧ wf v f ≤ 5)
  if off = Reg.LOG_CFG then s.keepIf (sev Fd.LOG_CFG_PIN_SEV && sev Fd.LOG_CFG_IRQ_SEV && sev Fd.LOG_CFG_FIFO_SEV) d a v
  else if off = Reg.LOG_CLEAR then s.logClearWrite v
  else if off = Reg.LOG_WDOG_CFG then (s.store a v).wdogStart
  else if off = Reg.LOG_WDOG_KICK then s.logKickWrite d v
  else s.store a v

/-! ### Every block -/

/-- A write of a TIME register: views, the snapshot, and the rest. -/
def State.timeRegWrite (s : State) (d off v : Nat) : State :=
  if 0x100 ≤ off && off < 0x300 && (off - 0x100) % 0x40 = 0 then s.viewCfgWrite d ((off - 0x100) / 0x40) v
  else if off = Reg.TIME_SNAP_CTRL then if v.testBit 0 then s.timeSnap else s
  else s.timeWrite d off v

/-- A write of a block-specific register of page `p` (offsets 0x040 to 0x7FF) that has passed checks 1 to 6 of R555.
DEDUCED, safe (notes/assumptions/17.md). -/
def State.blockWrite (s : State) (d p off v : Nat) : State :=
  match pageRow p with
  | none => s
  | some (r, i, k) =>
    if k ≠ 0 && r.blk ≠ .key then s
    else
      match r.blk with
      | .glb => if off = Reg.GLB_RESET then s.glbResetWrite d v else s
      | .crg => s
      | .pwr => s.pwrWrite d off v
      | .time => s.timeRegWrite d off v
      | .gptp => s.gptpWrite d off v
      | .canc =>
        if off = Reg.CANC_MODE then s.canModeWrite d i v
        else if off = Reg.CANC_TXB_CMD then s.txbCmd d i v
        else s.cancWrite d i off v
      | .linc =>
        if off = Reg.LINC_MODE then s.lincModeWrite d i v
        else if off = Reg.LINC_SCHED then s.lincSchedWrite d i v
        else s.lincWrite d i off v
      | .ser =>
        if off = Reg.SER_MODE then s.serModeWrite d i v
        else if off = Reg.SER_TXB then s.serTxbWrite d i v
        else s.serWrite d i off v
      | .srt =>
        if off = Reg.SRT_CFG then s.srtCfgWrite d v
        else if off = Reg.SRT_RELEASE then s.srtReleaseWrite d v
        else s.store (p * 4096 + off) v
      | .eprt => s.eprtWrite d i off v
      | .pipe => s.pipeWrite d i off v
      | .fdb => s.fdbWrite d i off v
      | .swc => s.swcWrite d off v
      | .egr => if off = Reg.EGR_GCL_CMD then s.gclCmdWrite d v else s.store (p * 4096 + off) v
      | .emc => s.emcWrite d off v
      | .trn => s.trnWrite d off v
      | .key => if off = Reg.KEY_CMD then s.keyCmdWrite d k v else s.store (p * 4096 + off) v
      | .msec => s.store (p * 4096 + off) v
      | .hdom => s.hdomWrite d i off v
      | .brk => s.brkRegWrite d off v
      | .nm => s.nmWrite d off v
      | .log => s.logWrite d off v
      | .line => s.lineWrite d off v
      | .otp =>
        if off = Reg.OTP_CMD then s.otpCmd d v
        else if off = Reg.OTP_PROG_DATA then s.wr p off v
        else s.store (p * 4096 + off) v
      | .mram => s.mramWrite d off v

end Sys2Proof.Machine
end

