-- ==== Sys2Proof/Machine/Bus.lean ====
section
/-!
DEFINITION. The register port (R27 to R46, R96 to R99, R503, R555): writes and reads of any register by any domain, and the
commands that are register accesses with rows of their own.
-/

namespace Sys2Proof.Machine

/-! ### The management link (R13, R503) -/

/-- A transfer over the management link: `fail` when every attempt failed its CRC. -/
def State.link (s : State) (fail : Bool) : State :=
  if fail then ((s.setFlag pLINE Fd.LINE_STATUS_LINK_OK false).raise pLINE Iq.LINE_LINK_ERR).err pLINE Er.LINE_LINK_ERR 0
  else s.setFlag pLINE Fd.LINE_STATUS_LINK_OK true

/-! ### Writes -/

/-- W1C of xxx_ERR_CODE.VALID: the code, its domain, OVERRUN and both stamps clear (Table 10). -/
def State.clearErr (s : State) (p : Nat) : State := (s.wr p Reg.ERR_CODE 0).wr64 p Reg.ERR_STAMP_LO 0

/-- A write of IRQ_TEST: the bits set in IRQ_STAT (Table 6). -/
def State.irqTestWrite (s : State) (p v : Nat) : State := (s.wr p Reg.IRQ_STAT (s.rd p Reg.IRQ_STAT ||| v)).notify p

/-- A write of a window register of a page that has a window (Table 16, R46). -/
def State.windowWrite (s : State) (d p off v : Nat) (ecc fail : Bool) : State :=
  if off = Reg.WIN_CMD then s.winCmdWrite d p v ecc fail
  else if off < Reg.WIN_CMD && s.flag p Fd.WIN_BUSY then s.errBy d p Er.WIN_BUSY off (s.rd p Reg.WIN_ADDR)
  else s.store (p * 4096 + off) v

/-- A write of a header register (Tables 4 to 14). -/
def State.headerWrite (s : State) (d p off v : Nat) : State :=
  let a := p * 4096 + off
  if off = Reg.CTRL then s.ctrlWrite d p v
  else if off = Reg.IRQ_STAT then s.store a v
  else if off = Reg.IRQ_EN then (s.store a v).notify p
  else if off = Reg.IRQ_TEST then s.irqTestWrite p v
  else if off = Reg.IRQ_ROUTE then
    if 31 < wf v Fd.IRQ_ROUTE_VECTOR || (d ≠ 7 && 5 < wf v Fd.IRQ_ROUTE_DOMAIN) then s.refuse d a v Er.REG_BAD_VALUE
    else (s.store a v).notify p
  else if off = Reg.OWNER then s.ownerWrite d p v
  else if off = Reg.ERR_CODE then if v.testBit 31 then s.clearErr p else s
  else if off = Reg.CNT_CTRL then s.cntCtrlWrite p v
  else s

/-- A 32-bit write that has passed checks 1 to 6 of R555. `ecc` and `fail` are the memory error and the management-link
failure that the access meets. -/
def State.accept (s : State) (d a v : Nat) (ecc fail : Bool) : State :=
  let p := a / 4096
  let off := a % 4096
  if inMramWindow p then s.mramRefuse d v
  else if onLineDie p off then
    let s := s.link fail
    if fail then s else s.blockWrite d p off v
  else if off < 0x040 then s.headerWrite d p off v
  else if off < 0x800 then s.blockWrite d p off v
  else if 0xC00 ≤ off && hasWindow p then s.windowWrite d p off v ecc fail
  else s

/-- A 32-bit aligned write of domain `d`. The time chapter counts refused writes of TIME_VIEW_CMD and TIME_REARM, whichever
check refuses them (R78). -/
def State.write32 (s : State) (d a v : Nat) (ecc fail : Bool) : State :=
  let off := a % 4096
  if a / 4096 = pTIME && 0x100 ≤ off && off < 0x300 && off % 0x40 = Reg.TIME_VIEW_CMD % 0x40 then
    s.viewCmdWrite d ((off - 0x100) / 0x40) v
  else if a = pTIME * 4096 + Reg.TIME_REARM then
    match s.judge d a 32 v with
    | some c => (s.inc pTIME Cn.TIME_REFUSALS).refuse d a v c
    | none => s.viewRearm d v
  else s.judged d a 32 v fun s => s.accept d a v ecc fail

/-- A refused write of TIME_VIEW_CMD or TIME_REARM counts in REFUSALS, whatever its code (R78). -/
def State.timeCount (s : State) (a : Nat) : State :=
  let off := a % 4096 / 4 * 4
  let cmd := 0x100 ≤ off && off < 0x300 && off % 0x40 = Reg.TIME_VIEW_CMD % 0x40
  if a / 4096 = pTIME && (cmd || off = Reg.TIME_REARM) then s.inc pTIME Cn.TIME_REFUSALS else s

/-- A write of `bits` bits (R42): 64 bits at a multiple of 4 are two 32-bit writes at ascending addresses, each judged by
itself; a narrower or unaligned write is refused whole. -/
def State.busWrite (s : State) (d a bits v : Nat) (ecc fail : Bool) : State :=
  if a % 4 = 0 && bits = 32 then s.write32 d a (v % 2 ^ 32) ecc fail
  else if a % 4 = 0 && bits = 64 then
    (s.write32 d a (v % 2 ^ 32) ecc fail).write32 d (a + 4) (v / 2 ^ 32 % 2 ^ 32) ecc fail
  else (s.timeCount a).refuse d a v Er.REG_SIZE

/-! ### Reads -/

/-- A word of the MRAM data window: the system area reads 0 (R340). -/
def State.mramWord (s : State) (o : Nat) : Nat := if 0x7E0000 ≤ o then 0 else leNat (s.mramBytes o 4)

/-- An uncorrectable MRAM word: counted, raised, logged, and latched in MRAM_ECC_LOC (R340, R514). -/
def State.mramEcc (s : State) (o : Nat) : State :=
  let s := (s.inc pMRAM Cn.MRAM_ECC_UNCORR).raise pMRAM Iq.MRAM_ECC
  let w := o / 8
  let s := if s.eccSeen.contains (pMRAM, 0, w) then s
    else { s with eccSeen := (pMRAM, 0, w) :: s.eccSeen }.errBy 7 pMRAM Er.MRAM_ECC 0 w
  if s.flag pMRAM Fd.MRAM_ECC_LOC_VALID then s
  else (s.setFlag pMRAM Fd.MRAM_ECC_LOC_VALID true).setFld pMRAM Fd.MRAM_ECC_LOC_WORD w

/-- GLB_WHOAMI as domain `d` reads it (Table 15). -/
def State.whoami (s : State) (d : Nat) : Nat := d % 8 + 8 * b2n (s.secure d)

/-- The word of a counter's snapshot copy (R39). -/
def State.snapWord (s : State) (p off : Nat) : Nat :=
  let x := (smGet 0 (p * 4096 + off / 8 * 8) s.snap).toNat
  if off % 8 = 0 then x % 2 ^ 32 else x / 2 ^ 32

/-- The contents of the register word at address `a` (a multiple of 4) for domain `d`, without the effects of the read.
DEDUCED, unsafe (notes/assumptions/70.md). -/
def State.peek (s : State) (d a : Nat) : Nat :=
  let p := a / 4096
  let off := a % 4096
  if inMramWindow p then s.mramWord (a - 0x400000)
  else if unmapped p then 0
  else if off = Reg.IRQ_RAW then s.irqRaw p
  else if 0x800 ≤ off && off < 0xC00 then s.snapWord p off
  else if p = pGLB && off = Reg.GLB_WHOAMI then s.whoami d
  else if p = pTIME && off = Reg.TIME_FRC_LO then s.now % 2 ^ 32
  else if p = pOTP && off = Reg.OTP_PROG_DATA then 0
  else
    match pageRow p, queueAt p off with
    | _, some k => match (s.wq k).a with | w :: _ => w | [] => 2 ^ 32 - 1
    | some (r, i, _), none =>
      if r.blk = .hdom && off = Reg.HDOM_VEC_PEND then s.vecPend i
      else if r.blk = .eprt && 0x040 ≤ off && !(eprtHas i off) then 0
      else if off < 0x040 || (regDef a).isSome then (s.reg a).toNat
      else 0
    | none, none => 0

/-- The effects of a completed read of a register word by domain `d` (R42, R78, R97): an owner's read of an RC field clears
it; a queue register pops one word for its owner. `bad`: the duplicate pointers of the queue disagree (R99). -/
def State.readFx (s : State) (d a : Nat) (bad : Bool) : State :=
  let p := a / 4096
  let off := a % 4096
  if p = pTIME && off = Reg.TIME_FRC_LO then s.frcLatch
  else
    match queueAt p off with
    | some k =>
      if bad then s.wqBroken k
      else if !(s.owns d p) then s
      else
        match (s.wq k).pop with
        | some (_, q) => (s.setWq k q).setFld p (wqAt k).level q.level
        | none => s
    | none =>
      match regDef a with
      | some r =>
        if r.rc = 0 || !(s.owns d p) then s
        else if p = pSWC && off = Reg.SWC_FREE_MIN then s.setFld pSWC Fd.SWC_FREE_MIN_MIN s.free
        else if p = pSRT && off = Reg.SRT_INQ_STAT then
          s.setFld pSRT Fd.SRT_INQ_STAT_PEAK (s.fld pSRT Fd.SRT_INQ_STAT_LEVEL)
        else s.setReg a (s.reg a &&& ~~~(BitVec.ofNat 32 r.rc))
      | none => s

/-- One register word as domain `d` reads it, and the state after. A failed link read returns 0 (R503); an uncorrectable
MRAM word is reported (R340); a queue whose pointers disagree returns the idle word (R99). -/
def State.readWord (s : State) (d a : Nat) (bad fail ecc : Bool) : Nat × State :=
  let p := a / 4096
  if onLineDie p (a % 4096) then
    let s := s.link fail
    if fail then (0, s) else (s.peek d a, s.readFx d a bad)
  else if inMramWindow p then
    let o := a - 0x400000
    if ecc && o < 0x7E0000 then (0, s.mramEcc o) else (s.peek d a, s)
  else if bad && (queueAt p (a % 4096)).isSome then (2 ^ 32 - 1, s.readFx d a bad)
  else (s.peek d a, s.readFx d a bad)

/-- A read of 8 to 64 bits (R42): the words it touches are read, low word first, and the bits asked for are returned.
DEDUCED, safe (notes/assumptions/19.md). -/
def State.busRead (s : State) (d a bits : Nat) (bad fail ecc : Bool) : Nat × State :=
  let w := spanWords a bits
  let r0 := s.readWord d w.1 bad fail ecc
  let r1 := if w.2 then r0.2.readWord d (w.1 + 4) bad fail ecc else (0, r0.2)
  (((r0.1 + 2 ^ 32 * r1.1) / 2 ^ (8 * (a % 4))) % 2 ^ bits, r1.2)

/-! ### The commands -/

/-- REGISTER_WRITE: domain `d` writes `bits` bits `v` at byte address `a` of the register space. -/
def execRegisterWrite (t d a bits v : Nat) (ecc fail : Bool) (s : State) : Res :=
  live t s fun s => s.busWrite d (a % 2 ^ 24) bits v ecc fail

/-- RC_READ: domain `d` reads `bits` bits at byte address `a`. The width is 8 to 64 bits (R42). -/
def execRcRead (t d a bits : Nat) (bad fail ecc : Bool) (s : State) : Res :=
  live t s fun s =>
    let a := a % 2 ^ 24
    let r := s.busRead d a (min bits 64) bad fail ecc
    r.2.emit (.read d a r.1)

/-- WORD_QUEUE_POP: domain `d` reads the register of word queue `k` (R97, R99).
DEDUCED, unsafe (notes/assumptions/70.md). -/
def execWordQueuePop (t d k : Nat) (bad : Bool) (s : State) : Res :=
  live t s fun s =>
    if 38 ≤ k then s
    else
      let p := (wqAt k).page
      let off := queueOff k
      let r := s.readWord d (p * 4096 + off) bad false false
      r.2.emit (.read d (p * 4096 + off) r.1)

/-- KEY_MATERIAL_READ: domain `d` has the window of page `p` read the entry that WIN_ADDR names, where it holds key
material: the material reads 0 and REG_KEY_READ is raised (R34). -/
def execKeyMaterialRead (t d p : Nat) (s : State) : Res :=
  live t s fun s => if hasWindow p && winSecret p (s.winTab p) (s.winIdx p) then s.winRead d p 1 false false else s

/-- ERR_CODE_CLEAR: domain `d` writes xxx_ERR_CODE of page `p` with VALID = 1 (R34). -/
def execErrCodeClear (t d p : Nat) (s : State) : Res :=
  live t s fun s => s.busWrite d (p % 4096 * 4096 + Reg.ERR_CODE) 32 (2 ^ 31) false false

/-- IRQ_TEST: domain `d` writes xxx_IRQ_TEST of page `p` (Table 6). -/
def execIrqTest (t d p v : Nat) (s : State) : Res :=
  live t s fun s => s.busWrite d (p % 4096 * 4096 + Reg.IRQ_TEST) 32 v false false

end Sys2Proof.Machine
end

