-- ==== Sys2Proof/Machine/Debug.lean ====
section
/-!
DEFINITION. The debug port (R376 to R381): challenge, unlock and RETURN responses, status, and life-cycle requests. The JTAG
shift registers are not modelled; each command is a device instruction carried out whole.
-/

namespace Sys2Proof.Machine

/-- A command of the debug port, answered while the logic die is out of reset and clocked.
DEDUCED, unsafe (notes/assumptions/45.md). -/
def debugRun (t : Nat) (s : State) (f : State → State) : Res :=
  always t s fun s => if s.boot = .off || s.pwr = .comma then s else f s

/-- DEBUG_DISABLE of the active generation (R383). -/
def State.debugDisabled (s : State) : Bool := (s.bcrOr 18 0).testBit 0

/-- The state allows an unlock response (Table 2). -/
def State.unlockOpen (s : State) : Bool := s.lc = 1 || s.lc = 4 || (s.lc = 2 && !s.debugDisabled)

/-- The expected response: AES-CMAC under the key at OTP word `w` with purpose byte `purpose` (R379). -/
def State.unlockMac (s : State) (w purpose : Nat) : List Nat :=
  beBytes 16 (cmac 128 (s.otpNum w 4) (beBytes 16 (if s.keys.rngFail then 0 else s.dbg.chal) ++ s.uid ++ [s.lc, purpose]))

/-- A response is judged: `good` follows a right one, a wrong one is logged, and the third ends responses until the next
reset (R380). A new challenge is drawn.
DEDUCED, unsafe (notes/assumptions/45.md). -/
def State.unlockJudge (s : State) (w purpose resp : Nat) (good : State → State) : State :=
  let ok := s.unlockMac w purpose = beBytes 16 resp
  let s := s.newChallenge
  if ok then good s
  else { s with dbg := { s.dbg with wrong := s.dbg.wrong + 1 } }.err (pKEY 0) Er.KEY_UNLOCK_FAIL 0

/-- UNLOCK_CHAL reads the challenge, 0 while the random source has failed (R379, R392). -/
def execUnlockChal (t : Nat) (s : State) : Res :=
  debugRun t s fun s =>
    s.emit (.sent "debug challenge" [if s.keys.rngFail then 0 else s.dbg.chal])

/-- UNLOCK_RESP (R380): a right response sets the debug request and starts cause 6. -/
def execUnlockResp (t resp : Nat) (s : State) : Res :=
  debugRun t s fun s =>
    if !s.unlockOpen || 3 ≤ s.dbg.wrong then s
    else s.unlockJudge 0x020 1 resp fun s => (s.setPow { s.pow with debugReq := true }).restart 6 true

/-- RETURN_RESP (R380): a right response in DEVELOP or PRODUCT requests the RETURN transition (R377). -/
def execReturnResp (t resp : Nat) (s : State) : Res :=
  debugRun t s fun s =>
    if !(s.lc = 2 || s.lc = 3) || 3 ≤ s.dbg.wrong then s else s.unlockJudge 0x024 2 resp fun s => s.lcBurn 4

/-- UNLOCK_STAT reads DEBUG, unlock pending, locked out and the life-cycle code (R379). -/
def execUnlockStat (t : Nat) (s : State) : Res :=
  debugRun t s fun s =>
    s.emit (.sent "debug status" [s.fld pOTP Fd.OTP_STATUS_DEBUG + b2n s.pow.debugReq * 2 + b2n (3 ≤ s.dbg.wrong) * 4 + s.lc * 8])

/-- The transitions of Table 3 that the debug port may request, open in BLANK and where debug is enabled
DEDUCED, unsafe (notes/assumptions/45.md). -/
def State.debugLcOk (s : State) (dst : Nat) : Bool :=
  (s.lc = 0 && dst = 1) || (s.flag pOTP Fd.OTP_STATUS_DEBUG && lcAdvanceOk s.lc dst)

/-- DEBUG_LC_REQUEST: the debug port requests life-cycle state `target` (R377). -/
def execDebugLcRequest (t target : Nat) (s : State) : Res :=
  debugRun t s fun s => if s.debugLcOk target then s.lcBurn target else s.err pOTP Er.OTP_LC_DENIED target

end Sys2Proof.Machine
end

