-- ==== Sys2Proof/Machine/Spi.lean ====
section
/-!
DEFINITION. The SPI targets of domains D4 and D5 (R420 to R423), before READY (R473), in the Interjection state (R483) and in
Comma (R499). The number of wait bytes before a token is timing and is left out; a read's answer starts at the token.
-/

namespace Sys2Proof.Machine

/-- How a target answers: nothing while the logic die is off, ID and STATUS only before READY and in Comma, the reads of
R483 in the Interjection state, and every command otherwise. -/
inductive SpiWay where
  | none | stub | diag | full
deriving DecidableEq, Repr

def State.spiWay (s : State) : SpiWay :=
  if s.live then .full
  else if s.boot = .off || s.pwr = .period || s.pwr = .pfHold then .none
  else if s.boot = .interjection then .diag
  else .stub

/-- D4 and D5 are the SPI targets (Table 1 of *Host Domains*). -/
def isSpi (d : Nat) : Bool := d = 4 || d = 5

/-- STATUS.ERR of the target is set. -/
def State.spiFault (s : State) (d : Nat) : State := s.setDom d { s.dom d with spiErr := true }

/-- An error that counts in SPI_ERR as well (R422). -/
def State.spiFaultCounted (s : State) (d : Nat) : State := (s.spiFault d).inc (pHDOM d) Cn.HDOM_SPI_ERR

/-- A command's opcode has been received: it is counted, and an armed RESET lapses. -/
def State.spiCmd (s : State) (d : Nat) : State :=
  (s.setDom d { s.dom d with rstArmed := false }).inc (pHDOM d) Cn.HDOM_SPI_CMDS

/-- A command of target `d`. ID and STATUS are answered wherever the die is on; for the others, `full` acts where every command
does and `diag` in the Interjection state, and elsewhere the command is ignored and sets STATUS.ERR.
DEDUCED, unsafe (notes/assumptions/55.md). -/
def spiDo (t d : Nat) (s : State) (full diag : State → State) : Res :=
  always t s fun s =>
    if !(isSpi d) then s
    else
      match s.spiWay with
      | .none => s
      | .stub => s.spiFault d
      | .diag => diag s
      | .full => full (s.spiCmd d)

/-! ### Writes -/

/-- The oldest buffered word is carried out as a 32-bit write (R422). -/
def State.spiStep (s : State) (d : Nat) (ecc fail : Bool) : State :=
  match (s.dom d).spi with
  | (a, v) :: l => (s.setDom d { s.dom d with spi := l }).write32 d a v ecc fail
  | [] => s

/-- Every buffered word is carried out. -/
def State.spiDrain (s : State) (d : Nat) : State := foldN 64 (fun _ s => s.spiStep d false false) s

/-- The words of a WRITE enter the 64-word buffer at ascending addresses; one that finds no room is discarded.
DEDUCED, unsafe (notes/assumptions/55.md). -/
def State.spiFill (d : Nat) : List Nat → Nat → State → State
  | [], _, s => s
  | w :: ws, a, s =>
    let D := s.dom d
    let s := if D.spi.length < 64 then s.setDom d { D with spi := D.spi ++ [(a % 2 ^ 24, w % 2 ^ 32)] } else s.spiFaultCounted d
    State.spiFill d ws (a + 4) s

/-- WRITE at `a`; `part`: a partial word is left when chip select rises. -/
def State.spiPut (s : State) (d a : Nat) (ws : List Nat) (part : Bool) : State :=
  if a % 4 ≠ 0 then s.spiFault d
  else
    let s := State.spiFill d ws a s
    if part then s.spiFaultCounted d else s

/-- SPI_WRITE (R422). -/
def execSpiWrite (t d a : Nat) (ws : List Nat) (part : Bool) (s : State) : Res :=
  spiDo t d s (fun s => s.spiPut d (a % 2 ^ 24) ws part) fun s => s.spiFault d

/-- QWRITE: WRITE with address and data on four lines (Table 3). -/
def execQwrite (t d a : Nat) (ws : List Nat) (part : Bool) (s : State) : Res :=
  spiDo t d s (fun s => s.spiPut d (a % 2 ^ 24) ws part) fun s => s.spiFault d

/-- SPI_WRITE_WORD: the next buffered word of target `d` is written (R422). -/
def execSpiWriteWord (t d : Nat) (ecc fail : Bool) (s : State) : Res :=
  live t s fun s => if isSpi d then s.spiStep d ecc fail else s

/-! ### Reads -/

/-- What a read gives for one word: every register, or in the Interjection state those of the GLB and LOG pages for target A
and 0 elsewhere (R483). -/
def State.spiWord (s : State) (diag : Bool) (d a : Nat) (bad fail ecc : Bool) : Nat × State :=
  if diag then
    let p := a / 4096
    (if p = pGLB || p = pLOG || p = pLOG + 1 then s.peek d a else 0, s)
  else s.readWord d a bad fail ecc

/-- The bytes of `n` words from `a`, each sent least significant byte first; a crossing into the LINE page sends a second
token (R421). -/
def State.spiWords (diag : Bool) (d : Nat) (bad fail ecc : Bool) : Nat → Nat → Bool → State → List Nat × State
  | 0, _, _, s => ([], s)
  | n + 1, a, first, s =>
    let a := a % 2 ^ 24
    let r := s.spiWord diag d a bad fail ecc
    let tok := if first || a = pLINE * 4096 then [0xA5] else []
    let q := State.spiWords diag d bad fail ecc n (a + 4) false r.2
    (tok ++ leBytes 4 r.1 ++ q.1, q.2)

/-- READ of `n` whole words at `a`. A read waits for the words written before it; `early`: chip select rises in that wait
(R422). -/
def State.spiGet (s : State) (diag : Bool) (d a n : Nat) (early bad fail ecc : Bool) : State :=
  if a % 4 ≠ 0 then s.spiFault d
  else if early && !(s.dom d).spi.isEmpty then s.spiFaultCounted d
  else
    let r := State.spiWords diag d bad fail ecc n a true (s.spiDrain d)
    r.2.emit (.spi d r.1)

/-- A read in the Interjection state: target A answers it, target B does not (R483). -/
def State.spiDiagGet (s : State) (d a n : Nat) : State :=
  if d = 4 then s.spiGet true d a n false false false false else s.spiFault d

/-- SPI_READ (R421). -/
def execSpiRead (t d a n : Nat) (early bad fail ecc : Bool) (s : State) : Res :=
  spiDo t d s (fun s => s.spiGet false d (a % 2 ^ 24) n early bad fail ecc) fun s => s.spiDiagGet d (a % 2 ^ 24) n

/-- QREAD: READ with address and data on four lines (Table 3). -/
def execQread (t d a n : Nat) (early bad fail ecc : Bool) (s : State) : Res :=
  spiDo t d s (fun s => s.spiGet false d (a % 2 ^ 24) n early bad fail ecc) fun s => s.spiDiagGet d (a % 2 ^ 24) n

/-! ### STATUS, ID and RESET -/

/-- The STATUS byte (R423). Before READY RESETTING reads 1 (R473); in Comma BUSY reads 1 (R499).
DEDUCED, unsafe (notes/assumptions/55.md). -/
def State.spiStatusByte (s : State) (d : Nat) : Nat :=
  let D := s.dom d
  let busy := !D.spi.isEmpty || (s.boot = .ready && !s.live)
  let int : Bool := s.vecPend d &&& (2 ^ 32 - 1 - s.rd (pHDOM d) Reg.HDOM_VEC_MASK) ≠ 0
  b2n busy + 2 * b2n D.spiErr + 4 * b2n int + 8 * b2n (s.boot ≠ .ready || s.resetting d)

/-- SPI_STATUS: the byte is repeated `n` times, and ERR clears (R423). -/
def execSpiStatus (t d n : Nat) (s : State) : Res :=
  always t s fun s =>
    if !(isSpi d) || s.spiWay = .none then s
    else
      let b := s.spiStatusByte d
      let s := if s.spiWay = .full then s.spiCmd d else s
      (s.setDom d { s.dom d with spiErr := false }).emit (.spi d (List.replicate n b))

/-- SPI_ID: the four bytes of GLB_DEVICE (R420). -/
def execSpiId (t d : Nat) (s : State) : Res :=
  always t s fun s =>
    if !(isSpi d) || s.spiWay = .none then s
    else
      let s := if s.spiWay = .full then s.spiCmd d else s
      s.emit (.spi d (leBytes 4 (s.rd pGLB Reg.GLB_DEVICE)))

/-- RESET_ENABLE arms the RESET that follows it (Table 3). -/
def execResetEnable (t d : Nat) (s : State) : Res :=
  spiDo t d s (fun s => s.setDom d { s.dom d with rstArmed := true }) fun s => s.spiFault d

/-- SPI_RESET: acts only when the previous command was RESET_ENABLE; the domain resets with cause 2 (R420, R438). -/
def execSpiReset (t d : Nat) (s : State) : Res :=
  always t s fun s =>
    if !(isSpi d) then s
    else
      match s.spiWay with
      | .none => s
      | .stub => s.spiFault d
      | .diag => s.spiFault d
      | .full =>
        let armed := (s.dom d).rstArmed
        let s := s.spiCmd d
        if armed then s.domReset d 2 s.now else s

end Sys2Proof.Machine
end

