-- ==== Sys2Proof/Machine/Dispatch.lean ====
section
/-!
DEFINITION. The dispatch: one arm per command, each one direct call of the command's meaning.
-/

namespace Sys2Proof.Machine

/-- The effect of a command on everything but the queue. -/
def exec (i : Instr) (s : State) : Host.Outcome State Fault Refusal :=
  match i with
  | .registerWrite t d a bits v ecc fail => Sys2Proof.Machine.execRegisterWrite t d a bits v ecc fail s
  | .rcRead t d a bits bad fail ecc => Sys2Proof.Machine.execRcRead t d a bits bad fail ecc s
  | .wordQueuePop t d k bad => Sys2Proof.Machine.execWordQueuePop t d k bad s
  | .keyMaterialRead t d p => Sys2Proof.Machine.execKeyMaterialRead t d p s
  | .errCodeClear t d p => Sys2Proof.Machine.execErrCodeClear t d p s
  | .irqTest t d p v => Sys2Proof.Machine.execIrqTest t d p v s
  | .ctrlEnable t d p on => Sys2Proof.Machine.execCtrlEnable t d p on s
  | .ctrlFreeze t d p on => Sys2Proof.Machine.execCtrlFreeze t d p on s
  | .softReset t d p => Sys2Proof.Machine.execSoftReset t d p s
  | .softResetDone t p => Sys2Proof.Machine.execSoftResetDone t p s
  | .ctrlCommit t d p => Sys2Proof.Machine.execCtrlCommit t d p s
  | .bankSwitch t p => Sys2Proof.Machine.execBankSwitch t p s
  | .drainDone t p => Sys2Proof.Machine.execDrainDone t p s
  | .ownerClaim t d p => Sys2Proof.Machine.execOwnerClaim t d p s
  | .ownerTransfer t d p dst => Sys2Proof.Machine.execOwnerTransfer t d p dst s
  | .ownerRelease t d p => Sys2Proof.Machine.execOwnerRelease t d p s
  | .ownerAdoption t d p => Sys2Proof.Machine.execOwnerAdoption t d p s
  | .takeOver t d p => Sys2Proof.Machine.execTakeOver t d p s
  | .snap t d p => Sys2Proof.Machine.execSnap t d p s
  | .cntClear t d p snap => Sys2Proof.Machine.execCntClear t d p snap s
  | .snapshotDone t p => Sys2Proof.Machine.execSnapshotDone t p s
  | .winRead t d p ecc fail => Sys2Proof.Machine.execWinRead t d p ecc fail s
  | .winWrite t d p fail => Sys2Proof.Machine.execWinWrite t d p fail s
  | .winInvalidate t d p => Sys2Proof.Machine.execWinInvalidate t d p s
  | .winFill t d p cnt fail => Sys2Proof.Machine.execWinFill t d p cnt fail s
  | .winCopy t d p cnt => Sys2Proof.Machine.execWinCopy t d p cnt s
  | .winCmdDone t p => Sys2Proof.Machine.execWinCmdDone t p s
  | .readClr t d p ecc => Sys2Proof.Machine.execReadClr t d p ecc s
  | .frcHandoverEntry t => Sys2Proof.Machine.execFrcHandoverEntry t s
  | .frcHandoverExit t => Sys2Proof.Machine.execFrcHandoverExit t s
  | .frcRealign t => Sys2Proof.Machine.execFrcRealign t s
  | .viewArm t d view => Sys2Proof.Machine.execViewArm t d view s
  | .viewStep t d view => Sys2Proof.Machine.execViewStep t d view s
  | .viewUpdate t d view => Sys2Proof.Machine.execViewUpdate t d view s
  | .viewRearm t d v => Sys2Proof.Machine.execViewRearm t d v s
  | .viewEnable t d view v => Sys2Proof.Machine.execViewEnable t d view v s
  | .viewDisable t d view v => Sys2Proof.Machine.execViewDisable t d view v s
  | .timeSnap t d v => Sys2Proof.Machine.execTimeSnap t d v s
  | .frcRead t d => Sys2Proof.Machine.execFrcRead t d s
  | .journalCopy t => Sys2Proof.Machine.execJournalCopy t s
  | .syncReceive t domain port m => Sys2Proof.Machine.execSyncReceive t domain port m s
  | .syncRelay t ix port => Sys2Proof.Machine.execSyncRelay t ix port s
  | .followUpRelay t ix port => Sys2Proof.Machine.execFollowUpRelay t ix port s
  | .syncOriginate t ix => Sys2Proof.Machine.execSyncOriginate t ix s
  | .gptpSyncTimeout t ix => Sys2Proof.Machine.execGptpSyncTimeout t ix s
  | .pdelayRequest t port => Sys2Proof.Machine.execPdelayRequest t port s
  | .pdelayResponse t port r => Sys2Proof.Machine.execPdelayResponse t port r s
  | .ctmEnqueue t m => Sys2Proof.Machine.execCtmEnqueue t m s
  | .cancModeReq t d n v => Sys2Proof.Machine.execCancModeReq t d n v s
  | .integrationDone t n => Sys2Proof.Machine.execIntegrationDone t n s
  | .modeChangeAtIdle t n => Sys2Proof.Machine.execModeChangeAtIdle t n s
  | .ardDwellExpiry t n => Sys2Proof.Machine.execArdDwellExpiry t n s
  | .ardLock t n => Sys2Proof.Machine.execArdLock t n s
  | .canFrameReceived t n f sof eof => Sys2Proof.Machine.execCanFrameReceived t n f sof eof s
  | .protocolException t n => Sys2Proof.Machine.execProtocolException t n s
  | .canErrorDetected t n e => Sys2Proof.Machine.execCanErrorDetected t n e s
  | .recover t d n v => Sys2Proof.Machine.execRecover t d n v s
  | .busOn t n => Sys2Proof.Machine.execBusOn t n s
  | .canTxbReq t d n v => Sys2Proof.Machine.execCanTxbReq t d n v s
  | .canTxbCancel t d n v => Sys2Proof.Machine.execCanTxbCancel t d n v s
  | .rtqEntry t n f => Sys2Proof.Machine.execRtqEntry t n f s
  | .txArbitration t n phase => Sys2Proof.Machine.execTxArbitration t n phase s
  | .canTxSuccess t n sof eof tdcv => Sys2Proof.Machine.execCanTxSuccess t n sof eof tdcv s
  | .canDominantTimeout t n => Sys2Proof.Machine.execCanDominantTimeout t n s
  | .driverThermalShutdown t lin n off => Sys2Proof.Machine.execDriverThermalShutdown t lin n off s
  | .scheduleSlot t n => Sys2Proof.Machine.execScheduleSlot t n s
  | .schedSwitch t d n v => Sys2Proof.Machine.execSchedSwitch t d n v s
  | .schedGo t d n v => Sys2Proof.Machine.execSchedGo t d n v s
  | .linHeaderReceived t n id start dev => Sys2Proof.Machine.execLinHeaderReceived t n id start dev s
  | .linFrameEnd t n e => Sys2Proof.Machine.execLinFrameEnd t n e s
  | .linResponseTimeout t n got => Sys2Proof.Machine.execLinResponseTimeout t n got s
  | .linWake t d n v => Sys2Proof.Machine.execLinWake t d n v s
  | .linWakeReceived t n dur => Sys2Proof.Machine.execLinWakeReceived t n dur s
  | .linIdleSleep t n => Sys2Proof.Machine.execLinIdleSleep t n s
  | .linWakeHoldoffEnd t n => Sys2Proof.Machine.execLinWakeHoldoffEnd t n s
  | .linDominantTimeout t n => Sys2Proof.Machine.execLinDominantTimeout t n s
  | .lincModeReq t d n v => Sys2Proof.Machine.execLincModeReq t d n v s
  | .serModeReq t d k v => Sys2Proof.Machine.execSerModeReq t d k v s
  | .serCharacterReceived t k c => Sys2Proof.Machine.execSerCharacterReceived t k c s
  | .serGapExpiry t k => Sys2Proof.Machine.execSerGapExpiry t k s
  | .serTxReq t d k v => Sys2Proof.Machine.execSerTxReq t d k v s
  | .serTxCancel t d k v => Sys2Proof.Machine.execSerTxCancel t d k v s
  | .serRtqEntry t k chars => Sys2Proof.Machine.execSerRtqEntry t k chars s
  | .serTxStart t k => Sys2Proof.Machine.execSerTxStart t k s
  | .serTxDone t k => Sys2Proof.Machine.execSerTxDone t k s
  | .routerInput t => Sys2Proof.Machine.execRouterInput t s
  | .tunnelPduReceived t => Sys2Proof.Machine.execTunnelPduReceived t s
  | .srtTimeout t route => Sys2Proof.Machine.execSrtTimeout t route s
  | .redundancyWindowEnd t route => Sys2Proof.Machine.execRedundancyWindowEnd t route s
  | .cyclicTick t route => Sys2Proof.Machine.execCyclicTick t route s
  | .imageSend t route => Sys2Proof.Machine.execImageSend t route s
  | .pduWindowEnd t ix => Sys2Proof.Machine.execPduWindowEnd t ix s
  | .srtRelease t d v => Sys2Proof.Machine.execSrtRelease t d v s
  | .superviseEnable t d v => Sys2Proof.Machine.execSuperviseEnable t d v s
  | .ethFrameReceived t p f secEcc => Sys2Proof.Machine.execEthFrameReceived t p f secEcc s
  | .ethFrameTransmitted t p start coll late => Sys2Proof.Machine.execEthFrameTransmitted t p start coll late s
  | .ethLinkDown t p stamp => Sys2Proof.Machine.execEthLinkDown t p stamp s
  | .linkUp t p stamp => Sys2Proof.Machine.execLinkUp t p stamp s
  | .ethHoldFlush t p => Sys2Proof.Machine.execEthHoldFlush t p s
  | .ageCheck t p => Sys2Proof.Machine.execAgeCheck t p s
  | .anCodeWord t p speed full => Sys2Proof.Machine.execAnCodeWord t p speed full s
  | .sqiRefresh t p sqi => Sys2Proof.Machine.execSqiRefresh t p sqi s
  | .plcaStatusChange t p ok => Sys2Proof.Machine.execPlcaStatusChange t p ok s
  | .mmVerify t p ok => Sys2Proof.Machine.execMmVerify t p ok s
  | .sleepReq t d p => Sys2Proof.Machine.execSleepReq t d p s
  | .wakeReq t d p => Sys2Proof.Machine.execWakeReq t d p s
  | .tc10SleepReceived t p => Sys2Proof.Machine.execTc10SleepReceived t p s
  | .tc10Nack t p => Sys2Proof.Machine.execTc10Nack t p s
  | .tc10Wake t p stamp => Sys2Proof.Machine.execTc10Wake t p stamp s
  | .tc10WakingTimeout t p => Sys2Proof.Machine.execTc10WakingTimeout t p s
  | .pipelineEntry t ix ecc corr fdbEcc => Sys2Proof.Machine.execPipelineEntry t ix ecc corr fdbEcc s
  | .learnApply t ix => Sys2Proof.Machine.execLearnApply t ix s
  | .xlearnOfferApply t ix => Sys2Proof.Machine.execXlearnOfferApply t ix s
  | .agingSweepStep t ix => Sys2Proof.Machine.execAgingSweepStep t ix s
  | .search t d ix => Sys2Proof.Machine.execSearch t d ix s
  | .fdbNext t d ix => Sys2Proof.Machine.execFdbNext t d ix s
  | .insert t d ix => Sys2Proof.Machine.execInsert t d ix s
  | .delete t d ix => Sys2Proof.Machine.execDelete t d ix s
  | .flushPort t d ix => Sys2Proof.Machine.execFlushPort t d ix s
  | .rehash t d ix => Sys2Proof.Machine.execRehash t d ix s
  | .rehashDone t ix => Sys2Proof.Machine.execRehashDone t ix s
  | .fdbHash t d ix => Sys2Proof.Machine.execFdbHash t d ix s
  | .copyEnqueue t ecc corr => Sys2Proof.Machine.execCopyEnqueue t ecc corr s
  | .spillWriteDone t => Sys2Proof.Machine.execSpillWriteDone t s
  | .refillDone t k ecc => Sys2Proof.Machine.execRefillDone t k ecc s
  | .flushReleaseDone t k => Sys2Proof.Machine.execFlushReleaseDone t k s
  | .transmissionSelection t p ecc corr secEcc => Sys2Proof.Machine.execTransmissionSelection t p ecc corr secEcc s
  | .gateEvent t p ecc => Sys2Proof.Machine.execGateEvent t p ecc s
  | .macHoldAssert t p => Sys2Proof.Machine.execMacHoldAssert t p s
  | .gclCommit t d p => Sys2Proof.Machine.execGclCommit t d p s
  | .gclCancel t d p => Sys2Proof.Machine.execGclCancel t d p s
  | .gclChanged t p => Sys2Proof.Machine.execGclChanged t p s
  | .frerWindowEnd t => Sys2Proof.Machine.execFrerWindowEnd t s
  | .frerReset t f => Sys2Proof.Machine.execFrerReset t f s
  | .hostTxFetch t e desc frame busErr => Sys2Proof.Machine.execHostTxFetch t e desc frame busErr s
  | .hostRxDelivery t p desc busErr => Sys2Proof.Machine.execHostRxDelivery t p desc busErr s
  | .txCompletion t d r => Sys2Proof.Machine.execTxCompletion t d r s
  | .noStamp t d r => Sys2Proof.Machine.execNoStamp t d r s
  | .doorbell t d tab r v => Sys2Proof.Machine.execDoorbell t d tab r v s
  | .coalTimer t d tab r => Sys2Proof.Machine.execCoalTimer t d tab r s
  | .vecEoi t d v => Sys2Proof.Machine.execVecEoi t d v s
  | .msixUnmask t d en mask => Sys2Proof.Machine.execMsixUnmask t d en mask s
  | .bar4Access t d o w n ecc => Sys2Proof.Machine.execBar4Access t d o w n ecc s
  | .spiRead t d a n early bad fail ecc => Sys2Proof.Machine.execSpiRead t d a n early bad fail ecc s
  | .qread t d a n early bad fail ecc => Sys2Proof.Machine.execQread t d a n early bad fail ecc s
  | .spiWrite t d a ws part => Sys2Proof.Machine.execSpiWrite t d a ws part s
  | .qwrite t d a ws part => Sys2Proof.Machine.execQwrite t d a ws part s
  | .spiWriteWord t d ecc fail => Sys2Proof.Machine.execSpiWriteWord t d ecc fail s
  | .spiStatus t d n => Sys2Proof.Machine.execSpiStatus t d n s
  | .spiId t d => Sys2Proof.Machine.execSpiId t d s
  | .resetEnable t d => Sys2Proof.Machine.execResetEnable t d s
  | .spiReset t d => Sys2Proof.Machine.execSpiReset t d s
  | .flr t d => Sys2Proof.Machine.execFlr t d s
  | .hotReset t e => Sys2Proof.Machine.execHotReset t e s
  | .hdomLinkDown t e => Sys2Proof.Machine.execHdomLinkDown t e s
  | .pcieLinkUp t e => Sys2Proof.Machine.execPcieLinkUp t e s
  | .perstDeassert t e => Sys2Proof.Machine.execPerstDeassert t e s
  | .resetDone t d => Sys2Proof.Machine.execResetDone t d s
  | .hdomWdogKick t d v => Sys2Proof.Machine.execHdomWdogKick t d v s
  | .hdomWdog t d => Sys2Proof.Machine.execHdomWdog t d s
  | .acquire t d n => Sys2Proof.Machine.execAcquire t d n s
  | .release t d n => Sys2Proof.Machine.execRelease t d n s
  | .clearBroken t d n => Sys2Proof.Machine.execClearBroken t d n s
  | .ringWrite t => Sys2Proof.Machine.execRingWrite t s
  | .segmentMaxAge t cls => Sys2Proof.Machine.execSegmentMaxAge t cls s
  | .qtrig t d v => Sys2Proof.Machine.execQtrig t d v s
  | .heldTriggerOffer t input => Sys2Proof.Machine.execHeldTriggerOffer t input s
  | .quotationWindowClose t entry => Sys2Proof.Machine.execQuotationWindowClose t entry s
  | .capsuleClose t => Sys2Proof.Machine.execCapsuleClose t s
  | .qrel t d v => Sys2Proof.Machine.execQrel t d v s
  | .xcmd t d v => Sys2Proof.Machine.execXcmd t d v s
  | .exportDone t code => Sys2Proof.Machine.execExportDone t code s
  | .trnFind t d => Sys2Proof.Machine.execTrnFind t d s
  | .trnNext t d => Sys2Proof.Machine.execTrnNext t d s
  | .erase t d slot => Sys2Proof.Machine.execErase t d slot s
  | .mramWrite t d a bits v => Sys2Proof.Machine.execMramWrite t d a bits v s
  | .nmClusterEnable t d c v => Sys2Proof.Machine.execNmClusterEnable t d c v s
  | .awake t d c v => Sys2Proof.Machine.execAwake t d c v s
  | .rmr t d c v => Sys2Proof.Machine.execRmr t d c v s
  | .nmFrameSend t c => Sys2Proof.Machine.execNmFrameSend t c s
  | .repeatMessageEnd t c => Sys2Proof.Machine.execRepeatMessageEnd t c s
  | .nmTimeout t c => Sys2Proof.Machine.execNmTimeout t c s
  | .sleepCommit t c => Sys2Proof.Machine.execSleepCommit t c s
  | .commitComplete t c => Sys2Proof.Machine.execCommitComplete t c s
  | .nmFalseWake t c => Sys2Proof.Machine.execNmFalseWake t c s
  | .nmOffender t c => Sys2Proof.Machine.execNmOffender t c s
  | .wakeInEdge t n rising stamp ticks => Sys2Proof.Machine.execWakeInEdge t n rising stamp ticks s
  | .canWup t n stamp => Sys2Proof.Machine.execCanWup t n stamp s
  | .canWuf t n f stamp => Sys2Proof.Machine.execCanWuf t n f stamp s
  | .canErrcnt t n count stamp => Sys2Proof.Machine.execCanErrcnt t n count stamp s
  | .t1sAct t p bursts => Sys2Proof.Machine.execT1sAct t p bursts s
  | .generate t d k slot => Sys2Proof.Machine.execGenerate t d k slot s
  | .keyImport t d k slot => Sys2Proof.Machine.execKeyImport t d k slot s
  | .derive t d k slot => Sys2Proof.Machine.execDerive t d k slot s
  | .destroy t d k slot => Sys2Proof.Machine.execDestroy t d k slot s
  | .restrict t d k slot => Sys2Proof.Machine.execRestrict t d k slot s
  | .attest t d k slot => Sys2Proof.Machine.execAttest t d k slot s
  | .keySign t d k slot => Sys2Proof.Machine.execKeySign t d k slot s
  | .pubkey t d k slot => Sys2Proof.Machine.execPubkey t d k slot s
  | .keyCmdDone t => Sys2Proof.Machine.execKeyCmdDone t s
  | .rngHealthFail t => Sys2Proof.Machine.execRngHealthFail t s
  | .program t d => Sys2Proof.Machine.execProgram t d s
  | .lcAdvance t d target => Sys2Proof.Machine.execLcAdvance t d target s
  | .retire t d gen => Sys2Proof.Machine.execRetire t d gen s
  | .otpCmdDone t lost => Sys2Proof.Machine.execOtpCmdDone t lost s
  | .unlockChal t => Sys2Proof.Machine.execUnlockChal t s
  | .unlockResp t resp => Sys2Proof.Machine.execUnlockResp t resp s
  | .returnResp t resp => Sys2Proof.Machine.execReturnResp t resp s
  | .unlockStat t => Sys2Proof.Machine.execUnlockStat t s
  | .debugLcRequest t target => Sys2Proof.Machine.execDebugLcRequest t target s
  | .freshnessSave t => Sys2Proof.Machine.execFreshnessSave t s
  | .trainingDone t step ranks density => Sys2Proof.Machine.execTrainingDone t step ranks density s
  | .retrain t d => Sys2Proof.Machine.execRetrain t d s
  | .arbiterGrant t clocks raised withdrawn bytes ecc corr => Sys2Proof.Machine.execArbiterGrant t clocks raised withdrawn bytes ecc corr s
  | .emcHog t clocks bytes again => Sys2Proof.Machine.execEmcHog t clocks bytes again s
  | .refresh t clocks rate => Sys2Proof.Machine.execRefresh t clocks rate s
  | .scrubLine t line err => Sys2Proof.Machine.execScrubLine t line err s
  | .emcTemp t rate => Sys2Proof.Machine.execEmcTemp t rate s
  | .lineDiePor t => Sys2Proof.Machine.execLineDiePor t s
  | .sysResetN t ns => Sys2Proof.Machine.execSysResetN t ns s
  | .glbReset t d v => Sys2Proof.Machine.execGlbReset t d v s
  | .pgAllGood t => Sys2Proof.Machine.execPgAllGood t s
  | .logicDieResetRelease t ref pll bad corr lost crg => Sys2Proof.Machine.execLogicDieResetRelease t ref pll bad corr lost crg s
  | .refCheck t ref pll bad corr lost crg => Sys2Proof.Machine.execRefCheck t ref pll bad corr lost crg s
  | .selfTestDone t found rows => Sys2Proof.Machine.execSelfTestDone t found rows s
  | .interjectionStatusFrame t => Sys2Proof.Machine.execInterjectionStatusFrame t s
  | .pgTimeout t => Sys2Proof.Machine.execPgTimeout t s
  | .pmicOffElapsed t => Sys2Proof.Machine.execPmicOffElapsed t s
  | .pgLost t => Sys2Proof.Machine.execPgLost t s
  | .vcc5Uv t => Sys2Proof.Machine.execVcc5Uv t s
  | .vcc5Recovery t => Sys2Proof.Machine.execVcc5Recovery t s
  | .vbatSample t vbat sns => Sys2Proof.Machine.execVbatSample t vbat sns s
  | .crgRefLost t pll => Sys2Proof.Machine.execCrgRefLost t pll s
  | .crgX32kFail t => Sys2Proof.Machine.execCrgX32kFail t s
  | .commaRequest t d => Sys2Proof.Machine.execCommaRequest t d s
  | .periodRequest t d force => Sys2Proof.Machine.execPeriodRequest t d force s
  | .autoPowerRequest t => Sys2Proof.Machine.execAutoPowerRequest t s
  | .commaEntry t => Sys2Proof.Machine.execCommaEntry t s
  | .periodEntry t => Sys2Proof.Machine.execPeriodEntry t s
  | .commaExit t => Sys2Proof.Machine.execCommaExit t s
  | .periodExit t => Sys2Proof.Machine.execPeriodExit t s
  | .hostAccessWake t src stamp => Sys2Proof.Machine.execHostAccessWake t src stamp s
  | .wakeTimer t => Sys2Proof.Machine.execWakeTimer t s
  | .powerFail t P => Sys2Proof.Machine.execPowerFail t P s
  | .lastGaspComplete t => Sys2Proof.Machine.execLastGaspComplete t s
  | .vbatRecovery t => Sys2Proof.Machine.execVbatRecovery t s
  | .faultReport t page => Sys2Proof.Machine.execFaultReport t page s
  | .logParity t page off => Sys2Proof.Machine.execLogParity t page off s
  | .logClear t d => Sys2Proof.Machine.execLogClear t d s
  | .pinAck t d => Sys2Proof.Machine.execPinAck t d s
  | .logWdogKick t d v => Sys2Proof.Machine.execLogWdogKick t d v s
  | .logWdogWarn t => Sys2Proof.Machine.execLogWdogWarn t s
  | .logWdogReset t => Sys2Proof.Machine.execLogWdogReset t s
  | .pdelayReqReceived t port seq ingress => Sys2Proof.Machine.execPdelayReqReceived t port seq ingress s
  | .rngHealthRecovery t => Sys2Proof.Machine.execRngHealthRecovery t s
  | .debugMemoryAccess t a w n => Sys2Proof.Machine.execDebugMemoryAccess t a w n s
  | .busMasterEnable t d on => Sys2Proof.Machine.execBusMasterEnable t d on s
  | .x32kStart t => Sys2Proof.Machine.execX32kStart t s

end Sys2Proof.Machine
end

