-- ==== Sys2Proof/Machine/Step.lean ====
section
/-!
DEFINITION. One step: the command at the front of the queue, or one tick of the clock when none waits.
-/

namespace Sys2Proof.Machine

/-- One tick of the FRC when no command waits: 2.5 ns in Clause, 40 ns in Comma, one 32.768 kHz tick while the line die
carries it (R47, R49, R50; notes/assumptions/2.md). -/
def idle (s : State) : State := { s with frc := s.frc + frcTick s }

/-- Take the command at the front of the queue and run it on the state with the queue's rest.
DESIGN CHOICE, safe (notes/assumptions/1.md). DESIGN CHOICE, safe (notes/assumptions/80.md). -/
def step (s : State) : Host.Outcome State Fault Refusal :=
  match s.pending with
  | [] => .next (idle s)
  | c :: rest => exec c { s with pending := rest }

/-- The state with the command that a table word spells at the front of its queue. The table gives no row any bits, so no
word spells a command and the state is unchanged.
DESIGN CHOICE, safe (notes/assumptions/16.md). -/
def State.withFetchWord (s : State) (nbits w : Nat) : State :=
  match Sys2Proof.decodeTableWord nbits w with
  | some c => { s with pending := c :: s.pending }
  | none => s

end Sys2Proof.Machine
end

