-- ==== Sys2Proof/WellFormed.lean ====
section
/-!
DEFINITION. Well-formed commands: every operand lies in the range its rule or register gives it. The machine answers a command
whether or not it is well-formed; a command outside these ranges names a domain, page or unit that the device does not have,
and leaves the state as the meanings say.
-/

namespace Sys2Proof

open Sys2Proof.Machine

/-! ### Operand ranges -/

/-- An FRC value: 64 bits of nanoseconds and 16 of fraction (R47). -/
def wfTime (t : Nat) : Bool := decide (t < 2 ^ 80)

/-- A stamp64. -/
def wfStamp (x : Nat) : Bool := decide (x < 2 ^ 64)

/-- A 32-bit register word. -/
def wfWord (v : Nat) : Bool := decide (v < 2 ^ 32)

/-- A domain number that can access registers: D0 to D5, and D7 (Table 1 of *Host Domains*). -/
def wfDom (d : Nat) : Bool := d < 6 || d = 7

/-- Bytes. -/
def wfBytes (l : List Nat) : Bool := l.all fun b => b < 256

/-- A CAN frame: its identifier fits its format, its payload the format's length, and its fields their widths (Table 4 of
*CAN, CAN FD and CAN XL Controllers*). -/
def CanFrame.wf (f : CanFrame) : Bool :=
  f.fmt ≤ 4 && f.id < (if f.fmt = 1 || f.fmt = 3 then 2 ^ 29 else 2 ^ 11) && wfBytes f.data
    && (if f.fmt = 4 then 1 ≤ f.data.length && f.data.length ≤ 2048 else if 2 ≤ f.fmt then f.data.length ≤ 64 else f.data.length ≤ 8)
    && f.vcid < 256 && f.sdt < 256 && f.af < 2 ^ 32

/-- An Ethernet frame at a MAC: at least a byte, at most a jumbo frame's bytes, and a merge code of Table 6. -/
def EthRx.wf (f : EthRx) : Bool := wfBytes f.bytes && wfTime f.start && wfStamp f.fin && f.mm ≤ 3

/-- A serial character of up to nine bits. -/
def SerChar.wf (c : SerChar) : Bool := c.data < 512 && wfStamp c.start && wfStamp c.fin && c.start ≤ c.fin

/-- The end of a LIN response. -/
def LinEnd.wf (e : LinEnd) : Bool := wfBytes e.data && e.data.length ≤ 8 && wfStamp e.fin

/-- Memory errors as pairs of small numbers (a table and an index, or a memory and an address). -/
def wfPairs (l : List (Nat × Nat)) : Bool := l.all fun x => x.1 < 2 ^ 32 && x.2 < 2 ^ 32

/-- A Sync and its Follow_Up. -/
def SyncMsg.wf (m : SyncMsg) : Bool := m.seq < 2 ^ 16 && wfTime m.ingress

namespace Instr

/-- The FRC value that every command carries. -/
def time : Instr → Nat
  | .registerWrite t _ _ _ _ _ _ | .rcRead t _ _ _ _ _ _ | .wordQueuePop t _ _ _ | .keyMaterialRead t _ _
  | .errCodeClear t _ _ | .irqTest t _ _ _ | .ctrlEnable t _ _ _ | .ctrlFreeze t _ _ _ | .softReset t _ _
  | .softResetDone t _ | .ctrlCommit t _ _ | .bankSwitch t _ | .drainDone t _ | .ownerClaim t _ _
  | .ownerTransfer t _ _ _ | .ownerRelease t _ _ | .ownerAdoption t _ _ | .takeOver t _ _ | .snap t _ _
  | .cntClear t _ _ _ | .snapshotDone t _ | .winRead t _ _ _ _ | .winWrite t _ _ _ | .winInvalidate t _ _
  | .winFill t _ _ _ _ | .winCopy t _ _ _ | .winCmdDone t _ | .readClr t _ _ _ | .frcHandoverEntry t | .frcHandoverExit t
  | .frcRealign t | .viewArm t _ _ | .viewStep t _ _ | .viewUpdate t _ _ | .viewRearm t _ _ | .viewEnable t _ _ _
  | .viewDisable t _ _ _ | .timeSnap t _ _ | .frcRead t _ | .journalCopy t | .syncReceive t _ _ _ | .syncRelay t _ _
  | .followUpRelay t _ _ | .syncOriginate t _ | .gptpSyncTimeout t _ | .pdelayRequest t _ | .pdelayResponse t _ _
  | .ctmEnqueue t _ | .cancModeReq t _ _ _ | .integrationDone t _ | .modeChangeAtIdle t _ | .ardDwellExpiry t _
  | .ardLock t _ | .canFrameReceived t _ _ _ _ | .protocolException t _ | .canErrorDetected t _ _ | .recover t _ _ _
  | .busOn t _ | .canTxbReq t _ _ _ | .canTxbCancel t _ _ _ | .rtqEntry t _ _ | .txArbitration t _ _
  | .canTxSuccess t _ _ _ _ | .canDominantTimeout t _ | .driverThermalShutdown t _ _ _ | .scheduleSlot t _
  | .schedSwitch t _ _ _ | .schedGo t _ _ _ | .linHeaderReceived t _ _ _ _ | .linFrameEnd t _ _
  | .linResponseTimeout t _ _ | .linWake t _ _ _ | .linWakeReceived t _ _ | .linIdleSleep t _ | .linWakeHoldoffEnd t _
  | .linDominantTimeout t _ | .lincModeReq t _ _ _ | .serModeReq t _ _ _ | .serCharacterReceived t _ _
  | .serGapExpiry t _ | .serTxReq t _ _ _ | .serTxCancel t _ _ _ | .serRtqEntry t _ _ | .serTxStart t _ | .serTxDone t _
  | .routerInput t | .tunnelPduReceived t | .srtTimeout t _ | .redundancyWindowEnd t _ | .cyclicTick t _ | .imageSend t _
  | .pduWindowEnd t _ | .srtRelease t _ _ | .superviseEnable t _ _ | .ethFrameReceived t _ _ _
  | .ethFrameTransmitted t _ _ _ _ | .ethLinkDown t _ _ | .linkUp t _ _ | .ethHoldFlush t _ | .ageCheck t _
  | .anCodeWord t _ _ _ | .sqiRefresh t _ _ | .plcaStatusChange t _ _ | .mmVerify t _ _ | .sleepReq t _ _
  | .wakeReq t _ _ | .tc10SleepReceived t _ | .tc10Nack t _ | .tc10Wake t _ _ | .tc10WakingTimeout t _
  | .pipelineEntry t _ _ _ _ | .learnApply t _ | .xlearnOfferApply t _ | .agingSweepStep t _ | .search t _ _
  | .fdbNext t _ _ | .insert t _ _ | .delete t _ _ | .flushPort t _ _ | .rehash t _ _ | .rehashDone t _ | .fdbHash t _ _
  | .copyEnqueue t _ _ | .spillWriteDone t | .refillDone t _ _ | .flushReleaseDone t _ | .transmissionSelection t _ _ _ _
  | .gateEvent t _ _ | .macHoldAssert t _ | .gclCommit t _ _ | .gclCancel t _ _ | .gclChanged t _ | .frerWindowEnd t
  | .frerReset t _ | .hostTxFetch t _ _ _ _ | .hostRxDelivery t _ _ _ | .txCompletion t _ _ | .noStamp t _ _
  | .doorbell t _ _ _ _ | .coalTimer t _ _ _ | .vecEoi t _ _ | .msixUnmask t _ _ _ | .bar4Access t _ _ _ _ _
  | .spiRead t _ _ _ _ _ _ _ | .qread t _ _ _ _ _ _ _ | .spiWrite t _ _ _ _ | .qwrite t _ _ _ _ | .spiWriteWord t _ _ _
  | .spiStatus t _ _ | .spiId t _ | .resetEnable t _ | .spiReset t _ | .flr t _ | .hotReset t _ | .hdomLinkDown t _
  | .pcieLinkUp t _ | .perstDeassert t _ | .resetDone t _ | .hdomWdogKick t _ _ | .hdomWdog t _ | .acquire t _ _
  | .release t _ _ | .clearBroken t _ _ | .ringWrite t | .segmentMaxAge t _ | .qtrig t _ _ | .heldTriggerOffer t _
  | .quotationWindowClose t _ | .capsuleClose t | .qrel t _ _ | .xcmd t _ _ | .exportDone t _ | .trnFind t _
  | .trnNext t _ | .erase t _ _ | .mramWrite t _ _ _ _ | .nmClusterEnable t _ _ _ | .awake t _ _ _ | .rmr t _ _ _
  | .nmFrameSend t _ | .repeatMessageEnd t _ | .nmTimeout t _ | .sleepCommit t _ | .commitComplete t _ | .nmFalseWake t _
  | .nmOffender t _ | .wakeInEdge t _ _ _ _ | .canWup t _ _ | .canWuf t _ _ _ | .canErrcnt t _ _ _ | .t1sAct t _ _
  | .generate t _ _ _ | .keyImport t _ _ _ | .derive t _ _ _ | .destroy t _ _ _ | .restrict t _ _ _ | .attest t _ _ _
  | .keySign t _ _ _ | .pubkey t _ _ _ | .keyCmdDone t | .rngHealthFail t | .program t _ | .lcAdvance t _ _
  | .retire t _ _ | .otpCmdDone t _ | .unlockChal t | .unlockResp t _ | .returnResp t _ | .unlockStat t
  | .debugLcRequest t _ | .freshnessSave t | .trainingDone t _ _ _ | .retrain t _ | .arbiterGrant t _ _ _ _ _ _
  | .emcHog t _ _ _ | .refresh t _ _ | .scrubLine t _ _ | .emcTemp t _ | .lineDiePor t | .sysResetN t _ | .glbReset t _ _
  | .pgAllGood t | .logicDieResetRelease t _ _ _ _ _ _ | .refCheck t _ _ _ _ _ _ | .selfTestDone t _ _
  | .interjectionStatusFrame t | .pgTimeout t | .pmicOffElapsed t | .pgLost t | .vcc5Uv t | .vcc5Recovery t
  | .vbatSample t _ _ | .crgRefLost t _ | .crgX32kFail t | .commaRequest t _ | .periodRequest t _ _ | .autoPowerRequest t
  | .commaEntry t | .periodEntry t | .commaExit t | .periodExit t | .hostAccessWake t _ _ | .wakeTimer t | .powerFail t _
  | .lastGaspComplete t | .vbatRecovery t | .faultReport t _ | .logParity t _ _ | .logClear t _ | .pinAck t _
  | .logWdogKick t _ _ | .logWdogWarn t | .logWdogReset t | .pdelayReqReceived t _ _ _ | .rngHealthRecovery t
  | .debugMemoryAccess t _ _ _ | .busMasterEnable t _ _ | .x32kStart t => t

/-- The operands other than `t` lie in their ranges. -/
def operandsWf : Instr → Bool
  | .registerWrite _ d a bits v _ _ => wfDom d && a < 2 ^ 24 && [8, 16, 32, 64].contains bits && v < 2 ^ bits
  | .rcRead _ d a bits _ _ _ => wfDom d && a < 2 ^ 24 && [8, 16, 32, 64].contains bits
  | .wordQueuePop _ d k _ => wfDom d && k < 38
  | .keyMaterialRead _ d p => wfDom d && hasWindow p
  | .errCodeClear _ d p => wfDom d && hasHeader p
  | .irqTest _ d p v => wfDom d && hasHeader p && wfWord v
  | .ctrlEnable _ d p _ | .ctrlFreeze _ d p _ => wfDom d && isControlPage p
  | .softReset _ d p => wfDom d && isControlPage p
  | .softResetDone _ p => isControlPage p
  | .ctrlCommit _ d p => wfDom d && isControlPage p
  | .bankSwitch _ p | .drainDone _ p => isControlPage p
  | .ownerClaim _ d p | .ownerRelease _ d p | .ownerAdoption _ d p | .takeOver _ d p => wfDom d && hasHeader p
  | .ownerTransfer _ d p dst => wfDom d && hasHeader p && dst < 8
  | .snap _ d p => wfDom d && hasHeader p
  | .cntClear _ d p _ => wfDom d && hasHeader p
  | .snapshotDone _ p => hasHeader p
  | .winRead _ d p _ _ => wfDom d && hasWindow p
  | .winWrite _ d p _ => wfDom d && hasWindow p
  | .winInvalidate _ d p => wfDom d && hasWindow p
  | .winFill _ d p cnt _ => wfDom d && hasWindow p && cnt < 2 ^ 16
  | .winCopy _ d p cnt => wfDom d && hasWindow p && cnt < 2 ^ 16
  | .winCmdDone _ p => hasWindow p
  | .readClr _ d p _ => wfDom d && hasWindow p
  | .frcHandoverEntry _ | .frcHandoverExit _ | .frcRealign _ => true
  | .viewArm _ d view | .viewStep _ d view | .viewUpdate _ d view => wfDom d && view < 8
  | .viewRearm _ d v | .timeSnap _ d v => wfDom d && wfWord v
  | .viewEnable _ d view v | .viewDisable _ d view v => wfDom d && view < 8 && wfWord v
  | .frcRead _ d => wfDom d
  | .journalCopy _ => true
  | .syncReceive _ domain port m => domain < 256 && port < 24 && m.wf
  | .syncRelay _ i port | .followUpRelay _ i port => i < 4 && port < 24
  | .syncOriginate _ i | .gptpSyncTimeout _ i => i < 4
  | .pdelayRequest _ port => port < 24
  | .pdelayResponse _ port _ => port < 24
  | .ctmEnqueue _ m => m < 4
  | .cancModeReq _ d n v | .recover _ d n v | .canTxbReq _ d n v | .canTxbCancel _ d n v => wfDom d && n < 24 && wfWord v
  | .integrationDone _ n | .modeChangeAtIdle _ n | .ardDwellExpiry _ n | .ardLock _ n => n < 24
  | .canFrameReceived _ n f sof eof => n < 24 && f.wf && wfStamp sof && wfStamp eof
  | .protocolException _ n | .busOn _ n | .canDominantTimeout _ n => n < 24
  | .canErrorDetected _ n _ => n < 24
  | .rtqEntry _ n f => n < 24 && f.wf
  | .txArbitration _ n phase => n < 24 && phase < 3
  | .canTxSuccess _ n sof eof _ => n < 24 && wfStamp sof && wfStamp eof
  | .driverThermalShutdown _ lin n _ => n < (if lin then 8 else 24)
  | .scheduleSlot _ n | .linIdleSleep _ n | .linWakeHoldoffEnd _ n | .linDominantTimeout _ n => n < 8
  | .schedSwitch _ d n v | .schedGo _ d n v | .linWake _ d n v | .lincModeReq _ d n v => wfDom d && n < 8 && wfWord v
  | .linHeaderReceived _ n id start _ => n < 8 && id < 64 && wfStamp start
  | .linFrameEnd _ n e => n < 8 && e.wf
  | .linResponseTimeout _ n got => n < 8 && wfBytes got && got.length ≤ 9
  | .linWakeReceived _ n _ => n < 8
  | .serModeReq _ d k v | .serTxReq _ d k v | .serTxCancel _ d k v => wfDom d && k < 4 && wfWord v
  | .serCharacterReceived _ k c => k < 4 && c.wf
  | .serGapExpiry _ k | .serTxStart _ k | .serTxDone _ k => k < 4
  | .serRtqEntry _ k chars => k < 4 && chars.all fun c => c < 512
  | .routerInput _ | .tunnelPduReceived _ => true
  | .srtTimeout _ route | .redundancyWindowEnd _ route | .cyclicTick _ route | .imageSend _ route => route < 8192
  | .pduWindowEnd _ i => i < 16
  | .srtRelease _ d v | .superviseEnable _ d v => wfDom d && wfWord v
  | .ethFrameReceived _ p f secEcc => p < 32 && f.wf && wfPairs secEcc
  | .ethFrameTransmitted _ p start coll late => p < 32 && wfTime start && coll ≤ 16 && late ≤ 1
  | .ethLinkDown _ p stamp | .linkUp _ p stamp => p < 32 && wfStamp stamp
  | .ethHoldFlush _ p | .ageCheck _ p => p < 32
  | .anCodeWord _ p speed _ => p < 12 && speed ≤ 5
  | .sqiRefresh _ p sqi => 12 ≤ p && p < 24 && sqi < 8
  | .plcaStatusChange _ p _ => 24 ≤ p && p < 32
  | .mmVerify _ p _ => p < 12
  | .sleepReq _ d p | .wakeReq _ d p => wfDom d && 12 ≤ p && p < 24
  | .tc10SleepReceived _ p | .tc10Nack _ p | .tc10WakingTimeout _ p => 12 ≤ p && p < 24
  | .tc10Wake _ p stamp => 12 ≤ p && p < 24 && wfStamp stamp
  | .pipelineEntry _ i ecc _ _ => i < 2 && wfPairs ecc
  | .learnApply _ i | .xlearnOfferApply _ i | .agingSweepStep _ i | .rehashDone _ i => i < 2
  | .search _ d i | .fdbNext _ d i | .insert _ d i | .delete _ d i | .flushPort _ d i | .rehash _ d i | .fdbHash _ d i =>
    wfDom d && i < 2
  | .copyEnqueue _ ecc _ => wfPairs ecc
  | .spillWriteDone _ => true
  | .refillDone _ k _ | .flushReleaseDone _ k => k ≤ 288
  | .transmissionSelection _ p _ _ secEcc => p < 32 && wfPairs secEcc
  | .gateEvent _ p _ => p < 36
  | .macHoldAssert _ p => p < 12
  | .gclCommit _ d p | .gclCancel _ d p => wfDom d && p < 32
  | .gclChanged _ p => p < 32
  | .frerWindowEnd _ => true
  | .frerReset _ f => f < 512
  | .hostTxFetch _ e desc frame _ => e < 2 && wfBytes desc && wfBytes frame
  | .hostRxDelivery _ p desc _ => (p = 32 || p = 33 || p = 35) && wfBytes desc
  | .txCompletion _ d r | .noStamp _ d r => d < 4 && r < 4
  | .doorbell _ d tab r v => d < 4 && tab < 2 && r < 4 && wfWord v
  | .coalTimer _ d tab r => d < 4 && tab < 2 && r < 4
  | .vecEoi _ d v => d < 6 && wfWord v
  | .msixUnmask _ d _ mask => d < 4 && wfWord mask
  | .bar4Access _ d _ w n _ => d < 4 && n ≤ 8 && (match w with | some l => wfBytes l && l.length ≤ 8 | none => true)
  | .spiRead _ d a n _ _ _ _ | .qread _ d a n _ _ _ _ => (d = 4 || d = 5) && a < 2 ^ 24 && n < 2 ^ 22
  | .spiWrite _ d a ws _ | .qwrite _ d a ws _ => (d = 4 || d = 5) && a < 2 ^ 24 && ws.all wfWord
  | .spiWriteWord _ d _ _ => d = 4 || d = 5
  | .spiStatus _ d _ => d = 4 || d = 5
  | .spiId _ d | .resetEnable _ d | .spiReset _ d => d = 4 || d = 5
  | .flr _ d => d < 4
  | .hotReset _ e | .hdomLinkDown _ e | .pcieLinkUp _ e | .perstDeassert _ e => e < 2
  | .resetDone _ d | .hdomWdog _ d => d < 6
  | .hdomWdogKick _ d v => d < 6 && wfWord v
  | .acquire _ d n | .release _ d n | .clearBroken _ d n => wfDom d && n < 64
  | .ringWrite _ => true
  | .segmentMaxAge _ cls => cls < 2
  | .qtrig _ d v | .qrel _ d v | .xcmd _ d v => wfDom d && wfWord v
  | .heldTriggerOffer _ input => input < 8
  | .quotationWindowClose _ entry => entry < 4
  | .capsuleClose _ => true
  | .exportDone _ code => code < 2 ^ 16
  | .trnFind _ d | .trnNext _ d => wfDom d
  | .erase _ d slot => wfDom d && slot < 7
  | .mramWrite _ d a bits v => wfDom d && inMramWindow (a / 4096) && [8, 16, 32, 64].contains bits && v < 2 ^ bits
  | .nmClusterEnable _ d c v | .awake _ d c v | .rmr _ d c v => wfDom d && c < 8 && wfWord v
  | .nmFrameSend _ c | .repeatMessageEnd _ c | .nmTimeout _ c | .sleepCommit _ c | .commitComplete _ c | .nmFalseWake _ c
  | .nmOffender _ c => c < 8
  | .wakeInEdge _ n _ stamp _ => n < 8 && wfStamp stamp
  | .canWup _ n stamp => n < 24 && wfStamp stamp
  | .canWuf _ n f stamp => n < 16 && f.wf && wfStamp stamp
  | .canErrcnt _ n count stamp => n < 16 && count ≤ 32 && wfStamp stamp
  | .t1sAct _ p bursts => 24 ≤ p && p < 32 && bursts.all fun x => wfStamp x.1 && wfStamp x.2
  | .generate _ d k slot | .keyImport _ d k slot | .derive _ d k slot | .destroy _ d k slot | .restrict _ d k slot
  | .attest _ d k slot | .keySign _ d k slot | .pubkey _ d k slot => wfDom d && k < 4 && slot < 256
  | .keyCmdDone _ | .rngHealthFail _ | .rngHealthRecovery _ => true
  | .program _ d => wfDom d
  | .lcAdvance _ d target => wfDom d && target < 8
  | .retire _ d gen => wfDom d && gen < 4
  | .otpCmdDone _ lost => wfWord lost
  | .unlockChal _ | .unlockStat _ => true
  | .unlockResp _ resp | .returnResp _ resp => resp < 2 ^ 512
  | .debugLcRequest _ target => target < 8
  | .freshnessSave _ => true
  | .trainingDone _ step ranks density => step ≤ 5 && ranks ≤ 3 && density < 16
  | .retrain _ d => wfDom d
  | .arbiterGrant _ _ raised withdrawn _ _ _ => raised.all (fun x => x.1 < 8) && withdrawn.all fun x => x < 8
  | .emcHog _ _ _ _ => true
  | .refresh _ _ rate | .emcTemp _ rate => rate < 16
  | .scrubLine _ line err => line < 2 ^ 28 && err ≤ 2
  | .lineDiePor _ => true
  | .sysResetN _ _ => true
  | .glbReset _ d v => wfDom d && wfWord v
  | .pgAllGood _ | .pgTimeout _ | .pmicOffElapsed _ | .pgLost _ | .vcc5Uv _ | .vcc5Recovery _ => true
  | .logicDieResetRelease _ _ _ bad _ lost crg | .refCheck _ _ _ bad _ lost crg =>
    (bad.all fun w => w < 4096) && lost < 2 ^ 32 && crg < 2 ^ 32
  | .selfTestDone _ found rows => found < 2 ^ 64 && rows < 2 ^ 32
  | .interjectionStatusFrame _ => true
  | .vbatSample _ vbat sns => vbat < 2 ^ 16 && sns < 2 ^ 16
  | .crgRefLost _ _ | .crgX32kFail _ | .x32kStart _ => true
  | .commaRequest _ d | .periodRequest _ d _ => wfDom d
  | .autoPowerRequest _ | .commaEntry _ | .periodEntry _ | .commaExit _ | .periodExit _ => true
  | .hostAccessWake _ _ stamp => wfStamp stamp
  | .wakeTimer _ | .lastGaspComplete _ | .vbatRecovery _ => true
  | .powerFail _ P => wfStamp P
  | .faultReport _ page => hasHeader page
  | .logParity _ page off => hasHeader page && off < 4096
  | .logClear _ d | .pinAck _ d => wfDom d
  | .logWdogKick _ d v => wfDom d && wfWord v
  | .logWdogWarn _ | .logWdogReset _ => true
  | .pdelayReqReceived _ port seq ingress => port < 24 && seq < 2 ^ 16 && wfTime ingress
  | .debugMemoryAccess _ _ w n => n ≤ 8 && (match w with | some l => wfBytes l | none => true)
  | .busMasterEnable _ d _ => d < 4

/-- The command is well-formed. -/
def wf (i : Instr) : Bool := wfTime i.time && i.operandsWf

end Instr

end Sys2Proof
end

