-- ==== Sys2Proof/Safety.lean ====
section
/-!
DEFINITION. The terms that claims are stated in: what it means that a command completes, which writes a register port takes,
and what a command leaves unchanged. No command of this block faults or refuses: a safe run is one in which every command
that waits is taken in turn and ends in a next state.
-/

namespace Sys2Proof.Machine

/-- The command `c` ends in a next state, and `Q` holds of it. -/
def Completes (c : Instr) (s : State) (Q : State → Prop) : Prop := ∃ u, exec c s = .next u ∧ Q u

/-- The register port takes a 32-bit write of `v` by domain `d` at address `a`: it answers, and the write passes checks 1 to
6 of R555. -/
def State.takes (s : State) (d a v : Nat) : Prop := s.live = true ∧ s.judge d a 32 v = none

/-- The window of page `p` takes the command word `v` of domain `d`: the write is taken, no command runs, and it passes checks 1
to 6 of R46. -/
def State.commands (s : State) (d p v : Nat) : Prop :=
  s.takes d (p * 4096 + Reg.WIN_CMD) v ∧ hasWindow p = true ∧ s.flag p Fd.WIN_BUSY = false ∧
    s.winCheck p (v % 16) (v / 65536) = none

/-- A command of domain `d` runs on page `p`, to end with `err` (0: success), and BUSY says so. -/
def WinRuns (u : State) (d p err : Nat) : Prop := u.flag p Fd.WIN_BUSY = true ∧ (⟨p, d, err⟩ : WinRun) ∈ u.wins

/-- DATA0 to DATA7 of page `p` hold the entry `e`. -/
def DataHolds (u : State) (p : Nat) (e : Entry) : Prop := ∀ k, k < 8 → u.rd p (Reg.WIN_DATA + 4 * k) = bitsOf e (32 * k) 32

/-- The registers of a page's window. -/
def winRegs (p : Nat) : List Nat :=
  [p * 4096 + Reg.WIN_CMD_STATUS, p * 4096 + Reg.WIN_DATA, p * 4096 + Reg.WIN_DATA + 4, p * 4096 + Reg.WIN_DATA + 8,
    p * 4096 + Reg.WIN_DATA + 12, p * 4096 + Reg.WIN_DATA + 16, p * 4096 + Reg.WIN_DATA + 20, p * 4096 + Reg.WIN_DATA + 24,
    p * 4096 + Reg.WIN_DATA + 28]

/-- Every register but those at the addresses `as` holds what it held. -/
def RegsKept (s u : State) (as : List Nat) : Prop := ∀ a, a ∉ as → u.reg a = s.reg a

/-- Every entry of every window table holds what it held. -/
def TablesKept (s u : State) : Prop := ∀ p tab bank idx, u.ent p tab bank idx = s.ent p tab bank idx

/-- Every live counter holds what it held. -/
def CountsKept (s u : State) : Prop := ∀ p off, u.count p off = s.count p off

/-- Every byte of MRAM and of external memory reads as before. -/
def BytesKept (s u : State) : Prop := (∀ o, u.mramByte o = s.mramByte o) ∧ ∀ a, u.dramByte a = s.dramByte a

/-- Every word queue holds what it held. -/
def QueuesKept (s u : State) : Prop := ∀ k, u.wq k = s.wq k

/-- Key port `k` takes command `op` with slot `slot` of domain `d`: the write is taken, no command runs there, the store is enabled
and the life-cycle state has key commands (R388, R396). -/
def State.keyTakes (s : State) (d k op slot : Nat) : Prop :=
  k < 4 ∧ slot < 256 ∧ s.takes d (pKEY k * 4096 + Reg.KEY_CMD) (2 ^ 31 + op * 2 ^ 24 + slot) ∧
    s.flag (pKEY k) Fd.KEY_CMD_STATUS_BUSY = false ∧ s.enabled (pKEY 0) = true ∧ s.lc ≠ 0 ∧ s.lc ≠ 5

/-- Key port `k` runs the command `r`, the newest, and BUSY says so. -/
def KeyRuns (s u : State) (k : Nat) (r : KeyRun) : Prop :=
  u.keys.runs = s.keys.runs ++ [r] ∧ u.flag (pKEY k) Fd.KEY_CMD_STATUS_BUSY = true ∧
    u.count (pKEY k) Cn.KEY_COMMANDS = (s.count (pKEY k) Cn.KEY_COMMANDS + 1) % 2 ^ 64 ∧ BytesKept s u ∧ QueuesKept s u

/-- The registers in which a page latches an error (R37). -/
def errRegs (p : Nat) : List Nat :=
  [p * 4096 + Reg.ERR_CODE, p * 4096 + Reg.ERR_STAMP_LO, p * 4096 + Reg.ERR_STAMP_HI, p * 4096 + Reg.IRQ_STAT]

/-- `n` steps from `s` end in the state `u`. -/
def Runs : Nat → State → State → Prop
  | 0, s, u => u = s
  | n + 1, s, u => ∃ m, step s = .next m ∧ Runs n m u

end Sys2Proof.Machine
end

