-- ==== Sys2Proof/Certificates/Slice0/Obligations.lean ====
section
/-!
DEFINITION. The statements for the provers: what the spec says the commands do, family by family, and what holds of every
step.
-/

open Sys2Proof Sys2Proof.Machine

/-! ### The queue and the step -/

/-- When a command waits, step is exec of the command at the front, on the state with the rest of the queue. The queue is the
model's own. -/
def Obligations.StepRunsTheFrontCommand : Prop :=
  ∀ (s : State) (c : Instr) (rest : List Instr), s.pending = c :: rest → step s = exec c { s with pending := rest }

/-- For every command and every state, whatever its operands: exec answers a next state, never a fault or a refusal, and the
commands that wait are the same ones in the same order. -/
def Obligations.EveryCommandCompletesAndKeepsTheQueue : Prop :=
  ∀ (c : Instr) (s : State), ∃ u, exec c s = .next u ∧ u.pending = s.pending

/-- From every state, as many steps as commands wait end in one next state with an empty queue, and the commands are taken
first in, first out: step k runs the k-th command that waited, on the state that the steps before it left, and leaves exactly
the later ones waiting. No command stops the machine, and none creates, drops or reorders a waiting command. -/
def Obligations.EveryQueueDrainsInOrder : Prop :=
  ∀ (s : State), ∃ tr : Nat → State, tr 0 = s ∧ (tr s.pending.length).pending = [] ∧
    Runs s.pending.length s (tr s.pending.length) ∧
    ∀ (k : Nat) (h : k < s.pending.length),
      (tr k).pending = s.pending.drop k ∧ step (tr k) = .next (tr (k + 1)) ∧
      exec s.pending[k] { tr k with pending := s.pending.drop (k + 1) } = .next (tr (k + 1))

/-- An invariant of the model's queue: from every state in which every waiting command is well formed, a step ends in a state
in which every waiting command is well formed. -/
def Obligations.StepKeepsWaitingCommandsWellFormed : Prop :=
  ∀ (s u : State), (∀ c ∈ s.pending, c.wf) → step s = .next u → ∀ c ∈ u.pending, c.wf

/-- With an empty queue a step adds one tick to the FRC and changes nothing else: 2.5 ns while the logic die runs, 40 ns in
Comma, one period of 32.768 kHz while the line die carries the FRC. That the idle step is a tick is the model's choice
(notes/assumptions/2.md). -/
def Obligations.IdleStepTicksTheFrc : Prop :=
  ∀ (s : State), s.pending = [] → ∃ u, step s = .next u ∧ u = { s with frc := u.frc } ∧
    (s.boot = .ready → s.pwr = .clause → 2 * (u.frc - s.frc) = 5 * 65536) ∧
    (s.boot = .ready → s.pwr = .comma → u.frc - s.frc = 40 * 65536) ∧
    (s.pwr = .period → 32768 * (u.frc - s.frc) = 1000000000 * 65536)

/-! ### The register port -/

/-- REGISTER_WRITE of 32 bits at a multiple of 4, outside the TIME page, by domain d. Where checks 1 to 6 of R555 pass, a write of
xxx_IRQ_EN leaves exactly the value written there, and a write of IRQ_ROUTE that names a vector and a domain in range leaves its
fields there; both touch no other register, no table, no counter but the message counters of D0 to D3, and no byte of memory.
Where a check fails, the write stores nothing: only ERR_CODE, its stamp and IRQ_STAT of the reporting page can change. A width
below 32 bits or an address that is no multiple of 4 is refused with REG_SIZE in the same way. -/
def Obligations.RegisterWriteStoresOrIsRefusedWhole : Prop :=
  (∀ (s : State) (t d p v : Nat), p < 4096 → hasHeader p = true → v < 2 ^ 32 → p ≠ pTIME →
    s.takes d (p * 4096 + Reg.IRQ_EN) v →
    Completes (.registerWrite t d (p * 4096 + Reg.IRQ_EN) 32 v false false) s fun u =>
      u.rd p Reg.IRQ_EN = v ∧ RegsKept s u [p * 4096 + Reg.IRQ_EN] ∧ TablesKept s u ∧ BytesKept s u ∧ QueuesKept s u) ∧
  (∀ (s : State) (t d p v : Nat), p < 4096 → hasHeader p = true → v < 2 ^ 32 → p ≠ pTIME →
    v / 256 % 256 ≤ 31 → v % 8 ≤ 5 → s.takes d (p * 4096 + Reg.IRQ_ROUTE) v →
    Completes (.registerWrite t d (p * 4096 + Reg.IRQ_ROUTE) 32 v false false) s fun u =>
      u.fld p Fd.IRQ_ROUTE_EN = v / 2 ^ 31 ∧ u.fld p Fd.IRQ_ROUTE_VECTOR = v / 256 % 256 ∧ u.fld p Fd.IRQ_ROUTE_DOMAIN = v % 8 ∧
      RegsKept s u [p * 4096 + Reg.IRQ_ROUTE] ∧ TablesKept s u ∧ BytesKept s u ∧ QueuesKept s u) ∧
  (∀ (s : State) (t d a v c : Nat), a < 2 ^ 24 → a / 4096 ≠ pTIME → v < 2 ^ 32 → s.live = true →
    s.judge d a 32 v = some c → a % 4 = 0 →
    Completes (.registerWrite t d a 32 v false false) s fun u =>
      RegsKept s u (errRegs (refusePage a)) ∧ TablesKept s u ∧ BytesKept s u ∧ QueuesKept s u) ∧
  (∀ (s : State) (t d a v bits : Nat), a < 2 ^ 24 → a / 4096 ≠ pTIME → s.live = true → (bits < 32 ∨ a % 4 ≠ 0) →
    s.flag (refusePage a) Fd.ERR_VALID = false →
    Completes (.registerWrite t d a bits v false false) s fun u =>
      u.fld (refusePage a) Fd.ERR_CODE = Er.REG_SIZE ∧ u.fld (refusePage a) Fd.ERR_SRC_DOMAIN = d % 8 ∧
      RegsKept s u (errRegs (refusePage a)) ∧ TablesKept s u ∧ BytesKept s u ∧ QueuesKept s u)

/-- ERR_CODE_CLEAR clears the code and both stamps of its page and touches nothing else. IRQ_TEST sets the bits written in
IRQ_STAT of its page. RC_READ of a 32-bit register answers its contents, and an owner's read of an RC register of a block clears
its RC bits; a read by a domain that does not own the page clears nothing. WORD_QUEUE_POP by the owner answers the word at the
head of the queue and takes exactly it; by any other domain it leaves the queue as it is. -/
def Obligations.PortCommandsOfOneRegister : Prop :=
  (∀ (s : State) (t d p : Nat), p < 4096 → hasHeader p = true → p ≠ pTIME → s.takes d (p * 4096 + Reg.ERR_CODE) (2 ^ 31) →
    Completes (.errCodeClear t d p) s fun u =>
      u.rd p Reg.ERR_CODE = 0 ∧ u.rd64 p Reg.ERR_STAMP_LO = 0 ∧
      RegsKept s u [p * 4096 + Reg.ERR_CODE, p * 4096 + Reg.ERR_STAMP_LO, p * 4096 + Reg.ERR_STAMP_HI] ∧
      TablesKept s u ∧ CountsKept s u ∧ BytesKept s u ∧ QueuesKept s u) ∧
  (∀ (s : State) (t d p v : Nat), p < 4096 → hasHeader p = true → p ≠ pTIME → v < 2 ^ 32 →
    s.takes d (p * 4096 + Reg.IRQ_TEST) v →
    Completes (.irqTest t d p v) s fun u =>
      u.rd p Reg.IRQ_STAT = s.rd p Reg.IRQ_STAT ||| v ∧ RegsKept s u [p * 4096 + Reg.IRQ_STAT] ∧
      TablesKept s u ∧ BytesKept s u ∧ QueuesKept s u) ∧
  (∀ (s : State) (t d a : Nat) (r : RegDef), a < 2 ^ 24 → a % 4 = 0 → s.live = true →
    onLineDie (a / 4096) (a % 4096) = false → inMramWindow (a / 4096) = false → regDef a = some r →
    queueAt (a / 4096) (a % 4096) = none → a ≠ pTIME * 4096 + Reg.TIME_FRC_LO →
    a ≠ pSWC * 4096 + Reg.SWC_FREE_MIN → a ≠ pSRT * 4096 + Reg.SRT_INQ_STAT →
    Completes (.rcRead t d a 32 false false false) s fun u =>
      u.out = s.out ++ [.read d a ((s.advance t).peek d a % 2 ^ 32)] ∧
      u.reg a = (if r.rc ≠ 0 ∧ s.owns d (a / 4096) = true then s.reg a &&& ~~~(BitVec.ofNat 32 r.rc) else s.reg a) ∧
      RegsKept s u [a] ∧ TablesKept s u ∧ CountsKept s u ∧ BytesKept s u ∧ QueuesKept s u) ∧
  (∀ (s : State) (t d k w : Nat) (q : WordQ), k < 38 → s.live = true → s.owns d (wqAt k).page = true →
    (s.wq k).pop = some (w, q) →
    Completes (.wordQueuePop t d k false) s fun u =>
      u.wq k = q ∧ u.out = s.out ++ [.read d ((wqAt k).page * 4096 + queueOff k) w] ∧
      u.fld (wqAt k).page (wqAt k).level = q.level % 2 ^ (wqAt k).level.w) ∧
  (∀ (s : State) (t d k : Nat), k < 38 → s.live = true → s.owns d (wqAt k).page = false →
    Completes (.wordQueuePop t d k false) s fun u => u.wq k = s.wq k ∧ RegsKept s u [] ∧ TablesKept s u ∧ BytesKept s u)
/-! ### Control registers, ownership and counters -/

/-- On the control page of a block, by a write that passes checks 1 to 6: ENABLE sets or clears CTRL.ENABLE and
STATUS.ENABLED (shown on the gated blocks PIPE and SWC, whose enabling has no further effect); FREEZE sets or clears CTRL.FREEZE,
and STATUS.FROZEN with it on those blocks; SOFT_RESET makes SOFT_RESET and RESET_BUSY read 1 on every block that can be reset,
and SOFT_RESET_DONE makes both read 0; COMMIT on a banked block that is not draining makes COMMIT and COMMIT_PENDING read 1. -/
def Obligations.ControlRegisterCommands : Prop :=
  (∀ (s : State) (t d p : Nat) (on : Bool), (p = pPIPE 0 ∨ p = pPIPE 1 ∨ p = pSWC) →
    s.takes d (p * 4096 + Reg.CTRL) (b2n on + 4 * b2n (s.frozen p)) →
    Completes (.ctrlEnable t d p on) s fun u =>
      u.enabled p = on ∧ (s.enabled p ≠ on → u.flag p Fd.STATUS_ENABLED = on) ∧ u.frozen p = s.frozen p ∧
      RegsKept s u [p * 4096 + Reg.CTRL, p * 4096 + Reg.STATUS] ∧ TablesKept s u ∧ CountsKept s u ∧ BytesKept s u) ∧
  (∀ (s : State) (t d p : Nat) (on : Bool), (p = pPIPE 0 ∨ p = pPIPE 1 ∨ p = pSWC) →
    s.takes d (p * 4096 + Reg.CTRL) (b2n (s.enabled p) + 4 * b2n on) →
    Completes (.ctrlFreeze t d p on) s fun u =>
      u.frozen p = on ∧ (s.frozen p ≠ on → u.flag p Fd.STATUS_FROZEN = on) ∧ u.enabled p = s.enabled p ∧
      RegsKept s u [p * 4096 + Reg.CTRL, p * 4096 + Reg.STATUS] ∧ TablesKept s u ∧ CountsKept s u ∧ BytesKept s u) ∧
  (∀ (s : State) (t d p : Nat) (b : Blk), isControlPage p = true → blkOf p = some b → alwaysEnabled b = false → b ≠ .emc →
    s.takes d (p * 4096 + Reg.CTRL) (s.ctrlNow p + 2) →
    Completes (.softReset t d p) s fun u =>
      u.flag p Fd.CTRL_SOFT_RESET = true ∧ u.flag p Fd.STATUS_RESET_BUSY = true ∧ p ∈ u.resets) ∧
  (∀ (s : State) (t p : Nat), s.live = true → p ∈ s.resets → s.enabled p = false →
    Completes (.softResetDone t p) s fun u =>
      u.flag p Fd.CTRL_SOFT_RESET = false ∧ u.flag p Fd.STATUS_RESET_BUSY = false ∧ p ∉ u.resets ∧
      RegsKept s u [p * 4096 + Reg.CTRL, p * 4096 + Reg.STATUS] ∧ TablesKept s u ∧ CountsKept s u ∧ BytesKept s u) ∧
  (∀ (s : State) (t d p : Nat), (p = pSRT ∨ p = pPIPE 0 ∨ p = pPIPE 1) → s.flag p Fd.STATUS_DRAINING = false →
    s.takes d (p * 4096 + Reg.CTRL) (s.ctrlNow p + 8) →
    Completes (.ctrlCommit t d p) s fun u =>
      (s.flag p Fd.STATUS_COMMIT_PENDING = false → u.flag p Fd.CTRL_COMMIT = true ∧ u.flag p Fd.STATUS_COMMIT_PENDING = true) ∧
      u.enabled p = s.enabled p ∧ u.frozen p = s.frozen p ∧
      RegsKept s u [p * 4096 + Reg.CTRL, p * 4096 + Reg.STATUS] ∧ TablesKept s u ∧ CountsKept s u ∧ BytesKept s u)

/-- BANK_SWITCH at the router page with a commit pending switches the bank, adds 1 to the generation, clears COMMIT and
COMMIT_PENDING and sets DRAINING; at a forwarding database page it clears both and sets DRAINING. DRAIN_DONE clears DRAINING at a
database page, and at a pipeline page when no packet of the previous generation is in flight. -/
def Obligations.BankSwitchAndDrain : Prop :=
  (∀ (s : State) (t : Nat), s.runs? = true → s.flag pSRT Fd.STATUS_COMMIT_PENDING = true →
    Completes (.bankSwitch t pSRT) s fun u =>
      u.flag pSRT Fd.STATUS_COMMIT_PENDING = false ∧ u.flag pSRT Fd.STATUS_DRAINING = true ∧ u.flag pSRT Fd.CTRL_COMMIT = false) ∧
  (∀ (s : State) (t i : Nat), i < 2 → s.runs? = true → s.flag (pFDB i) Fd.STATUS_COMMIT_PENDING = true →
    Completes (.bankSwitch t (pFDB i)) s fun u => u.flag (pFDB i) Fd.STATUS_DRAINING = true) ∧
  (∀ (s : State) (t i : Nat), i < 2 → s.runs? = true → s.flag (pFDB i) Fd.STATUS_DRAINING = true →
    Completes (.drainDone t (pFDB i)) s fun u =>
      u.flag (pFDB i) Fd.STATUS_DRAINING = false ∧ RegsKept s u [pFDB i * 4096 + Reg.STATUS] ∧ TablesKept s u ∧ CountsKept s u ∧
      BytesKept s u) ∧
  (∀ (s : State) (t i : Nat), i < 2 → s.runs? = true → s.flag (pPIPE i) Fd.STATUS_DRAINING = true →
    s.fld (pPIPE i) Fd.PIPE_INFLIGHT_PREV_COUNT = 0 →
    Completes (.drainDone t (pPIPE i)) s fun u =>
      u.flag (pPIPE i) Fd.STATUS_DRAINING = false ∧
      RegsKept s u [pPIPE i * 4096 + Reg.STATUS, pPIPE i * 4096 + Reg.IRQ_STAT] ∧ TablesKept s u ∧ BytesKept s u)

/-- On a page with a header whose owner register is not locked (a KEY control page and an OTP page take secure domains only): CLAIM
of an unowned page makes the claiming domain its owner; TRANSFER by the owner makes the other domain its owner; OWNER_RELEASE by
the owner leaves the page unowned with its interrupt route off; ADOPTION by the domain named in an orphaned page clears
ORPHANED; TAKE_OVER of an orphaned page by another domain of the same world makes it the owner and clears ORPHANED. Each touches
only OWNER and STATUS of the page, and the release IRQ_ROUTE besides. -/
def Obligations.OwnershipMovesAlongTable9 : Prop :=
  (∀ (s : State) (t d p : Nat), d < 6 → hasHeader p = true → s.takes d (p * 4096 + Reg.OWNER) d →
    s.flag p Fd.OWNER_UNOWNED = true → s.flag p Fd.OWNER_LOCKED = false → (securePage p = true → s.secure d = true) →
    Completes (.ownerClaim t d p) s fun u =>
      u.owns d p = true ∧ u.flag p Fd.OWNER_ORPHANED = false ∧ RegsKept s u [p * 4096 + Reg.OWNER, p * 4096 + Reg.STATUS] ∧
      TablesKept s u ∧ CountsKept s u ∧ BytesKept s u) ∧
  (∀ (s : State) (t d p x : Nat), d < 6 → x < 6 → x ≠ d → hasHeader p = true → s.takes d (p * 4096 + Reg.OWNER) x →
    s.owns d p = true → s.flag p Fd.OWNER_ORPHANED = false → s.flag p Fd.OWNER_LOCKED = false →
    (securePage p = true → s.secure x = true) →
    Completes (.ownerTransfer t d p x) s fun u =>
      u.owns x p = true ∧ RegsKept s u [p * 4096 + Reg.OWNER, p * 4096 + Reg.STATUS] ∧
      TablesKept s u ∧ CountsKept s u ∧ BytesKept s u) ∧
  (∀ (s : State) (t d p : Nat), d < 6 → hasHeader p = true → s.takes d (p * 4096 + Reg.OWNER) (8 + d) →
    s.owns d p = true → s.flag p Fd.OWNER_ORPHANED = false → s.flag p Fd.OWNER_LOCKED = false →
    Completes (.ownerRelease t d p) s fun u =>
      u.flag p Fd.OWNER_UNOWNED = true ∧ u.flag p Fd.IRQ_ROUTE_EN = false ∧
      RegsKept s u [p * 4096 + Reg.OWNER, p * 4096 + Reg.IRQ_ROUTE] ∧ TablesKept s u ∧ CountsKept s u ∧ BytesKept s u) ∧
  (∀ (s : State) (t d p : Nat), d < 6 → hasHeader p = true → s.takes d (p * 4096 + Reg.OWNER) (16 + d) →
    s.owns d p = true → s.flag p Fd.OWNER_ORPHANED = true →
    Completes (.ownerAdoption t d p) s fun u =>
      u.flag p Fd.OWNER_ORPHANED = false ∧ u.owns d p = true ∧ RegsKept s u [p * 4096 + Reg.OWNER, p * 4096 + Reg.STATUS] ∧
      TablesKept s u ∧ CountsKept s u ∧ BytesKept s u) ∧
  (∀ (s : State) (t d p : Nat), d < 6 → hasHeader p = true → s.takes d (p * 4096 + Reg.OWNER) d →
    s.flag p Fd.OWNER_UNOWNED = false → s.flag p Fd.OWNER_ORPHANED = true → s.flag p Fd.OWNER_LOCKED = false →
    s.fld p Fd.OWNER_DOMAIN ≠ d → s.secure d = s.secure (s.fld p Fd.OWNER_DOMAIN) →
    Completes (.takeOver t d p) s fun u =>
      u.owns d p = true ∧ u.flag p Fd.OWNER_ORPHANED = false ∧ RegsKept s u [p * 4096 + Reg.OWNER, p * 4096 + Reg.STATUS] ∧
      TablesKept s u ∧ CountsKept s u ∧ BytesKept s u)

/-- SNAP by a write that passes the checks, with no snapshot in progress: BUSY reads 1, the stamp registers hold the stamp of
the copy, and the copy of every counter of the page is its live count, which goes on from where it was. CNT_CLEAR returns
every live count of the page to 0 and no other page's; with SNAP it copies them first. SNAPSHOT_DONE clears BUSY. -/
def Obligations.CounterSnapshotAndClear : Prop :=
  (∀ (s : State) (t d p : Nat), s.takes d (p * 4096 + Reg.CNT_CTRL) 1 → s.flag p Fd.CNT_BUSY = false →
    Completes (.snap t d p) s fun u =>
      u.flag p Fd.CNT_BUSY = true ∧ u.rd64 p Reg.CNT_STAMP_LO = (s.advance t).now ∧ p ∈ u.snaps ∧ CountsKept s u ∧
      (∀ off, off < 4096 → smGet 0 (p * 4096 + off) u.snap = smGet 0 (p * 4096 + off) s.cnt) ∧
      TablesKept s u ∧ BytesKept s u ∧
      RegsKept s u [p * 4096 + Reg.CNT_CTRL, p * 4096 + Reg.CNT_STAMP_LO, p * 4096 + Reg.CNT_STAMP_HI]) ∧
  (∀ (s : State) (t d p : Nat) (snap : Bool), s.takes d (p * 4096 + Reg.CNT_CTRL) (2 + b2n snap) →
    s.flag p Fd.CNT_BUSY = false →
    Completes (.cntClear t d p snap) s fun u =>
      (∀ off, off < 4096 → u.count p off = 0) ∧ (∀ q off, off < 4096 → q ≠ p → u.count q off = s.count q off) ∧
      u.flag p Fd.CNT_BUSY = snap ∧ TablesKept s u ∧ BytesKept s u) ∧
  (∀ (s : State) (t p : Nat), s.live = true →
    Completes (.snapshotDone t p) s fun u =>
      u.flag p Fd.CNT_BUSY = false ∧ RegsKept s u [p * 4096 + Reg.CNT_CTRL] ∧ CountsKept s u ∧ TablesKept s u ∧ BytesKept s u)

/-! ### The indirect table window -/

/-- By a command word that the window takes. READ of an entry that holds no key material leaves the entry in DATA0 to DATA7 and runs
to end with success; with an uncorrectable error DATA0 to DATA7 are 0 and it runs to end with WIN_ECC. READ_CLR of a queue counter
entry of the switch core leaves the entry in DATA0 to DATA7 and only bits [127:0] of it in the table. KEY_MATERIAL_READ of a
staging entry of a KEY page leaves 0 in DATA0 to DATA7, and REG_KEY_READ latched by the reading domain where no error was latched.
Reads touch no register outside the window and the error registers, no table but the counters READ_CLR clears, and no memory. -/
def Obligations.WindowReads : Prop :=
  (∀ (s : State) (t d p : Nat), s.commands d p 1 → blkOf p ≠ some .egr → blkOf p ≠ some .otp →
    winSecret p (s.winTab p) (s.winIdx p) = false →
    Completes (.winRead t d p false false) s fun u =>
      WinRuns u d p 0 ∧ DataHolds u p (s.winEntry p (s.winTab p) (s.winBank p (s.winTab p)) (s.winIdx p) false) ∧
      RegsKept s u (winRegs p) ∧ TablesKept s u ∧ CountsKept s u ∧ BytesKept s u) ∧
  (∀ (s : State) (t d p : Nat), s.commands d p 1 →
    Completes (.winRead t d p true false) s fun u =>
      WinRuns u d p Er.WIN_ECC ∧ DataHolds u p 0 ∧ RegsKept s u (winRegs p) ∧ TablesKept s u ∧ CountsKept s u ∧ BytesKept s u) ∧
  (∀ (s : State) (t d : Nat), s.commands d pSWC 8 →
    Completes (.readClr t d pSWC false) s fun u =>
      WinRuns u d pSWC 0 ∧ DataHolds u pSWC (s.ent pSWC (s.winTab pSWC) 0 (s.winIdx pSWC)) ∧
      u.ent pSWC (s.winTab pSWC) 0 (s.winIdx pSWC)
        = s.ent pSWC (s.winTab pSWC) 0 (s.winIdx pSWC) &&& BitVec.ofNat 256 (2 ^ 128 - 1) ∧
      RegsKept s u (winRegs pSWC) ∧ CountsKept s u ∧ BytesKept s u) ∧
  (∀ (s : State) (t d k : Nat), k < 4 → s.winTab (pKEY k) = 1 → s.commands d (pKEY k) 1 →
    s.flag (pKEY k) Fd.ERR_VALID = false →
    Completes (.keyMaterialRead t d (pKEY k)) s fun u =>
      WinRuns u d (pKEY k) 0 ∧ DataHolds u (pKEY k) 0 ∧ u.fld (pKEY k) Fd.ERR_CODE = Er.REG_KEY_READ ∧
      u.fld (pKEY k) Fd.ERR_SRC_DOMAIN = d % 8 ∧ RegsKept s u (winRegs (pKEY k) ++ errRegs (pKEY k)) ∧
      TablesKept s u ∧ BytesKept s u)

/-- By a command word that the window takes, on the pipeline's tables. WRITE of an entry that passes its check leaves the merge of
the old entry and DATA0 to DATA7 (RW bits from the data) at that entry of the selected bank and every other entry as it was.
INVALIDATE clears exactly the valid bit. FILL of the classification keys leaves the merge at COUNT entries from INDEX (0 acts as 1).
COPY leaves in the standby bank the writable bits of COUNT entries of the active bank. All of them run to end with success and
touch no register but the command status. -/
def Obligations.WindowWrites : Prop :=
  (∀ (s : State) (t d i : Nat), i < 2 → s.commands d (pPIPE i) 2 → 1 ≤ s.winTab (pPIPE i) → s.winTab (pPIPE i) ≤ 5 →
    pipeCheck (s.winTab (pPIPE i)) (s.winData (pPIPE i)) = none →
    Completes (.winWrite t d (pPIPE i) false) s fun u =>
      let p := pPIPE i; let tab := s.winTab p; let bank := s.winBank p tab; let idx := s.winIdx p
      WinRuns u d p 0 ∧ u.ent p tab bank idx = merged p tab (s.ent p tab bank idx) (s.winData p) ∧
      (∀ q tab' bank' idx', tkey q tab' bank' idx' ≠ tkey p tab bank idx → u.ent q tab' bank' idx' = s.ent q tab' bank' idx') ∧
      RegsKept s u [p * 4096 + Reg.WIN_CMD_STATUS] ∧ CountsKept s u ∧ BytesKept s u) ∧
  (∀ (s : State) (t d i : Nat), i < 2 → s.commands d (pPIPE i) 3 →
    Completes (.winInvalidate t d (pPIPE i)) s fun u =>
      let p := pPIPE i; let tab := s.winTab p; let bank := s.winBank p tab; let idx := s.winIdx p
      WinRuns u d p 0 ∧ u.ent p tab bank idx = s.ent p tab bank idx &&& ~~~(1#256) ∧
      (∀ q tab' bank' idx', tkey q tab' bank' idx' ≠ tkey p tab bank idx → u.ent q tab' bank' idx' = s.ent q tab' bank' idx') ∧
      RegsKept s u [p * 4096 + Reg.WIN_CMD_STATUS] ∧ CountsKept s u ∧ BytesKept s u) ∧
  (∀ (s : State) (t d i cnt : Nat), i < 2 → cnt < 65536 → s.commands d (pPIPE i) (cnt * 65536 + 4) → s.winTab (pPIPE i) = 2 →
    s.winIdx (pPIPE i) + max cnt 1 ≤ 2 ^ 24 →
    Completes (.winFill t d (pPIPE i) cnt false) s fun u =>
      let p := pPIPE i; let bank := s.winBank p 2
      WinRuns u d p 0 ∧
      (∀ k, k < max cnt 1 → u.ent p 2 bank (s.winIdx p + k) = merged p 2 (s.ent p 2 bank (s.winIdx p + k)) (s.winData p)) ∧
      RegsKept s u [p * 4096 + Reg.WIN_CMD_STATUS] ∧ CountsKept s u ∧ BytesKept s u) ∧
  (∀ (s : State) (t d i cnt : Nat), i < 2 → cnt < 65536 → s.commands d (pPIPE i) (cnt * 65536 + 5) →
    s.winIdx (pPIPE i) + max cnt 1 ≤ 2 ^ 24 → s.bankOf (pPIPE i) ≤ 1 →
    Completes (.winCopy t d (pPIPE i) cnt) s fun u =>
      let p := pPIPE i; let tab := s.winTab p; let b := s.bankOf p
      WinRuns u d p 0 ∧
      (∀ k, k < max cnt 1 →
        u.ent p tab (1 - b) (s.winIdx p + k) = s.ent p tab b (s.winIdx p + k) &&& BitVec.ofNat 256 (entryRw p tab)) ∧
      RegsKept s u [p * 4096 + Reg.WIN_CMD_STATUS] ∧ CountsKept s u ∧ BytesKept s u)

/-- WIN_CMD_DONE on a page on which a command runs (no rebuild running there): BUSY clears, DONE says whether it ended with success
and ERROR that it did not, no command runs on the page any more, and the entries stay as they are. After a success no other
register changes. -/
def Obligations.WindowCommandDone : Prop :=
  ∀ (s : State) (t p : Nat) (r : WinRun), s.live = true → blkOf p ≠ some .fdb →
    s.wins.find? (fun x => x.page = p) = some r →
    Completes (.winCmdDone t p) s fun u =>
      u.flag p Fd.WIN_BUSY = false ∧ (u.flag p Fd.WIN_DONE = true ↔ r.err = 0) ∧ (u.flag p Fd.WIN_ERROR = true ↔ r.err ≠ 0) ∧
      (∀ x ∈ u.wins, x.page ≠ p) ∧ TablesKept s u ∧ BytesKept s u ∧
      (r.err = 0 → RegsKept s u [p * 4096 + Reg.WIN_CMD_STATUS] ∧ CountsKept s u)

/-! ### The time base -/

/-- FRC_HANDOVER_ENTRY, when the handover is requested and the FRC is not in a coarse interval, starts one and saves the views;
FRC_HANDOVER_EXIT of a started logic die that is not in Comma and no Period entry ends it and withdraws the request. FRC_REALIGN
outside a coarse interval records its stamp. FRC_READ answers the low word of stamp64 and latches the high word and the fraction
of the same cycle. TIME_SNAP with GO = 1 latches the FRC, and every view that has no value reads 0. -/
def Obligations.FrcHandoverAndReading : Prop :=
  (∀ (s : State) (t : Nat), s.time.handover = true → s.coarse = false → s.boot ≠ .off →
    Completes (.frcHandoverEntry t) s fun u => u.coarse = true ∧ u.time.saved.isSome = true) ∧
  (∀ (s : State) (t : Nat), s.coarse = true → s.boot ≠ .off → s.pwr ≠ .comma → s.pwr ≠ .periodPending →
    Completes (.frcHandoverExit t) s fun u => u.coarse = false ∧ u.time.handover = false) ∧
  (∀ (s : State) (t : Nat), s.boot = .ready → s.coarse = false →
    Completes (.frcRealign t) s fun u =>
      u.time.aligned = (s.advance t).now ∧ RegsKept s u [] ∧ TablesKept s u ∧ CountsKept s u ∧ BytesKept s u) ∧
  (∀ (s : State) (t d : Nat), s.live = true →
    Completes (.frcRead t d) s fun u =>
      u.out = s.out ++ [.read d (pTIME * 4096 + Reg.TIME_FRC_LO) ((s.advance t).now % 2 ^ 32)] ∧
      u.rd pTIME Reg.TIME_FRC_HI = (s.advance t).now / 2 ^ 32 ∧ u.rd pTIME Reg.TIME_FRC_FRAC = (s.advance t).nowFrac ∧
      RegsKept s u [pTIME * 4096 + Reg.TIME_FRC_HI, pTIME * 4096 + Reg.TIME_FRC_FRAC] ∧ TablesKept s u ∧ CountsKept s u ∧
      BytesKept s u) ∧
  (∀ (s : State) (t d w : Nat), w % 2 = 1 → s.takes d (pTIME * 4096 + Reg.TIME_SNAP_CTRL) w →
    Completes (.timeSnap t d w) s fun u =>
      u.rd64 pTIME Reg.TIME_SNAP_FRC_LO = (s.advance t).frc / 65536 % 2 ^ 64 ∧
      u.rd pTIME (Reg.TIME_SNAP_FRC_LO + 8) = (s.advance t).nowFrac ∧
      (∀ v, v < 8 → s.viewAt v (s.advance t).frc = none → u.rd64 pTIME (Reg.TIME_VIEW_SNAP_LO + 0x40 * v) = 0) ∧
      TablesKept s u ∧ CountsKept s u ∧ BytesKept s u)

/-- For a view 1 to 7, by a write that passes the checks. VIEW_ENABLE of a disabled view with a slew limit that is not 0, as a free
view, starts a chain of one piece equal to V0; VIEW_DISABLE of an enabled view bound by no gate list leaves no chain. ARM of a view
never armed since its enabling arms it; REARM with the key, of a view that is not armed, arms it. STEP of an armed free view whose
result stays in range adds a piece at the current cycle with the value raised by DELTA and the rate kept, and disarms; UPDATE
within the rate limit and the jump threshold adds a piece that goes on from the current value with the requested rate, moved by at
most SLEW. -/
def Obligations.ViewCommands : Prop :=
  (∀ (s : State) (t d v w : Nat), 1 ≤ v → v < 8 → s.viewOn v = false → w % 4 = 1 → w / 65536 % 65536 ≠ 0 →
    s.takes d (viewAddr Reg.TIME_VIEW_CFG v) w →
    Completes (.viewEnable t d v w) s fun u =>
      u.viewOn v = true ∧ (u.view v).pieces = [⟨(s.advance t).frc, (s.advance t).frc, 0, false⟩] ∧ (u.view v).everArmed = false) ∧
  (∀ (s : State) (t d v w : Nat), 1 ≤ v → v < 8 → s.viewOn v = true → w % 4 = 0 → w < 2 ^ 32 → w / 65536 % 65536 ≠ 0 →
    (∀ p, p < 32 → s.gclBound p v = false) →
    s.takes d (viewAddr Reg.TIME_VIEW_CFG v) w →
    Completes (.viewDisable t d v w) s fun u => u.viewOn v = false ∧ (u.view v).pieces = [] ∧ u.viewNow v = 0) ∧
  (∀ (s : State) (t d v : Nat), 1 ≤ v → v < 8 → s.viewOn v = true → s.flag pTIME (vFld Fd.TIME_VIEW_STATE_ARMED v) = false →
    (s.view v).everArmed = false → s.takes d (viewAddr Reg.TIME_VIEW_CMD v) 1 →
    Completes (.viewArm t d v) s fun u =>
      u.flag pTIME (vFld Fd.TIME_VIEW_STATE_ARMED v) = true ∧ u.flag pTIME (vFld Fd.TIME_VIEW_STATE_STEPPED v) = false ∧
      (u.view v).everArmed = true ∧ (u.view v).pieces = (s.view v).pieces) ∧
  (∀ (s : State) (t d w : Nat), w % 8 ≠ 0 → w / 65536 = 0x7A3E → s.viewOn (w % 8) = true →
    s.flag pTIME (vFld Fd.TIME_VIEW_STATE_ARMED (w % 8)) = false →
    (s.flag pTIME Fd.TIME_CFG_REARM_SECURE = true → s.secure d = true) → s.takes d (pTIME * 4096 + Reg.TIME_REARM) w →
    Completes (.viewRearm t d w) s fun u =>
      u.flag pTIME (vFld Fd.TIME_VIEW_STATE_ARMED (w % 8)) = true ∧ (u.view (w % 8)).keyed = true ∧
      (u.view (w % 8)).pieces = (s.view (w % 8)).pieces) ∧
  (∀ (s : State) (t d v : Nat), 1 ≤ v → v < 8 → s.viewOn v = true → s.flag pTIME (vFld Fd.TIME_VIEW_CFG_SOURCE v) = false →
    (s.advance t).viewStepOk v (s.viewDelta v) = true → (∀ p, p < 32 → s.gclBound p v = false) →
    s.takes d (viewAddr Reg.TIME_VIEW_CMD v) 2 →
    Completes (.viewStep t d v) s fun u =>
      (u.view v).pieces = ⟨(s.advance t).frc, ((s.advance t).viewBase v + s.viewDelta v).toNat, s.viewRate v, true⟩
        :: (s.view v).pieces ∧
      u.flag pTIME (vFld Fd.TIME_VIEW_STATE_ARMED v) = false ∧ u.flag pTIME (vFld Fd.TIME_VIEW_STATE_STEPPED v) = true ∧
      u.flag pTIME (vFld Fd.TIME_VIEW_STATE_HOLDOVER v) = false) ∧
  (∀ (s : State) (t d v : Nat), 1 ≤ v → v < 8 → s.viewOn v = true → s.flag pTIME (vFld Fd.TIME_VIEW_CFG_SOURCE v) = false →
    rateOk (s.viewReq v) = true →
    ((s.viewDelta v).natAbs ≤ s.rd pTIME (Reg.TIME_VIEW_JUMP_THR + 0x40 * v) * 65536 ∨
      s.rd pTIME (Reg.TIME_VIEW_JUMP_THR + 0x40 * v) = 0) →
    s.takes d (viewAddr Reg.TIME_VIEW_CMD v) 3 →
    Completes (.viewUpdate t d v) s fun u =>
      let lim : Int := s.fld pTIME (vFld Fd.TIME_VIEW_CFG_SLEW v) * 65536
      (u.view v).pieces = ⟨(s.advance t).frc, (s.advance t).viewBase v,
        min (max (s.viewReq v) (s.viewRate v - lim)) (s.viewRate v + lim), false⟩ :: (s.view v).pieces)

/-- Under the states and deadlines its rule names, each command of the time chapter's engines does this. JOURNAL_COPY moves the copy
pointer on by one entry. SYNC_RECEIVE before the receipt deadline, for an instance whose view is not driven by it, takes the ingress
as the last Sync, clears SYNC_TIMEOUT and counts it. SYNC_RELAY sends the relayed Sync and counts it; FOLLOW_UP_RELAY sends
its Follow_Up and forgets it. SYNC_ORIGINATE of a grandmaster that is due takes the next sequence number. GPTP_SYNC_TIMEOUT sets
SYNC_TIMEOUT and drops the relays. PDELAY_REQUEST records the egress; PDELAY_RESPONSE within the threshold makes the port
asCapable; PDELAY_REQ_RECEIVED answers with the receipt and the egress stamp. CTM_ENQUEUE of a due message moves to the next one. -/
def Obligations.TimeEngines : Prop :=
  (∀ (s : State) (t : Nat), s.runs? = true → s.time.wait ≠ 0 → s.flag pTIME Fd.TIME_CFG_JNL_COPY = true → s.enabled pTRN = true →
    Completes (.journalCopy t) s fun u =>
      u.fld pTIME Fd.TIME_JNL_COPY_NEXT = (s.fld pTIME Fd.TIME_JNL_COPY_NEXT + 1) % 1024) ∧
  (∀ (s : State) (t domain port i : Nat) (m : SyncMsg), s.runs? = true → port < 24 → s.gptpOf domain port = some i →
    s.flag pTIME (vFld Fd.TIME_VIEW_CFG_SOURCE (i + 1)) = false →
    (∀ D, s.syncDeadline i = some D → m.ingress / 65536 ≤ D) → s.giF i Fd.GPTP_INST_STATE_SYNC_TIMEOUT = 0 →
    Completes (.syncReceive t domain port m) s fun u =>
      (u.ginst i).last = some m.ingress ∧ u.giF i Fd.GPTP_INST_STATE_SYNC_TIMEOUT = 0 ∧
      u.count pGPTP (Cn.GPTP_SYNC_RX + 8 * i) = (s.count pGPTP (Cn.GPTP_SYNC_RX + 8 * i) + 1) % 2 ^ 64) ∧
  (∀ (s : State) (t i port : Nat) (r : Relay), s.runs? = true → s.gActive i = true →
    (s.ginst i).relays.find? (fun r => r.port = port && r.egress.isNone) = some r →
    Completes (.syncRelay t i port) s fun u =>
      u.out = s.out ++ [.sent "gptp sync" [i, port, r.seq]] ∧
      u.count pGPTP (Cn.GPTP_SYNC_TX + 8 * i) = (s.count pGPTP (Cn.GPTP_SYNC_TX + 8 * i) + 1) % 2 ^ 64 ∧
      (∃ x ∈ (u.ginst i).relays, x.egress = some (s.advance t).frc) ∧ RegsKept s u [] ∧ TablesKept s u ∧ BytesKept s u) ∧
  (∀ (s : State) (t i port : Nat) (r : Relay), s.runs? = true → s.gActive i = true →
    (s.ginst i).relays.find? (fun r => r.port = port && r.egress.isSome) = some r →
    Completes (.followUpRelay t i port) s fun u =>
      (∃ x, u.out = s.out ++ [.sent "gptp follow_up" ([i, port, r.seq, r.origin] ++ x)]) ∧ r ∉ (u.ginst i).relays ∧
      RegsKept s u [] ∧ TablesKept s u ∧ CountsKept s u ∧ BytesKept s u) ∧
  (∀ (s : State) (t i : Nat), s.runs? = true → s.gActive i = true → s.giF i Fd.GPTP_INST_CFG_GM ≠ 0 →
    (∀ l, (s.ginst i).lastOrig = some l → l + s.syncInterval i ≤ (s.advance t).now) →
    Completes (.syncOriginate t i) s fun u =>
      (u.ginst i).seq = ((s.ginst i).seq + 1) % 65536 ∧ (u.ginst i).lastOrig = some (s.advance t).now ∧
      (u.ginst i).relays.map (·.port) = s.masterPorts i ∧ RegsKept s u [] ∧ TablesKept s u ∧ BytesKept s u) ∧
  (∀ (s : State) (t i D : Nat), s.runs? = true → s.gActive i = true → s.giF i Fd.GPTP_INST_STATE_SYNC_TIMEOUT = 0 →
    s.syncDeadline i = some D → D + 4000 ≤ (s.advance t).now →
    Completes (.gptpSyncTimeout t i) s fun u =>
      u.giF i Fd.GPTP_INST_STATE_SYNC_TIMEOUT = 1 ∧ (u.ginst i).relays = []) ∧
  (∀ (s : State) (t port : Nat), s.runs? = true → s.pdOn port = true → (s.pdPort port).req = none →
    Completes (.pdelayRequest t port) s fun u =>
      (u.pdPort port).req = some (s.advance t).frc ∧ u.out = s.out ++ [.sent "gptp pdelay_req" [port]] ∧
      RegsKept s u [] ∧ TablesKept s u ∧ CountsKept s u ∧ BytesKept s u) ∧
  (∀ (s : State) (t port t1 : Nat) (r : PdelayResp), s.runs? = true → s.pdOn port = true → (s.pdPort port).req = some t1 →
    (s.pdPort port).prev = none → s.gpF port En.GPORT_NRR = 0 →
    Int.fdiv ((r.t4 : Int) - t1 - ((r.t3 : Int) - r.t2)) 2 ≤ s.gpF port En.GPORT_DELAY_THRESH * 65536 →
    Completes (.pdelayResponse t port (some r)) s fun u =>
      u.gpF port En.GPORT_AS_CAPABLE = 1 ∧ (u.pdPort port).req = none ∧ (u.pdPort port).lost = 0 ∧
      (u.pdPort port).prev = some (r.t3, r.t4) ∧ RegsKept s u [] ∧ CountsKept s u ∧ BytesKept s u) ∧
  (∀ (s : State) (t port seq ingress : Nat), s.runs? = true → s.pdOn port = true →
    Completes (.pdelayReqReceived t port seq ingress) s fun u =>
      u.out = s.out ++ [.sent "gptp pdelay_resp" [port, seq, ingress],
        .sent "gptp pdelay_resp_follow_up" [port, seq, (s.advance t).frc]] ∧
      RegsKept s u [] ∧ TablesKept s u ∧ CountsKept s u ∧ BytesKept s u) ∧
  (∀ (s : State) (t m : Nat), s.runs? = true → m < 4 → s.flag pTIME (ctmFld Fd.TIME_CTM_CFG_ENABLE m) = true →
    (s.ctm m).f0 + (s.ctm m).k * (s.rd pTIME (Reg.TIME_CTM_PERIOD + 0x10 * m) * 1000) ≤ (s.advance t).now →
    s.rtqRefuses (s.fld pTIME (ctmFld Fd.TIME_CTM_CFG_CHANNEL m)) = false →
    s.flag pTIME (ctmFld Fd.TIME_CTM_STATUS_PENDING m) = false →
    s.canMode (s.fld pTIME (ctmFld Fd.TIME_CTM_CFG_CHANNEL m)) ≠ 3 →
    Completes (.ctmEnqueue t m) s fun u =>
      (u.ctm m).k = (s.ctm m).k + 1 ∧ u.flag pTIME (ctmFld Fd.TIME_CTM_STATUS_PENDING m) = true ∧
      (u.ctm m).prevOk = false)
/-! ### The CAN controllers -/

/-- On a channel below 24. CANC_MODE_REQ by an accepted write from STOP, with the timing and object checks passing and no keep-alive
hold, stores the request and starts INTEGRATING; INTEGRATION_DONE of a channel that is not frozen enters the wanted mode;
MODE_CHANGE_AT_IDLE with a changed request, no frame in flight, no freeze and no Comma enters the wanted mode (wanted modes other
than ARD, whose entry starts a search). RECOVER in BUS_OFF starts RECOVERING; BUS_ON ends it with both counters 0 and the channel
error-active. ARD_DWELL_EXPIRY after the dwell moves to the next usable candidate; ARD_LOCK after MATCH frames loads the candidate's
timing, sets LOCKED and integrates again. -/
def Obligations.CanModeChanges : Prop :=
  (∀ (s : State) (t d n v : Nat), n < 24 → s.takes d (pCANC n * 4096 + Reg.CANC_MODE) v → s.canMode n = 0 →
    v % 16 ≠ 0 → v % 16 ≤ 6 → v / 4096 % 2 = 0 → s.flag (pCANC n) Fd.CANC_MODE_NM_HELD = false → s.canReqCheck n = none →
    Completes (.cancModeReq t d n v) s fun u =>
      u.canMode n = 8 ∧ u.fld (pCANC n) Fd.CANC_MODE_REQ = v % 16 ∧ RegsKept s u [pCANC n * 4096 + Reg.CANC_MODE] ∧
      TablesKept s u ∧ CountsKept s u ∧ BytesKept s u ∧ QueuesKept s u) ∧
  (∀ (s : State) (t d n v : Nat), n < 24 → s.takes d (pCANC n * 4096 + Reg.CANC_MODE) (v ||| 4096) → s.canMode n = 9 → v % 16 ≤ 6 →
    Completes (.recover t d n v) s fun u =>
      u.canMode n = 10 ∧ u.fld (pCANC n) Fd.CANC_ERR_STATE = 3 ∧ u.fld (pCANC n) Fd.CANC_MODE_REQ = v % 16 ∧
      RegsKept s u [pCANC n * 4096 + Reg.CANC_MODE, pCANC n * 4096 + Reg.CANC_ERR] ∧
      TablesKept s u ∧ CountsKept s u ∧ BytesKept s u ∧ QueuesKept s u) ∧
  (∀ (s : State) (t n : Nat), n < 24 → s.canClocked n = true → s.canMode n = 8 → s.frozen (pCANC n) = false → s.canWants n ≠ 6 →
    Completes (.integrationDone t n) s fun u =>
      u.canMode n = s.canWants n ∧ RegsKept s u [pCANC n * 4096 + Reg.CANC_MODE] ∧
      TablesKept s u ∧ CountsKept s u ∧ BytesKept s u ∧ QueuesKept s u) ∧
  (∀ (s : State) (t n : Nat), n < 24 → s.canClocked n = true → canOnBus (s.canMode n) = true → s.canMode n ≠ 8 →
    (s.can n).attempt = none → (s.can n).comma = false → s.frozen (pCANC n) = false → s.canWants n ≠ s.canMode n →
    s.canWants n ≠ 6 →
    Completes (.modeChangeAtIdle t n) s fun u =>
      u.canMode n = s.canWants n ∧ RegsKept s u [pCANC n * 4096 + Reg.CANC_MODE] ∧
      TablesKept s u ∧ CountsKept s u ∧ BytesKept s u ∧ QueuesKept s u) ∧
  (∀ (s : State) (t n : Nat), n < 24 → s.canClocked n = true → s.canMode n = 10 → s.canWants n ≠ 6 →
    Completes (.busOn t n) s fun u =>
      u.canMode n = s.canWants n ∧ u.fld (pCANC n) Fd.CANC_ERR_TEC = 0 ∧ u.fld (pCANC n) Fd.CANC_ERR_REC = 0 ∧
      u.fld (pCANC n) Fd.CANC_ERR_STATE = 0 ∧ TablesKept s u ∧ BytesKept s u) ∧
  (∀ (s : State) (t n k : Nat), n < 24 → s.canClocked n = true → s.canMode n = 6 →
    (s.can n).ardFrom + s.fld (pCANC n) Fd.CANC_ARD_CFG_DWELL_MS * 1000000 ≤ (s.advance t).now →
    (List.range 8).find? (fun k => s.fld (pCANC n) Fd.CANC_ARD_STATUS_INDEX + 1 ≤ k &&
      (k ≤ s.fld (pCANC n) Fd.CANC_ARD_CFG_LAST && s.ardOk n k)) = some k →
    Completes (.ardDwellExpiry t n) s fun u =>
      u.fld (pCANC n) Fd.CANC_ARD_STATUS_INDEX = k ∧ u.canMode n = 6 ∧ (u.can n).ardMatch = 0 ∧
      (u.can n).ardFrom = (s.advance t).now ∧ RegsKept s u [pCANC n * 4096 + Reg.CANC_ARD_STATUS] ∧
      TablesKept s u ∧ CountsKept s u ∧ BytesKept s u ∧ QueuesKept s u) ∧
  (∀ (s : State) (t n : Nat), n < 24 → s.canClocked n = true → s.canMode n = 6 →
    s.fld (pCANC n) Fd.CANC_ARD_CFG_MATCH ≤ (s.can n).ardMatch →
    Completes (.ardLock t n) s fun u =>
      let e := s.ent (pCANC n) 4 0 (s.fld (pCANC n) Fd.CANC_ARD_STATUS_INDEX)
      u.canMode n = 8 ∧ u.flag (pCANC n) Fd.CANC_ARD_STATUS_LOCKED = true ∧ u.rd (pCANC n) Reg.CANC_NBTIM = bitsOf e 1 32 ∧
      u.rd (pCANC n) Reg.CANC_DBTIM = bitsOf e 33 32 ∧ TablesKept s u ∧ BytesKept s u)

/-- On a channel below 24 whose engine is clocked. CAN_FRAME_RECEIVED of an enabled format in a receiving mode, where the router, the
tap and the keep-alive engine take nothing, counts RX_OK and leaves a frame that matches an object in it: NEW, the length and
both stamps (less 12 ns on channels 0 to 15). An unmatched frame with RXQ_UNMATCHED = 0 is counted in UNMATCHED. PROTOCOL_EXCEPTION
with PEX = 1 and a format disabled counts PEX and integrates again. CAN_ERROR_DETECTED in a mode that keeps no error counters records
LEC and counts the kind alone; in NORMAL, below every limit and with no frame on the way, it adds to TEC and REC. -/
def Obligations.CanReceptionAndErrors : Prop :=
  (∀ (s : State) (t n i : Nat) (f : CanFrame) (sof eof : Nat), n < 24 → s.canClocked n = true → s.boot = .ready →
    s.canFmtOn n f.fmt = true → (s.canMode n = 1 ∨ s.canMode n = 2 ∨ s.canMode n = 4 ∨ s.canMode n = 5) →
    s.fld (pCANC n) Fd.CANC_ERR_REC = 0 → s.flag (pCANC n) Fd.CANC_CFG_TO_ROUTER = false →
    (s.fld pTRN Fd.TRN_TAP_CAN_RX).testBit n = false → s.nmUp = false → sof < 2 ^ 64 → eof < 2 ^ 64 →
    ¬ (f.fmt = 4 ∧ 64 < f.len) → s.canMatchObj n f = some i →
    Completes (.canFrameReceived t n f sof eof) s fun u =>
      let e := u.canObj (s.fld (pCANC n) Fd.CANC_OBJ_RANGE_BASE + i)
      fget e En.OBJ_NEW = 1 ∧ fget e En.OBJ_LENGTH = f.len % 2 ^ En.OBJ_LENGTH.w ∧ fget e En.OBJ_SOF_STAMP = canStamp n sof ∧
      fget e En.OBJ_EOF_STAMP = canStamp n eof ∧
      u.count (pCANC n) Cn.CANC_RX_OK = (s.count (pCANC n) Cn.CANC_RX_OK + 1) % 2 ^ 64 ∧ BytesKept s u ∧ QueuesKept s u) ∧
  (∀ (s : State) (t n : Nat) (f : CanFrame) (sof eof : Nat), n < 24 → s.canClocked n = true → s.boot = .ready →
    s.canFmtOn n f.fmt = true → (s.canMode n = 1 ∨ s.canMode n = 2 ∨ s.canMode n = 4 ∨ s.canMode n = 5) →
    s.fld (pCANC n) Fd.CANC_ERR_REC = 0 → s.flag (pCANC n) Fd.CANC_CFG_TO_ROUTER = false →
    (s.fld pTRN Fd.TRN_TAP_CAN_RX).testBit n = false → s.nmUp = false →
    ¬ (f.fmt = 4 ∧ 64 < f.len) → s.canMatchObj n f = none → s.flag (pCANC n) Fd.CANC_CFG_RXQ_UNMATCHED = false →
    Completes (.canFrameReceived t n f sof eof) s fun u =>
      u.count (pCANC n) Cn.CANC_RX_OK = (s.count (pCANC n) Cn.CANC_RX_OK + 1) % 2 ^ 64 ∧
      u.count (pCANC n) Cn.CANC_UNMATCHED = (s.count (pCANC n) Cn.CANC_UNMATCHED + 1) % 2 ^ 64 ∧
      RegsKept s u [] ∧ TablesKept s u ∧ BytesKept s u ∧ QueuesKept s u) ∧
  (∀ (s : State) (t n : Nat), n < 24 → s.canClocked n = true → s.flag (pCANC n) Fd.CANC_CFG_PEX = true →
    (s.flag (pCANC n) Fd.CANC_CFG_FD_EN = false ∨ s.flag (pCANC n) Fd.CANC_CFG_XL_EN = false) →
    canOnBus (s.canMode n) = true → s.canMode n ≠ 8 →
    Completes (.protocolException t n) s fun u => u.canMode n = 8 ∧ TablesKept s u ∧ BytesKept s u) ∧
  (∀ (s : State) (t n : Nat) (e : CanFault), n < 24 → s.canClocked n = true →
    (s.canMode n = 2 ∨ s.canMode n = 3 ∨ s.canMode n = 4) → (s.can n).attempt = none →
    Completes (.canErrorDetected t n e) s fun u =>
      u.fld (pCANC n) Fd.CANC_ERR_LEC = canLec e.kind ∧
      u.count (pCANC n) (canErrCnt e.kind) = (s.count (pCANC n) (canErrCnt e.kind) + 1) % 2 ^ 64 ∧
      RegsKept s u [pCANC n * 4096 + Reg.CANC_ERR] ∧ TablesKept s u ∧ BytesKept s u ∧ QueuesKept s u) ∧
  (∀ (s : State) (t n : Nat) (e : CanFault), n < 24 → s.canClocked n = true → s.canMode n = 1 → (s.can n).attempt = none →
    s.fld (pCANC n) Fd.CANC_ERR_STATE = 0 → s.fld (pCANC n) Fd.CANC_ERR_TEC + e.tecInc < 128 →
    s.fld (pCANC n) Fd.CANC_ERR_REC + e.recInc < 128 →
    Completes (.canErrorDetected t n e) s fun u =>
      u.fld (pCANC n) Fd.CANC_ERR_LEC = canLec e.kind ∧
      u.fld (pCANC n) Fd.CANC_ERR_TEC = s.fld (pCANC n) Fd.CANC_ERR_TEC + e.tecInc ∧
      u.fld (pCANC n) Fd.CANC_ERR_REC = s.fld (pCANC n) Fd.CANC_ERR_REC + e.recInc ∧
      u.fld (pCANC n) Fd.CANC_ERR_STATE = 0 ∧ TablesKept s u ∧ BytesKept s u)

/-- On a channel below 24. CAN_TXB_REQ of one buffer whose check passes makes it PENDING with the enqueue stamp; CAN_TXB_CANCEL of a
PENDING buffer makes it CANCELLED. RTQ_ENTRY that is not refused appends to the router queue. TX_ARBITRATION selects what the rule
chooses (phase 0), records the won arbitration (phase 1), and gives a lost router frame back to selection and counts it (phase 2).
CAN_TX_SUCCESS of a host buffer with no cancel pending, where neither echo, tap nor keep-alive takes part, makes it SENT,
counts TX_OK and sends the frame out. CAN_DOMINANT_TIMEOUT releases an in-package channel; DRIVER_THERMAL_SHUTDOWN switches exactly
the driver it names. -/
def Obligations.CanTransmission : Prop :=
  (∀ (s : State) (t d n b : Nat), n < 24 → b < 3 → s.takes d (pCANC n * 4096 + Reg.CANC_TXB_CMD) (2 ^ b) →
    s.nmOwnsTxb n b = false → s.txbReqCheck n b = none →
    Completes (.canTxbReq t d n (2 ^ b)) s fun u =>
      u.txbState n b = 1 ∧ (u.txb n b).enq = (s.advance t).now ∧ RegsKept s u [pCANC n * 4096 + Reg.CANC_TXB_STAT] ∧
      TablesKept s u ∧ CountsKept s u ∧ BytesKept s u ∧ QueuesKept s u) ∧
  (∀ (s : State) (t d n b : Nat), n < 24 → b < 3 → s.takes d (pCANC n * 4096 + Reg.CANC_TXB_CMD) (2 ^ (8 + b)) →
    s.nmOwnsTxb n b = false → (s.can n).nmBuf = 0 → s.txbState n b = 1 →
    Completes (.canTxbCancel t d n (2 ^ (8 + b))) s fun u =>
      u.txbState n b = 4 ∧ RegsKept s u [pCANC n * 4096 + Reg.CANC_TXB_STAT, pCANC n * 4096 + Reg.IRQ_STAT] ∧
      TablesKept s u ∧ BytesKept s u ∧ QueuesKept s u) ∧
  (∀ (s : State) (t n : Nat) (f : CanFrame), n < 24 → s.canClocked n = true → s.rtqRefuses n = false →
    Completes (.rtqEntry t n f) s fun u =>
      (u.can n).rtq = (s.can n).rtq ++ [⟨f, (s.advance t).now, 0, 0⟩] ∧
      u.fld (pCANC n) Fd.CANC_RTQ_STAT_LEVEL = (s.can n).rtq.length + 1 ∧
      RegsKept s u [pCANC n * 4096 + Reg.CANC_RTQ_STAT] ∧ TablesKept s u ∧ CountsKept s u ∧ BytesKept s u ∧ QueuesKept s u) ∧
  (∀ (s : State) (t n : Nat) (a : Attempt), n < 24 → s.canClocked n = true → canSends (s.canMode n) = true →
    (s.can n).attempt = none → s.frozen (pCANC n) = false → (s.can n).comma = false → s.canWants n = s.canMode n →
    (s.advance t).canChoose n = some a →
    Completes (.txArbitration t n 0) s fun u =>
      (u.can n).attempt = some a ∧ (a.src < 3 → u.txbState n a.src = 2) ∧
      RegsKept s u [pCANC n * 4096 + Reg.CANC_TXB_STAT] ∧ TablesKept s u ∧ CountsKept s u ∧ BytesKept s u ∧ QueuesKept s u) ∧
  (∀ (s : State) (t n : Nat) (a : Attempt), n < 24 → s.canClocked n = true → (s.can n).attempt = some a → a.won = false →
    Completes (.txArbitration t n 1) s fun u =>
      (u.can n).attempt = some { a with won := true } ∧ RegsKept s u [] ∧ TablesKept s u ∧ CountsKept s u ∧ BytesKept s u ∧
      QueuesKept s u) ∧
  (∀ (s : State) (t n : Nat) (a : Attempt), n < 24 → s.canClocked n = true → (s.can n).attempt = some a → a.won = false →
    a.src = 3 →
    Completes (.txArbitration t n 2) s fun u =>
      (u.can n).attempt = none ∧ (u.can n).rtq = (s.can n).rtq ∧
      u.count (pCANC n) Cn.CANC_ARB_LOST = (s.count (pCANC n) Cn.CANC_ARB_LOST + 1) % 2 ^ 64 ∧
      RegsKept s u [] ∧ TablesKept s u ∧ BytesKept s u ∧ QueuesKept s u) ∧
  (∀ (s : State) (t n sof eof tdcv : Nat) (a : Attempt), n < 24 → s.canClocked n = true → (s.can n).attempt = some a →
    a.won = true → a.ent = none → a.src < 3 → (s.txb n a.src).cancel = none → (s.can n).nmBuf = 0 →
    s.fld (pCANC n) Fd.CANC_ERR_TEC = 0 → s.flag (pCANC n) Fd.CANC_CFG_TX_ECHO = false →
    (s.fld pTRN Fd.TRN_TAP_CANTX_TX).testBit n = false →
    Completes (.canTxSuccess t n sof eof tdcv) s fun u =>
      (u.can n).attempt = none ∧ u.txbState n a.src = 3 ∧ Out.can n a.src a.frame ∈ u.out ∧
      u.count (pCANC n) Cn.CANC_TX_OK = (s.count (pCANC n) Cn.CANC_TX_OK + 1) % 2 ^ 64 ∧ TablesKept s u ∧ BytesKept s u ∧
      QueuesKept s u) ∧
  (∀ (s : State) (t n : Nat), n < 16 → n ∉ s.ldie.canReleased →
    Completes (.canDominantTimeout t n) s fun u =>
      u.ldie.canReleased = n :: s.ldie.canReleased ∧ RegsKept s u [] ∧ TablesKept s u ∧ CountsKept s u ∧ BytesKept s u) ∧
  (∀ (s : State) (t n k : Nat) (off : Bool), n < 16 →
    Completes (.driverThermalShutdown t false n off) s fun u =>
      (n ∈ u.ldie.canHot ↔ off = true) ∧ (k ≠ n → (k ∈ u.ldie.canHot ↔ k ∈ s.ldie.canHot)) ∧ u.ldie.linHot = s.ldie.linHot ∧
      RegsKept s u [] ∧ TablesKept s u ∧ CountsKept s u ∧ BytesKept s u) ∧
  (∀ (s : State) (t n k : Nat) (off : Bool), n < 8 →
    Completes (.driverThermalShutdown t true n off) s fun u =>
      (n ∈ u.ldie.linHot ↔ off = true) ∧ (k ≠ n → (k ∈ u.ldie.linHot ↔ k ∈ s.ldie.linHot)) ∧ u.ldie.canHot = s.ldie.canHot ∧
      RegsKept s u [] ∧ TablesKept s u ∧ CountsKept s u ∧ BytesKept s u)

/-! ### LIN channels and serial lines -/

/-- On a channel below 8. LINC_MODE_REQ from STOP at a bit rate in the limits enters RUN. SCHED_GO with a valid first entry starts the
schedule at entry 0; SCHED_SWITCH to a valid table leaves the switch pending. SCHEDULE_SLOT of a running master starts the slot at the
entry its position names and acts on its type: unconditional, event-triggered and updated sporadic entries send their header, a sporadic
one without an update sends none, a sleep entry sends header 60; at the end of a slot the position moves on. LIN_WAKE and
LIN_WAKE_RECEIVED in SLEEP go to RUN, with no header for 100 ms; LIN_IDLE_SLEEP of an idle slave goes to SLEEP after 4 s;
LIN_WAKE_HOLDOFF_END ends the 100 ms; LIN_DOMINANT_TIMEOUT releases the driver. -/
def Obligations.LinModesSlotsSleepAndWake : Prop :=
  (∀ (s : State) (t d n v : Nat), n < 8 → s.takes d (pLINC n * 4096 + Reg.LINC_MODE) v → s.linMode n = 0 → v % 16 = 1 →
    v / 4096 % 2 = 0 → s.linBaudOk n = true →
    Completes (.lincModeReq t d n v) s fun u =>
      u.linMode n = 1 ∧ u.fld (pLINC n) Fd.LINC_MODE_REQ = 1 ∧ RegsKept s u [pLINC n * 4096 + Reg.LINC_MODE] ∧
      TablesKept s u ∧ CountsKept s u ∧ BytesKept s u ∧ QueuesKept s u) ∧
  (∀ (s : State) (t d n v : Nat), n < 8 → s.takes d (pLINC n * 4096 + Reg.LINC_SCHED) v → v % 4 = 1 →
    s.linTabOk n (s.fld (pLINC n) Fd.LINC_SCHED_CUR) = true → s.flag (pLINC n) Fd.LINC_SCHED_GO = false →
    Completes (.schedGo t d n v) s fun u =>
      u.flag (pLINC n) Fd.LINC_SCHED_GO = true ∧ u.fld (pLINC n) Fd.LINC_SCHED_POS = 0 ∧ (u.lin n).slot = none ∧
      u.fld (pLINC n) Fd.LINC_SCHED_CUR = s.fld (pLINC n) Fd.LINC_SCHED_CUR ∧
      RegsKept s u [pLINC n * 4096 + Reg.LINC_SCHED] ∧ TablesKept s u ∧ CountsKept s u ∧ BytesKept s u ∧ QueuesKept s u) ∧
  (∀ (s : State) (t d n v : Nat), n < 8 → s.takes d (pLINC n * 4096 + Reg.LINC_SCHED) v → v % 4 = 2 →
    s.linTabOk n (1 - s.fld (pLINC n) Fd.LINC_SCHED_CUR) = true →
    Completes (.schedSwitch t d n v) s fun u =>
      (u.lin n).switch = true ∧ u.fld (pLINC n) Fd.LINC_SCHED_CUR = s.fld (pLINC n) Fd.LINC_SCHED_CUR ∧
      u.flag (pLINC n) Fd.LINC_SCHED_GO = false ∧
      RegsKept s u [pLINC n * 4096 + Reg.LINC_SCHED] ∧ TablesKept s u ∧ CountsKept s u ∧ BytesKept s u ∧ QueuesKept s u) ∧
  (∀ (s : State) (t n : Nat) (e : Entry), n < 8 → s.runs? = true → s.linMode n = 1 → s.linRole n = 0 →
    s.flag (pLINC n) Fd.LINC_SCHED_GO = true → (s.lin n).slot = none → (s.lin n).switch = false → (s.lin n).gts = false →
    (s.lin n).gtsNow = false → (s.lin n).frame = none → (s.lin n).holdoff ≤ (s.advance t).now →
    s.linSched n (s.fld (pLINC n) Fd.LINC_SCHED_CUR) (s.fld (pLINC n) Fd.LINC_SCHED_POS) = e →
    Completes (.scheduleSlot t n) s fun u =>
      let r := s.linResp n (fget e En.SCHE_ID)
      let upd := fget r En.RESP_VALID = 1 ∧ fget r En.RESP_DIR = 1 ∧ fget r En.RESP_UPDATED = 1
      (u.lin n).slot = some ((s.advance t).now, fget e En.SCHE_SLOT * 100000) ∧
      (fget e En.SCHE_TYPE ≤ 1 ∨ (fget e En.SCHE_TYPE = 2 ∧ upd) →
        (u.lin n).frame = some ⟨fget e En.SCHE_ID, (s.advance t).now, 4, fget e En.SCHE_TYPE = 1, []⟩ ∧
        u.out = s.out ++ [.sent "lin header" [n, fget e En.SCHE_ID]]) ∧
      (fget e En.SCHE_TYPE = 2 ∧ ¬upd → (u.lin n).frame = none ∧ u.out = s.out) ∧
      (fget e En.SCHE_TYPE = 3 → (u.lin n).gtsNow = true ∧ u.out = s.out ++ [.sent "lin header" [n, 60]]) ∧
      RegsKept s u [] ∧ TablesKept s u ∧ CountsKept s u ∧ BytesKept s u ∧ QueuesKept s u) ∧
  (∀ (s : State) (t n st len : Nat), n < 8 → s.runs? = true → s.linMode n = 1 → s.linRole n = 0 →
    s.flag (pLINC n) Fd.LINC_SCHED_GO = true → (s.lin n).slot = some (st, len) → st + len ≤ (s.advance t).now →
    (s.lin n).switch = false → (s.lin n).gtsNow = false →
    Completes (.scheduleSlot t n) s fun u =>
      let pos := s.fld (pLINC n) Fd.LINC_SCHED_POS
      let next := fget (s.linSched n (s.fld (pLINC n) Fd.LINC_SCHED_CUR) (pos + 1)) En.SCHE_VALID
      u.fld (pLINC n) Fd.LINC_SCHED_POS = (if pos < 63 ∧ next = 1 then pos + 1 else 0) ∧
      (∃ l, (u.lin n).slot = some (st + len, l)) ∧
      RegsKept s u [pLINC n * 4096 + Reg.LINC_SCHED] ∧ TablesKept s u ∧ CountsKept s u ∧ BytesKept s u ∧ QueuesKept s u) ∧
  (∀ (s : State) (t d n v : Nat), n < 8 → s.takes d (pLINC n * 4096 + Reg.LINC_MODE) (v ||| 4096) → s.linMode n = 2 →
    v % 16 = 1 → s.frozen (pLINC n) = false →
    Completes (.linWake t d n v) s fun u =>
      u.linMode n = 1 ∧ (u.lin n).holdoff = (s.advance t).now + 100000000 ∧
      Out.sent "lin wake" [n, s.fld (pLINC n) Fd.LINC_TIMING_WAKE_US] ∈ u.out ∧ TablesKept s u ∧ BytesKept s u) ∧
  (∀ (s : State) (t n dur : Nat), n < 8 → s.runs? = true → s.linMode n = 2 → 150000 < dur → n ∉ s.ldie.linArmed →
    Completes (.linWakeReceived t n dur) s fun u =>
      u.linMode n = 1 ∧ (u.lin n).holdoff = (s.advance t).now + 100000000 ∧ TablesKept s u ∧ BytesKept s u) ∧
  (∀ (s : State) (t n : Nat), n < 8 → s.runs? = true → s.linMode n = 1 → s.linRole n = 1 →
    s.flag (pLINC n) Fd.LINC_CFG_IDLE_SLEEP = true → (s.lin n).frame = none →
    (s.lin n).lastAct + 4000000000 ≤ (s.advance t).now →
    Completes (.linIdleSleep t n) s fun u => u.linMode n = 2 ∧ TablesKept s u ∧ BytesKept s u) ∧
  (∀ (s : State) (t n : Nat), n < 8 → s.runs? = true → (s.lin n).holdoff ≤ (s.advance t).now →
    Completes (.linWakeHoldoffEnd t n) s fun u =>
      (u.lin n).holdoff = 0 ∧ u.linMode n = s.linMode n ∧ RegsKept s u [] ∧ TablesKept s u ∧ CountsKept s u ∧ BytesKept s u) ∧
  (∀ (s : State) (t n : Nat), n < 8 → n ∉ s.ldie.linReleased →
    Completes (.linDominantTimeout t n) s fun u =>
      u.ldie.linReleased = n :: s.ldie.linReleased ∧ RegsKept s u [] ∧ TablesKept s u ∧ CountsKept s u ∧ BytesKept s u)

/-- On a running channel below 8 with no frame in progress. LIN_HEADER_RECEIVED by a slave, of an identifier its table publishes, within
15 % of the rate, sends the entry's data bytes and keeps the frame with its start less 12 ns; of an identifier that it
subscribes to, waits for the response. LIN_FRAME_END of a received response with the right checksum, where neither router, tap,
queue, interrupt nor keep-alive takes part, stores its bytes in the entry and counts FRAMES_OK; one of a published response clears
UPDATED. LIN_RESPONSE_TIMEOUT with no byte received counts NO_RESP and stores nothing. -/
def Obligations.LinFrames : Prop :=
  (∀ (s : State) (t n id start dev : Nat), n < 8 → s.runs? = true → s.linMode n = 1 → id < 64 → s.linRole n = 1 → dev ≤ 150 →
    (s.lin n).frame = none → fget (s.linResp n id) En.RESP_VALID = 1 → fget (s.linResp n id) En.RESP_DIR = 1 →
    Completes (.linHeaderReceived t n id start dev) s fun u =>
      let data := (leBytes 8 (fget (s.linResp n id) En.RESP_DATA)).take (fget (s.linResp n id) En.RESP_LEN)
      (u.lin n).frame = some ⟨id, start - 12, 1, false, data⟩ ∧ u.out = s.out ++ [.sent "lin response" (n :: id :: data)] ∧
      RegsKept s u [] ∧ TablesKept s u ∧ CountsKept s u ∧ BytesKept s u ∧ QueuesKept s u) ∧
  (∀ (s : State) (t n id start dev : Nat), n < 8 → s.runs? = true → s.linMode n = 1 → id < 64 → s.linRole n = 1 → dev ≤ 150 →
    (s.lin n).frame = none → fget (s.linResp n id) En.RESP_VALID = 1 → fget (s.linResp n id) En.RESP_DIR = 2 →
    Completes (.linHeaderReceived t n id start dev) s fun u =>
      (u.lin n).frame = some ⟨id, start - 12, 2, false, []⟩ ∧ u.out = s.out ∧
      RegsKept s u [] ∧ TablesKept s u ∧ CountsKept s u ∧ BytesKept s u ∧ QueuesKept s u) ∧
  (∀ (s : State) (t n : Nat) (x : LinFrame) (e : LinEnd), n < 8 → s.runs? = true → (s.lin n).frame = some x →
    (x.dir = 1 ∨ x.dir = 2) → x.id < 60 → e.csumOk = true → e.bitErr = false → fget (s.linResp n x.id) En.RESP_VALID = 1 →
    fget (s.linResp n x.id) En.RESP_IRQ_EN = 0 → fget (s.linResp n x.id) En.RESP_QUEUE = 0 →
    s.flag (pLINC n) Fd.LINC_CFG_TO_ROUTER = false → (s.fld pTRN Fd.TRN_TAP_MISC_LIN).testBit n = false → s.nmUp = false →
    s.frozen (pLINC n) = false → s.fld (pLINC n) Fd.LINC_MODE_REQ = 1 →
    Completes (.linFrameEnd t n e) s fun u =>
      (u.lin n).frame = none ∧
      u.count (pLINC n) Cn.LINC_FRAMES_OK = (s.count (pLINC n) Cn.LINC_FRAMES_OK + 1) % 2 ^ 64 ∧
      u.linResp n x.id = (if x.dir = 1 then fput (s.linResp n x.id) En.RESP_UPDATED 0
        else fput (s.linResp n x.id) En.RESP_DATA (leNat (fitTo 0 8 (e.data.take 8)))) ∧
      (∀ i, i < 64 → i ≠ x.id → u.linResp n i = s.linResp n i) ∧ RegsKept s u [] ∧ BytesKept s u ∧ QueuesKept s u) ∧
  (∀ (s : State) (t n : Nat) (x : LinFrame), n < 8 → s.runs? = true → (s.lin n).frame = some x → x.dir = 2 →
    fget (s.linResp n x.id) En.RESP_QUEUE = 0 →
    x.start + s.linFrameNs n (fget (s.linResp n x.id) En.RESP_LEN) * s.fld (pLINC n) Fd.LINC_TIMING_RESP_PCT / 100
      ≤ (s.advance t).now →
    Completes (.linResponseTimeout t n []) s fun u =>
      (u.lin n).frame = none ∧ u.count (pLINC n) Cn.LINC_NO_RESP = (s.count (pLINC n) Cn.LINC_NO_RESP + 1) % 2 ^ 64 ∧
      u.linResp n x.id = s.linResp n x.id ∧ BytesKept s u)

/-- On a line below 4. SER_MODE_REQ from STOP at a bit rate in the limits enters RUN or LISTEN. SER_CHARACTER_RECEIVED with gap framing
and nothing being sent starts a frame with its character; SER_GAP_EXPIRY after the gap delivers it and counts RX_FRAMES. SER_TX_REQ
of a buffer that is not pending makes it PENDING with the enqueue stamp, SER_TX_CANCEL of a PENDING one makes it CANCELLED. SER_RTQ_ENTRY
that is not refused appends to the router queue. SER_TX_START on an idle line starts the pending frame; the host's when it was enqueued
earlier, the router's otherwise. SER_TX_DONE of a host frame without a cancel makes it SENT and counts TX_FRAMES. -/
def Obligations.SerialLines : Prop :=
  (∀ (s : State) (t d k v : Nat), k < 4 → s.takes d (pSER k * 4096 + Reg.SER_MODE) v → s.serMode k = 0 →
    (v % 16 = 1 ∨ v % 16 = 2) → s.serBaudOk k = true →
    Completes (.serModeReq t d k v) s fun u =>
      u.serMode k = v % 16 ∧ u.fld (pSER k) Fd.SER_MODE_REQ = v % 16 ∧ RegsKept s u [pSER k * 4096 + Reg.SER_MODE] ∧
      TablesKept s u ∧ CountsKept s u ∧ BytesKept s u ∧ QueuesKept s u) ∧
  (∀ (s : State) (t k : Nat) (c : SerChar), k < 4 → s.runs? = true → (s.serMode k = 1 ∨ s.serMode k = 2) → (s.ser k).tx = none →
    (s.ser k).rx = none → s.fld (pSER k) Fd.SER_CFG_FRAMING = 0 → 1 ≤ s.fld (pSER k) Fd.SER_FRAME_MAXLEN →
    c.parityErr = false → c.framingErr = false →
    Completes (.serCharacterReceived t k c) s fun u =>
      (u.ser k).rx = some ⟨c.start, c.fin, [c.data], false, false, 1, false⟩ ∧ (u.ser k).lastEnd = some c.fin ∧
      RegsKept s u [] ∧ TablesKept s u ∧ CountsKept s u ∧ BytesKept s u ∧ QueuesKept s u) ∧
  (∀ (s : State) (t k e : Nat) (x : SerRx), k < 4 → s.runs? = true → (s.ser k).rx = some x → (s.ser k).lastEnd = some e →
    x.cut = false → s.fld (pSER k) Fd.SER_CFG_FRAMING = 0 → s.flag (pSER k) Fd.SER_CFG_TO_ROUTER = false →
    (s.fld pTRN Fd.TRN_TAP_MISC_SER).testBit k = false →
    e + s.fld (pSER k) Fd.SER_FRAME_GAP * s.serHalfChar k ≤ (s.advance t).now →
    Completes (.serGapExpiry t k) s fun u =>
      (u.ser k).rx = none ∧ u.count (pSER k) Cn.SER_RX_FRAMES = (s.count (pSER k) Cn.SER_RX_FRAMES + 1) % 2 ^ 64 ∧
      TablesKept s u ∧ BytesKept s u) ∧
  (∀ (s : State) (t d k v : Nat), k < 4 → s.takes d (pSER k * 4096 + Reg.SER_TXB) v → v / 2 ^ 15 % 2 = 1 → v / 2 ^ 14 % 2 = 0 →
    1 ≤ v % 2048 → v % 2048 ≤ (if s.ser9 k then 512 else 1024) → s.fld (pSER k) Fd.SER_TXB_STATE ≠ 1 →
    s.fld (pSER k) Fd.SER_TXB_STATE ≠ 2 →
    Completes (.serTxReq t d k v) s fun u =>
      u.fld (pSER k) Fd.SER_TXB_STATE = 1 ∧ u.fld (pSER k) Fd.SER_TXB_LEN = v % 2048 ∧ (u.ser k).enq = (s.advance t).now ∧
      RegsKept s u [pSER k * 4096 + Reg.SER_TXB] ∧ TablesKept s u ∧ CountsKept s u ∧ BytesKept s u ∧ QueuesKept s u) ∧
  (∀ (s : State) (t d k v : Nat), k < 4 → s.takes d (pSER k * 4096 + Reg.SER_TXB) (v ||| 2 ^ 14) → v / 2 ^ 15 % 2 = 0 →
    s.fld (pSER k) Fd.SER_TXB_STATE = 1 →
    Completes (.serTxCancel t d k v) s fun u =>
      u.fld (pSER k) Fd.SER_TXB_STATE = 4 ∧ RegsKept s u [pSER k * 4096 + Reg.SER_TXB, pSER k * 4096 + Reg.IRQ_STAT] ∧
      TablesKept s u ∧ BytesKept s u ∧ QueuesKept s u) ∧
  (∀ (s : State) (t k : Nat) (cs : List Nat), k < 4 → s.runs? = true → s.serRtqRefuses k = false →
    (∀ x ∈ (s.ser k).rtq, x.stamp ≤ (s.advance t).now) →
    Completes (.serRtqEntry t k cs) s fun u =>
      (u.ser k).rtq = (s.ser k).rtq ++ [⟨cs, (s.advance t).now⟩] ∧
      u.fld (pSER k) Fd.SER_RTQ_STAT_LEVEL = (s.ser k).rtq.length + 1 ∧
      RegsKept s u [pSER k * 4096 + Reg.SER_RTQ_STAT] ∧ TablesKept s u ∧ CountsKept s u ∧ BytesKept s u ∧ QueuesKept s u) ∧
  (∀ (s : State) (t k : Nat), k < 4 → s.runs? = true → s.serMode k = 1 → (s.ser k).tx = none → s.frozen (pSER k) = false →
    s.fld (pSER k) Fd.SER_MODE_REQ = 1 →
    (∀ e, (s.ser k).lastEnd = some e → e + s.fld (pSER k) Fd.SER_TURN_TURN_US * 1000 ≤ (s.advance t).now) →
    s.fld (pSER k) Fd.SER_TXB_STATE = 1 → (∀ r ∈ (s.ser k).rtq.head?, (s.ser k).enq < r.stamp) →
    Completes (.serTxStart t k) s fun u =>
      u.fld (pSER k) Fd.SER_TXB_STATE = 2 ∧ (u.ser k).tx = some ⟨true, s.serBuf k, s.serBuf k, (s.advance t).now⟩ ∧
      RegsKept s u [pSER k * 4096 + Reg.SER_TXB] ∧ TablesKept s u ∧ CountsKept s u ∧ BytesKept s u ∧ QueuesKept s u) ∧
  (∀ (s : State) (t k : Nat) (r : SerQ) (q : List SerQ), k < 4 → s.runs? = true → s.serMode k = 1 → (s.ser k).tx = none →
    s.frozen (pSER k) = false → s.fld (pSER k) Fd.SER_MODE_REQ = 1 →
    (∀ e, (s.ser k).lastEnd = some e → e + s.fld (pSER k) Fd.SER_TURN_TURN_US * 1000 ≤ (s.advance t).now) →
    (s.ser k).rtq = r :: q → (s.fld (pSER k) Fd.SER_TXB_STATE = 1 → r.stamp ≤ (s.ser k).enq) →
    Completes (.serTxStart t k) s fun u =>
      (u.ser k).tx = some ⟨false, r.chars, r.chars, (s.advance t).now⟩ ∧
      RegsKept s u [] ∧ TablesKept s u ∧ CountsKept s u ∧ BytesKept s u ∧ QueuesKept s u) ∧
  (∀ (s : State) (t k : Nat) (x : SerTx), k < 4 → s.runs? = true → (s.ser k).tx = some x → x.host = true → (s.ser k).cancel = none →
    Completes (.serTxDone t k) s fun u =>
      (u.ser k).tx = none ∧ u.fld (pSER k) Fd.SER_TXB_STATE = 3 ∧ Out.sent "ser frame" (k :: x.chars) ∈ u.out ∧
      u.count (pSER k) Cn.SER_TX_FRAMES = (s.count (pSER k) Cn.SER_TX_FRAMES + 1) % 2 ^ 64 ∧
      TablesKept s u ∧ BytesKept s u ∧ QueuesKept s u)

/-! ### The signal router -/

/-- With the router enabled, not frozen and not draining. ROUTER_INPUT takes the field-bus input that is due first once 1 µs has passed:
one that no route matches is counted in UNMATCHED and drops out; one that a supervised route of policy 0 without verification, maps,
valid slots or image routes takes is its arrival: STATE ALIVE, the last stamp, the arrival count and the next deadline. SRT_TIMEOUT 4 µs
after the deadline of such a route sets TIMED_OUT, leaves no deadline and counts. TUNNEL_PDU_RECEIVED of an NTSCF PDU of an accepting
stream with one well-formed message counts the PDU and makes the message the newest tunnel input. -/
def Obligations.RouterInputsAndTimeouts : Prop :=
  (∀ (s : State) (t : Nat) (x : RIn), s.runs? = true → s.srtActs = true → s.srt.tunnel = [] → rinHead s.srt.field = some x →
    x.kind ≠ 3 → x.stamp + 1000 ≤ (s.advance t).now → s.routeOf (s.srtBank x.stamp) x = none →
    Completes (.routerInput t) s fun u =>
      u.srt.field = s.srt.field.erase x ∧
      u.count pSRT Cn.SRT_EVENTS = (s.count pSRT Cn.SRT_EVENTS + 1) % 2 ^ 64 ∧
      u.count pSRT Cn.SRT_UNMATCHED = (s.count pSRT Cn.SRT_UNMATCHED + 1) % 2 ^ 64 ∧
      RegsKept s u [pSRT * 4096 + Reg.SRT_INQ_STAT] ∧ TablesKept s u ∧ BytesKept s u ∧ QueuesKept s u) ∧
  (∀ (s : State) (t idx : Nat) (x : RIn) (e : Entry), s.runs? = true → s.srtActs = true → s.srtDraining = false →
    s.srt.tunnel = [] → rinHead s.srt.field = some x → x.kind ≠ 3 → x.stamp + 1000 ≤ (s.advance t).now → x.stamp < 2 ^ 64 →
    s.routeOf (s.fld pSRT Fd.SRT_GEN_BANK) x = some idx → s.routeE (s.fld pSRT Fd.SRT_GEN_BANK) idx = e →
    s.unsettled idx x.stamp = false → s.rstF idx En.RSTATE_HELD = 0 → s.rstF idx En.RSTATE_STATE ≠ 2 →
    fget e En.ROUTE_POLICY = 0 → fget e En.ROUTE_AUTH_V_EN = 0 → fget e En.ROUTE_MAP_COUNT = 0 →
    s.ent pSRT 1 (s.fld pSRT Fd.SRT_GEN_BANK) idx = 0 → (s.imageRoutes (s.fld pSRT Fd.SRT_GEN_BANK) fun _ => true) = [] →
    Completes (.routerInput t) s fun u =>
      u.srt.field = s.srt.field.erase x ∧ u.rstF idx En.RSTATE_STATE = 1 ∧ u.rstF idx En.RSTATE_LAST = x.stamp ∧
      u.rstF idx En.RSTATE_ARRIVALS = (s.rstF idx En.RSTATE_ARRIVALS + 1) % 2 ^ 32 ∧
      u.rstF idx En.RSTATE_DEADLINE = (if s.supervised e then deadlineFrom e x.stamp else 0) ∧
      u.count pSRT Cn.SRT_MATCHED = (s.count pSRT Cn.SRT_MATCHED + 1) % 2 ^ 64 ∧
      RegsKept s u [pSRT * 4096 + Reg.SRT_INQ_STAT] ∧ BytesKept s u ∧ QueuesKept s u) ∧
  (∀ (s : State) (t idx d : Nat) (e : Entry), s.runs? = true → s.srtActs = true → s.srtDraining = false →
    s.rstF idx En.RSTATE_DEADLINE = d → d ≠ 0 → d + 4000 ≤ (s.advance t).now →
    s.routeE (s.fld pSRT Fd.SRT_GEN_BANK) idx = e → s.supervised e = true → s.rstF idx En.RSTATE_STATE ≠ 2 →
    fget e En.ROUTE_MAP_COUNT = 0 → (s.imageRoutes (s.fld pSRT Fd.SRT_GEN_BANK) fun _ => true) = [] →
    Completes (.srtTimeout t idx) s fun u =>
      u.rstF idx En.RSTATE_STATE = 2 ∧ u.rstF idx En.RSTATE_DEADLINE = 0 ∧ (u.rroute idx).acted = d ∧
      u.count pSRT Cn.SRT_TIMEOUTS = (s.count pSRT Cn.SRT_TIMEOUTS + 1) % 2 ^ 64 ∧ BytesKept s u) ∧
  (∀ (s : State) (t stamp seq i : Nat) (ad idb data fin m : List Nat) (l : List (Nat × List Nat)) (x : RIn),
    s.runs? = true → s.enabled pSRT = true → ad.length = 12 → idb.length = 8 → data.length < 2048 → 4 ≤ fin.length → x.kind = 3 →
    s.srt.pduIn = (stamp, ad ++ [0x22, 0xF0, 0x82, 0x80 + data.length / 256, data.length % 256, seq] ++ idb ++ data ++ fin) :: l →
    s.rxStream 0x82 (beNat idb) = some i → acfSplit data.length data = some [m] → acfRead i stamp none m = .input x →
    s.entF pSRT 6 0 i En.RXS_SEQ_CHECK = 0 → s.srt.field.length + s.srt.tunnel.length < 1024 →
    Completes (.tunnelPduReceived t) s fun u =>
      u.srt.pduIn = l ∧ u.srt.tunnel = s.srt.tunnel ++ [x] ∧ u.entF pSRT 6 0 i En.RXS_SEQ_EXP = (seq + 1) % 256 ∧
      u.count pSRT Cn.SRT_PDU_RX = (s.count pSRT Cn.SRT_PDU_RX + 1) % 2 ^ 64 ∧
      RegsKept s u [pSRT * 4096 + Reg.SRT_INQ_STAT] ∧ BytesKept s u ∧ QueuesKept s u)

/-- With the router enabled, not frozen and not draining. REDUNDANCY_WINDOW_END closes the oldest set whose window ended 4 µs ago and whose
delivery is settled. CYCLIC_TICK of a due tick sends the image and moves to the next tick; IMAGE_SEND of a pending
image route that may send puts the image's bytes in a frame of its CAN slot and is pending no longer. PDU_WINDOW_END 1 µs after the
window closes the stream's PDU and raises its sequence number. SRT_RELEASE of a held route ends the hold with the named owner.
SUPERVISE going to 1 starts the deadline of every supervised route that has not timed out. -/
def Obligations.RouterSendsAndReleases : Prop :=
  (∀ (s : State) (t idx : Nat) (y : RSet), s.runs? = true → s.srtActs = true → s.srt.prev = [] →
    (s.rroute idx).sets.reverse.find? (fun y => !y.closed && decide (y.ends + 4000 ≤ (s.advance t).now)) = some y → y.delivered = true →
    Completes (.redundancyWindowEnd t idx) s fun u =>
      (u.rroute idx).sets = setSet (s.rroute idx).sets { y with closed := true } ∧
      u.count pSRT Cn.SRT_EVENTS = (s.count pSRT Cn.SRT_EVENTS + 1) % 2 ^ 64 ∧
      RegsKept s u [] ∧ TablesKept s u ∧ BytesKept s u ∧ QueuesKept s u) ∧
  (∀ (s : State) (t idx : Nat) (e : Entry), s.runs? = true → s.srtActs = true → s.srtDraining = false →
    s.routeE (s.fld pSRT Fd.SRT_GEN_BANK) idx = e → fget e En.ROUTE_VALID = 1 → fget e En.ROUTE_KIND = 1 →
    fget e En.ROUTE_TX_MODE ≠ 0 → fget e En.ROUTE_TX_PERIOD ≠ 0 →
    (s.rroute idx).act + (s.rroute idx).tick * fget e En.ROUTE_TX_PERIOD * 100000 ≤ (s.advance t).now →
    s.ent pSRT 1 (s.fld pSRT Fd.SRT_GEN_BANK) idx = 0 →
    Completes (.cyclicTick t idx) s fun u =>
      (u.rroute idx).tick = (s.rroute idx).tick + 1 ∧ (u.rroute idx).pending = false ∧
      (u.rroute idx).lastSend = some (s.advance t).now ∧
      u.count pSRT Cn.SRT_EVENTS = (s.count pSRT Cn.SRT_EVENTS + 1) % 2 ^ 64 ∧ RegsKept s u [] ∧ BytesKept s u ∧ QueuesKept s u) ∧
  (∀ (s : State) (t idx : Nat) (e : Entry), s.runs? = true → s.srtActs = true → s.srtDraining = false →
    s.imageReady idx (s.fld pSRT Fd.SRT_GEN_BANK) = true →
    (s.rroute idx).lastSend = none → s.ent pSRT 1 (s.fld pSRT Fd.SRT_GEN_BANK) idx = e →
    (∀ k, k < 4 → slotFld e k En.DSTS_VALID = (if k = 0 then 1 else 0)) → slotFld e 0 En.DSTS_KIND = 0 →
    slotFld e 0 En.DSTS_CH < 24 → s.rtqRefuses (slotFld e 0 En.DSTS_CH) = false → slotFld e 0 En.DSTS_FORMAT = 0 →
    slotFld e 0 En.DSTS_ID_MODE = 0 → slotFld e 0 En.DSTS_AUTH_EN = 0 → 1 ≤ slotFld e 0 En.DSTS_LEN → slotFld e 0 En.DSTS_LEN ≤ 8 →
    Completes (.imageSend t idx) s fun u =>
      let ch := slotFld e 0 En.DSTS_CH
      let n := slotFld e 0 En.DSTS_LEN
      let x := s.image (fget (s.routeE (s.fld pSRT Fd.SRT_GEN_BANK) idx) En.ROUTE_IMG)
      (u.rroute idx).pending = false ∧ (u.rroute idx).lastSend = some (s.advance t).now ∧
      (u.can ch).rtq = (s.can ch).rtq ++ [⟨{ id := slotFld e 0 En.DSTS_ID % 2 ^ 11, len := n, data := (leBytes 64 x).take n },
        (s.advance t).now, 0, 0⟩] ∧ BytesKept s u ∧ QueuesKept s u) ∧
  (∀ (s : State) (t i : Nat) (p : Pdu), s.runs? = true → s.srtActs = true → smGet none i s.srt.pdus = some p →
    p.ends + 1000 ≤ (s.advance t).now →
    Completes (.pduWindowEnd t i) s fun u =>
      smGet none i u.srt.pdus = none ∧ u.entF pSRT 5 0 i En.TXS_SEQ = (s.entF pSRT 5 0 i En.TXS_SEQ + 1) % 256 ∧
      u.count pSRT Cn.SRT_PDU_TX = (s.count pSRT Cn.SRT_PDU_TX + 1) % 2 ^ 64 ∧ BytesKept s u ∧ QueuesKept s u) ∧
  (∀ (s : State) (t d v : Nat), s.takes d (pSRT * 4096 + Reg.SRT_RELEASE) v → v / 2 ^ 31 % 2 = 1 →
    s.rstF (v % 8192) En.RSTATE_HELD = 1 →
    (fget (s.routeE (s.fld pSRT Fd.SRT_GEN_BANK) (v % 8192)) En.ROUTE_CHMASK).testBit (v / 65536 % 32) = true →
    Completes (.srtRelease t d v) s fun u =>
      u.rstF (v % 8192) En.RSTATE_HELD = 0 ∧ u.rstF (v % 8192) En.RSTATE_OWNER = v / 65536 % 32 ∧
      (u.rroute (v % 8192)).ownerLast = some (s.advance t).now ∧ BytesKept s u) ∧
  (∀ (s : State) (t d v idx : Nat) (e : Entry) (l m : List (Nat × Entry)), s.takes d (pSRT * 4096 + Reg.SRT_CFG) v → v % 2 = 1 →
    s.flag pSRT Fd.SRT_CFG_SUPERVISE = false → s.enabled pSRT = true →
    s.tabList pSRT 0 (s.fld pSRT Fd.SRT_GEN_BANK) = l ++ (idx, e) :: m → (∀ x ∈ m, x.1 ≠ idx) → fget e En.ROUTE_VALID = 1 →
    fget e En.ROUTE_KIND = 0 → fget e En.ROUTE_TMO ≠ 0 → s.rstF idx En.RSTATE_STATE ≠ 2 →
    Completes (.superviseEnable t d v) s fun u =>
      u.flag pSRT Fd.SRT_CFG_SUPERVISE = true ∧ u.rstF idx En.RSTATE_DEADLINE = deadlineFrom e (s.advance t).now ∧
      RegsKept s u [pSRT * 4096 + Reg.SRT_CFG] ∧ CountsKept s u ∧ BytesKept s u ∧ QueuesKept s u)

/-! ### The Ethernet ports -/

/-- On the ports that have the feature, with the functions of the device running. ETH_LINK_DOWN of a port that is UP enters HOLD with the
down stamp and counts it; LINK_UP within the hold, or of a training port, enters UP with its stamp; ETH_HOLD_FLUSH 4 µs
after the hold, with no link, enters DOWN and counts the copies flushed. AN_CODE_WORD of a speed the lane carries is taken over.
SQI_REFRESH of a linked 100BASE-T1 port stores the quality, at most 7, and touches nothing else. PLCA_STATUS_CHANGE follows the status and
counts its loss. MM_VERIFY ends the verification in progress: VERIFIED and ACTIVE, or FAILED. -/
def Obligations.EthLinkChanges : Prop :=
  (∀ (s : State) (t p stamp : Nat), s.runs? = true → p < 24 → s.flag (pEPRT p) Fd.EPRT_STATE_LINK = true → s.ethSt p = 2 →
    (s.egr p).line = none → (s.egr p).susp = none → stamp < 2 ^ 64 →
    Completes (.ethLinkDown t p stamp) s fun u =>
      u.ethSt p = 3 ∧ u.flag (pEPRT p) Fd.EPRT_STATE_LINK = false ∧ u.rd64 (pEPRT p) Reg.EPRT_DOWN_STAMP_LO = stamp ∧
      (u.eth p).holdX = stamp + s.fld (pEPRT p) Fd.EPRT_HOLD_HOLD_MS * 1000000 ∧
      u.count (pEPRT p) Cn.EPRT_LINK_DOWNS = (s.count (pEPRT p) Cn.EPRT_LINK_DOWNS + 1) % 2 ^ 64 ∧ BytesKept s u ∧ QueuesKept s u) ∧
  (∀ (s : State) (t p stamp : Nat), s.runs? = true → p < 24 → s.flag (pEPRT p) Fd.EPRT_STATE_LINK = false →
    (s.ethSt p = 1 ∨ (s.ethSt p = 3 ∧ stamp ≤ (s.eth p).holdX)) → s.linkable p = true → s.tcSt p ≠ 2 → stamp < 2 ^ 64 →
    Completes (.linkUp t p stamp) s fun u =>
      u.ethSt p = 2 ∧ u.flag (pEPRT p) Fd.EPRT_STATE_LINK = true ∧ u.rd64 (pEPRT p) Reg.EPRT_UP_STAMP_LO = stamp ∧
      BytesKept s u ∧ QueuesKept s u) ∧
  (∀ (s : State) (t p : Nat), s.runs? = true → p < 24 → s.ethSt p = 3 → s.flag (pEPRT p) Fd.EPRT_STATE_LINK = false →
    (s.eth p).holdX + 4000 ≤ (s.advance t).now →
    s.entF (pFDB (if portOfSide 0 p then 0 else 1)) 3 0 p En.LPORT_FLUSH_ON_DOWN = 0 →
    Completes (.ethHoldFlush t p) s fun u =>
      u.ethSt p = 4 ∧ (u.eth p).flushed = true ∧
      u.count (pEPRT p) Cn.EPRT_FLUSHED = (s.count (pEPRT p) Cn.EPRT_FLUSHED + s.portCount p) % 2 ^ 64 ∧
      (∀ q, q < 8 → (u.queue (qkey p q)).count = 0) ∧ BytesKept s u ∧ QueuesKept s u) ∧
  (∀ (s : State) (t p speed : Nat), s.runs? = true → s.anOn p = true → s.ethSt p ≠ 0 → s.looped p = false →
    modeCarries (s.fld (pEPRT p) Fd.EPRT_PCS_MODE) speed = true →
    Completes (.anCodeWord t p speed true) s fun u =>
      u.fld (pEPRT p) Fd.EPRT_STATE_SPEED = speed ∧ u.flag (pEPRT p) Fd.EPRT_STATE_FULL = true ∧
      u.flag (pEPRT p) Fd.EPRT_STATE_AN_DONE = true ∧ BytesKept s u ∧ QueuesKept s u) ∧
  (∀ (s : State) (t p sqi : Nat), s.runs? = true → 12 ≤ p → p < 24 → s.flag (pEPRT p) Fd.EPRT_STATE_LINK = true →
    Completes (.sqiRefresh t p sqi) s fun u =>
      u.fld (pEPRT p) Fd.EPRT_STATE_SQI = min sqi 7 ∧ u.ethSt p = s.ethSt p ∧ RegsKept s u [pEPRT p * 4096 + Reg.EPRT_STATE] ∧
      TablesKept s u ∧ CountsKept s u ∧ BytesKept s u ∧ QueuesKept s u) ∧
  (∀ (s : State) (t p : Nat) (ok : Bool), s.runs? = true → 24 ≤ p → p < 32 → s.flag (pEPRT p) Fd.EPRT_PLCA_CTRL_EN = true →
    s.ethSt p = 2 → s.flag (pEPRT p) Fd.EPRT_PLCA_CTRL_STATUS ≠ ok →
    Completes (.plcaStatusChange t p ok) s fun u =>
      u.flag (pEPRT p) Fd.EPRT_PLCA_CTRL_STATUS = ok ∧
      u.count (pEPRT p) Cn.EPRT_PLCA_FAIL = (s.count (pEPRT p) Cn.EPRT_PLCA_FAIL + (if ok then 0 else 1)) % 2 ^ 64 ∧
      TablesKept s u ∧ BytesKept s u ∧ QueuesKept s u) ∧
  (∀ (s : State) (t p : Nat) (ok : Bool), s.runs? = true → p < 12 → s.fld (pEPRT p) Fd.EPRT_PMAC_STAT_VERIFY = 2 →
    Completes (.mmVerify t p ok) s fun u =>
      u.fld (pEPRT p) Fd.EPRT_PMAC_STAT_VERIFY = (if ok then 3 else 4) ∧ (ok = true → u.pmActive p = true) ∧
      (ok = false → u.pmActive p = s.pmActive p) ∧ BytesKept s u ∧ QueuesKept s u)

/-- On a port 12 to 23. SLEEP_REQ by an accepted write, in NORMAL with the link up and not under network management, sends the sleep
request and is pending; WAKE_REQ in SLEEP sends the wake-up pulse and starts waking. TC10_SLEEP_RECEIVED while pending puts the port to
sleep without link; in NORMAL without ACCEPT_REMOTE it is counted as not accepted. TC10_NACK after 64 ms goes back to NORMAL and
counts. TC10_WAKE in SLEEP, with the device in Clause and no network management running, starts waking. TC10_WAKING_TIMEOUT after 200 ms
goes back to SLEEP. -/
def Obligations.Tc10SleepAndWake : Prop :=
  (∀ (s : State) (t d p : Nat), 12 ≤ p → p < 24 → s.takes d (pEPRT p * 4096 + Reg.EPRT_TC10) (4 * s.fld (pEPRT p) Fd.EPRT_TC10_ACCEPT_REMOTE + 1) →
    s.flag (pEPRT p) Fd.EPRT_TC10_NM_CTL = false → s.tcSt p = 0 → s.flag (pEPRT p) Fd.EPRT_STATE_LINK = true →
    Completes (.sleepReq t d p) s fun u =>
      u.tcSt p = 1 ∧ u.out = s.out ++ [.sent "tc10 sleep request" [p]] ∧ (u.eth p).tcAt = (s.advance t).now ∧
      RegsKept s u [pEPRT p * 4096 + Reg.EPRT_TC10] ∧ TablesKept s u ∧ CountsKept s u ∧ BytesKept s u ∧ QueuesKept s u) ∧
  (∀ (s : State) (t d p : Nat), 12 ≤ p → p < 24 → s.takes d (pEPRT p * 4096 + Reg.EPRT_TC10) (4 * s.fld (pEPRT p) Fd.EPRT_TC10_ACCEPT_REMOTE + 2) →
    s.flag (pEPRT p) Fd.EPRT_TC10_NM_CTL = false → s.tcSt p = 2 →
    Completes (.wakeReq t d p) s fun u =>
      u.tcSt p = 3 ∧ u.out = s.out ++ [.sent "tc10 wake-up pulse" [p]] ∧ (u.eth p).tcAt = (s.advance t).now ∧
      RegsKept s u [pEPRT p * 4096 + Reg.EPRT_TC10] ∧ TablesKept s u ∧ CountsKept s u ∧ BytesKept s u ∧ QueuesKept s u) ∧
  (∀ (s : State) (t p : Nat), s.runs? = true → 12 ≤ p → p < 24 → s.flag (pEPRT p) Fd.EPRT_STATE_LINK = true → s.tcSt p = 1 →
    (s.advance t).now ≤ (s.eth p).tcAt + 64000000 →
    Completes (.tc10SleepReceived t p) s fun u =>
      u.tcSt p = 2 ∧ u.ethSt p = 5 ∧ u.flag (pEPRT p) Fd.EPRT_STATE_LINK = false ∧ BytesKept s u ∧ QueuesKept s u) ∧
  (∀ (s : State) (t p : Nat), s.runs? = true → 12 ≤ p → p < 24 → s.flag (pEPRT p) Fd.EPRT_STATE_LINK = true → s.tcSt p = 0 →
    s.flag (pEPRT p) Fd.EPRT_TC10_ACCEPT_REMOTE = false →
    Completes (.tc10SleepReceived t p) s fun u =>
      u.count (pEPRT p) Cn.EPRT_TC10_NACK = (s.count (pEPRT p) Cn.EPRT_TC10_NACK + 1) % 2 ^ 64 ∧
      RegsKept s u [] ∧ TablesKept s u ∧ BytesKept s u ∧ QueuesKept s u) ∧
  (∀ (s : State) (t p : Nat), s.runs? = true → 12 ≤ p → p < 24 → s.tcSt p = 1 → (s.eth p).tcAt + 64000000 ≤ (s.advance t).now →
    s.clOfPort p = [] →
    Completes (.tc10Nack t p) s fun u =>
      u.tcSt p = 0 ∧ u.count (pEPRT p) Cn.EPRT_TC10_NACK = (s.count (pEPRT p) Cn.EPRT_TC10_NACK + 1) % 2 ^ 64 ∧
      TablesKept s u ∧ BytesKept s u ∧ QueuesKept s u) ∧
  (∀ (s : State) (t p stamp : Nat), s.boot = .ready → s.pwr = .clause → 12 ≤ p → p < 24 → s.enabled (pEPRT p) = true →
    s.tcSt p = 2 → s.nmUp = false →
    Completes (.tc10Wake t p stamp) s fun u =>
      u.tcSt p = 3 ∧ (u.eth p).tcAt = (s.advance t).now ∧ TablesKept s u ∧ BytesKept s u ∧ QueuesKept s u) ∧
  (∀ (s : State) (t p : Nat), s.runs? = true → 12 ≤ p → p < 24 → s.tcSt p = 3 → (s.eth p).tcAt + 200000000 ≤ (s.advance t).now →
    Completes (.tc10WakingTimeout t p) s fun u => u.tcSt p = 2 ∧ TablesKept s u ∧ BytesKept s u ∧ QueuesKept s u)

/-- On an enabled port that is UP. ETH_FRAME_RECEIVED with receive disabled is counted and discarded; a good frame of a legal length on
ports 24 to 31, which have no MACsec, with an operating switch core that has room, joins its pipeline with the ingress stamp
less the receive latency. ETH_FRAME_TRANSMITTED ends the frame on the line: it is counted and leaves with its egress stamp.
AGE_CHECK of a port in HOLD or FROZEN takes the next check stamp, and discards and counts a frame older than its limit. -/
def Obligations.EthFramesAndAges : Prop :=
  (∀ (s : State) (t p : Nat) (f : EthRx), s.runs? = true → p < 32 → s.enabled (pEPRT p) = true → s.ethSt p = 2 →
    s.looped p = false → f.mm = 0 → s.fld (pEPRT p) Fd.EPRT_CFG_LOOP ≠ 3 → s.flag (pEPRT p) Fd.EPRT_CFG_RX_EN = false →
    Completes (.ethFrameReceived t p f []) s fun u =>
      u.count (pEPRT p) Cn.EPRT_RX_DISCARD = (s.count (pEPRT p) Cn.EPRT_RX_DISCARD + 1) % 2 ^ 64 ∧
      u.count (pEPRT p) Cn.EPRT_RX_FRAMES = (s.count (pEPRT p) Cn.EPRT_RX_FRAMES + 1) % 2 ^ 64 ∧
      u.count (pEPRT p) Cn.EPRT_RX_OCTETS = (s.count (pEPRT p) Cn.EPRT_RX_OCTETS + f.bytes.length) % 2 ^ 64 ∧
      RegsKept s u [] ∧ TablesKept s u ∧ BytesKept s u ∧ QueuesKept s u) ∧
  (∀ (s : State) (t p : Nat) (f : EthRx), s.runs? = true → 24 ≤ p → p < 32 → s.enabled (pEPRT p) = true → s.ethSt p = 2 →
    s.looped p = false → f.mm = 0 → s.fld (pEPRT p) Fd.EPRT_CFG_LOOP ≠ 3 → s.flag (pEPRT p) Fd.EPRT_CFG_RX_EN = true →
    s.frozen (pEPRT p) = false → f.err = false → fcsOf (f.bytes.take (f.bytes.length - 4)) = f.bytes.drop (f.bytes.length - 4) →
    64 ≤ f.bytes.length → f.bytes.length ≤ s.fld (pEPRT p) Fd.EPRT_CFG_MAX_LEN → beNat ((f.bytes.drop 12).take 2) ≠ 0x8808 →
    s.enabled pSWC = true → s.frozen pSWC = false → cellsOf f.bytes.length ≤ s.free →
    Completes (.ethFrameReceived t p f []) s fun u =>
      let side := if portOfSide 0 p then 0 else 1
      let at_ := f.start - s.fld (pEPRT p) Fd.EPRT_RX_LAT_LAT * 256
      (∃ c : Copy, smGet [] side u.swc.front = smGet [] side s.swc.front ++ [c] ∧ c.bytes = f.bytes ∧ c.info.port = p ∧
        c.info.stamp = at_ / 65536 % 2 ^ 64 ∧ c.info.frac = at_ % 65536 ∧ c.info.fin = f.fin ∧ c.pkt = some s.swc.nextPkt) ∧
      u.free = s.free - cellsOf f.bytes.length ∧
      u.count (pEPRT p) Cn.EPRT_RX_FRAMES = (s.count (pEPRT p) Cn.EPRT_RX_FRAMES + 1) % 2 ^ 64 ∧
      TablesKept s u ∧ BytesKept s u ∧ QueuesKept s u) ∧
  (∀ (s : State) (t p start coll late : Nat) (x : OnLine), s.runs? = true → p < 32 → (s.egr p).line = some x → coll < 16 →
    x.copy.ct = false → x.err = false → s.looped p = false → s.entF pTRN 0 0 p En.ETAP_TX_MODE = 0 →
    Completes (.ethFrameTransmitted t p start coll late) s fun u =>
      let out := start + s.fld (pEPRT p) Fd.EPRT_TX_LAT_LAT * 256
      (u.egr p).line = none ∧ Out.sent "eth" (p :: (out / 65536 % 2 ^ 64) :: x.copy.bytes) ∈ u.out ∧
      u.count (pEPRT p) Cn.EPRT_TX_FRAMES = (s.count (pEPRT p) Cn.EPRT_TX_FRAMES + 1) % 2 ^ 64 ∧
      u.count (pEPRT p) Cn.EPRT_TX_OCTETS = (s.count (pEPRT p) Cn.EPRT_TX_OCTETS + x.copy.bytes.length) % 2 ^ 64 ∧
      BytesKept s u ∧ QueuesKept s u) ∧
  (∀ (s : State) (t p : Nat), s.runs? = true → p < 32 → (s.ethSt p = 3 ∨ s.flag (pEPRT p) Fd.EPRT_STATE_FROZEN = true) →
    (s.eth p).checkFrom ≤ (s.advance t).now → (∀ q, q < 8 → (s.queue (qkey p q)).count = 0) →
    Completes (.ageCheck t p) s fun u =>
      (u.eth p).checkFrom = (s.eth p).checkFrom + 100000 ∧ RegsKept s u [] ∧ TablesKept s u ∧ CountsKept s u ∧ BytesKept s u) ∧
  (∀ (s : State) (t p : Nat) (c : Copy), s.runs? = true → p < 32 → s.ethSt p = 3 → (s.eth p).checkFrom ≤ (s.advance t).now →
    s.queue (qkey p 0) = { h := [c] } → s.aged p 0 (s.eth p).checkFrom c.info.stamp = true →
    (∀ q, q < 8 → q ≠ 0 → (s.queue (qkey p q)).count = 0) →
    Completes (.ageCheck t p) s fun u =>
      (u.queue (qkey p 0)).count = 0 ∧
      u.count (pEPRT p) Cn.EPRT_AGED = (s.count (pEPRT p) Cn.EPRT_AGED + 1) % 2 ^ 64 ∧ BytesKept s u)

/-! ### Pipelines, forwarding databases and the switch core -/

/-- PIPELINE_ENTRY with one packet at the front of an operating pipeline, on a port without lanes, taps, mirrors and samples, that
parses cleanly, has a VLAN that does not learn and a destination entry of one member port: the packet is counted in PKTS and NO_HIT and
waits, decided, with exactly that destination, the untagged set of its VLAN and the class of its PCP. COPY_ENQUEUE of such a packet, whose
frame has ended, to an UP port with room in a LOCAL queue: its copy, tagged as the VLAN asks, is at the end of that queue and counted in
ENQ. -/
def Obligations.PacketsAreDecidedAndEnqueued : Prop :=
  (∀ (s : State) (t i q idx : Nat) (c : Copy) (h : Hdr) (v : Entry), s.runs? = true → i < 2 → s.enabled (pPIPE i) = true →
    s.frozen (pPIPE i) = false → (s.queue 288).h = [] → smGet [] i s.swc.front = [c] → c.info.port < 37 → c.info.act = none →
    s.parse i c.info.port c.bytes = (h, none) → h.bad = false → h.deep = false → s.pportF i c.info.port En.PPORT_ACCEPT = 0 →
    s.pportF i c.info.port En.PPORT_LANE_MASK = 0 → s.entF pSWC 0 0 c.info.port En.SPORT_RX_MIRROR_EN = 0 →
    s.entF pSWC 0 0 c.info.port En.SPORT_RX_SAMPLE_EN = 0 → s.enabled pGPTP = false →
    s.entF pTRN 0 0 c.info.port En.ETAP_RX_MODE = 0 → s.vlanFor i c.info.port (s.tagOfHdr i c.info.port h).1 = some v →
    fget v En.VLAN_LEARN_EN = 0 → s.fdbFind i (s.fdbBank i) (fget v En.VLAN_FID) h.sa = none → s.enabled (pFDB i) = true →
    s.fdbFind i (s.fdbBank i) (fget v En.VLAN_FID) h.da = some idx → isXlrn (s.slotAt i (s.fdbBank i) idx) = false →
    fget (s.slotAt i (s.fdbBank i) idx) En.FENT_DROP = 0 → fget (s.slotAt i (s.fdbBank i) idx) En.FENT_GROUP = 0 →
    fget (s.slotAt i (s.fdbBank i) idx) En.FENT_DEST = q → q ≠ c.info.port → q < 35 → (fget v En.VLAN_MEMBER).testBit q = true →
    Completes (.pipelineEntry t i [] 0 []) s fun u =>
      (∃ k : Packet, u.swc.decided = s.swc.decided ++ [k] ∧ k.dests = [q] ∧ k.bytes = c.bytes ∧ k.side = i ∧
        k.vid = (s.tagOfHdr i c.info.port h).1 ∧ k.untag = fget v En.VLAN_UNTAG &&& fget v En.VLAN_MEMBER ∧
        k.tc = s.pportF i c.info.port En.PPORT_PCP_TO_TC / 2 ^ (3 * (s.tagOfHdr i c.info.port h).2.1) % 8) ∧
      smGet [] i u.swc.front = [] ∧
      u.count (pPIPE i) Cn.PIPE_PKTS = (s.count (pPIPE i) Cn.PIPE_PKTS + 1) % 2 ^ 64 ∧
      u.count (pPIPE i) Cn.PIPE_NO_HIT = (s.count (pPIPE i) Cn.PIPE_NO_HIT + 1) % 2 ^ 64 ∧
      RegsKept s u [] ∧ TablesKept s u ∧ BytesKept s u ∧ QueuesKept s u) ∧
  (∀ (s : State) (t p : Nat) (k : Packet), s.runs? = true → s.swc.decided = [k] → k.info.fin ≤ (s.advance t).now → k.info.bad = false →
    k.traps = [] → k.mirrors = [] → k.samples = [] → k.recirc = none → k.dests = [p] → k.sf = none → p < 32 → k.tc < 8 →
    s.enabled pSWC = true → s.frozen pSWC = false → s.ethSt p = 2 →
    (s.copyBytes p k).length ≤ s.fld (pEPRT p) Fd.EPRT_CFG_MAX_LEN → s.fld pSWC Fd.SWC_QENTRY_FREE_FREE ≠ 0 →
    (s.queue (qkey p k.tc)).occupancy + k.mem ≤ s.fld pSWC (Fd.SWC_CLASS_QMAX_QMAX.at 8 k.tc) →
    s.fld pSWC (Fd.SWC_CLASS_CFG_FLOOR.at 8 k.tc) ≤ s.free → s.qstate (qkey p k.tc) = 0 →
    s.flag pSWC Fd.SWC_SPILL_STAT_ACTIVE = false → s.entF pSWC 0 0 p En.SPORT_TX_MIRROR_EN = 0 →
    Completes (.copyEnqueue t [] 0) s fun u =>
      u.swc.decided = [] ∧
      (∃ c : Copy, (u.queue (qkey p k.tc)).h = (s.queue (qkey p k.tc)).h ++ [c] ∧ c.bytes = s.copyBytes p k ∧
        c.enq = (s.advance t).now ∧ c.kind = 0) ∧
      u.count pSWC Cn.SWC_ENQ = (s.count pSWC Cn.SWC_ENQ + 1) % 2 ^ 64 ∧ BytesKept s u ∧ QueuesKept s u)

/-- On an operating database that is not frozen and not being rebuilt. LEARN_APPLY of a new key with a free slot, and XLEARN_OFFER_APPLY
of one, put a fresh entry there; AGING_SWEEP_STEP that is due removes a dynamic entry without HIT, clears HIT otherwise, and
moves on. SEARCH leaves the found slot in DATA0 to DATA7 with OK and its index, or NOT_FOUND; NEXT answers the first entry that
passes; INSERT of a new key fills a free slot; DELETE clears the key's slot; FLUSH_PORT clears every slot it names and counts them;
HASH answers both buckets. -/
def Obligations.ForwardingDatabase : Prop :=
  (∀ (s : State) (t i idx : Nat) (r : LearnReq), s.runs? = true → i < 2 → s.fdbOn i = true → (s.fdb i).late = [] →
    (s.fdb i).learn = [r] → r.ready ≤ (s.advance t).now → s.fdbFind i (s.fdbBank i) r.fid r.mac = none → s.overLimit i r.port = false →
    s.freeSlot i (s.fdbBank i) (s.keySlots i (s.fdbBank i) 0 r.fid r.mac ++ s.keySlots i (s.fdbBank i) 1 r.fid r.mac) = some idx →
    r.fid < 4096 → r.mac < 2 ^ 48 → s.mirrored i = false → s.flag (pFDB i) Fd.FDB_CFG_XLEARN_OUT = false →
    Completes (.learnApply t i) s fun u =>
      u.slotAt i (s.fdbBank i) idx = (s.advance t).newEntry r.fid r.mac r.port false ∧ (u.fdb i).learn = [] ∧
      u.count (pFDB i) Cn.FDB_LEARNED = (s.count (pFDB i) Cn.FDB_LEARNED + 1) % 2 ^ 64 ∧ BytesKept s u ∧ QueuesKept s u) ∧
  (∀ (s : State) (t i idx : Nat) (r : LearnReq) (l : List LearnReq), s.runs? = true → i < 2 → s.fdbOn i = true →
    (s.fdb i).offers = r :: l → s.fdbFind i (s.fdbBank i) r.fid r.mac = none →
    s.freeSlot i (s.fdbBank i) (s.keySlots i (s.fdbBank i) 0 r.fid r.mac ++ s.keySlots i (s.fdbBank i) 1 r.fid r.mac) = some idx →
    r.fid < 4096 → r.mac < 2 ^ 48 → s.mirrored i = false →
    Completes (.xlearnOfferApply t i) s fun u =>
      u.slotAt i (s.fdbBank i) idx = (s.advance t).newEntry r.fid r.mac r.port true ∧ (u.fdb i).offers = l ∧
      BytesKept s u ∧ QueuesKept s u) ∧
  (∀ (s : State) (t i pos : Nat), s.runs? = true → i < 2 → s.fdbOn i = true → s.mirrored i = false →
    s.fld (pFDB i) Fd.FDB_AGE_AGE_SEC ≠ 0 →
    (s.fdb i).sweepAt + s.fld (pFDB i) Fd.FDB_AGE_AGE_SEC * 1000000000 / 16448 ≤ (s.advance t).now →
    s.fld (pFDB i) Fd.FDB_SWEEP_POS = pos → pos < 16384 → (s.fdb i).bad = [] →
    isValid (s.slotAt i (s.fdbBank i) pos) = true → isStatic (s.slotAt i (s.fdbBank i) pos) = false →
    Completes (.agingSweepStep t i) s fun u =>
      let e := s.slotAt i (s.fdbBank i) pos
      u.slotAt i (s.fdbBank i) pos = (if fget e En.FENT_HIT = 0 then 0 else fput e En.FENT_HIT 0) ∧
      u.fld (pFDB i) Fd.FDB_SWEEP_POS = pos + 1 ∧
      u.count (pFDB i) Cn.FDB_AGED = (s.count (pFDB i) Cn.FDB_AGED + (if fget e En.FENT_HIT = 0 then 1 else 0)) % 2 ^ 64 ∧
      BytesKept s u ∧ QueuesKept s u) ∧
  (∀ (s : State) (t d i : Nat), i < 2 → s.commands d (pFDB i) 8 →
    Completes (.search t d i) s fun u =>
      let x := s.winData (pFDB i); let b := s.winBank (pFDB i) 0
      WinRuns u d (pFDB i) 0 ∧
      (∀ idx, s.fdbFind i b (fget x En.FENT_FID) (fget x En.FENT_MAC) = some idx →
        DataHolds u (pFDB i) (s.slotAt i b idx) ∧ u.fld (pFDB i) Fd.FDB_WIN_RESULT_CODE = 0 ∧
        u.fld (pFDB i) Fd.FDB_WIN_RESULT_INDEX = idx) ∧
      (s.fdbFind i b (fget x En.FENT_FID) (fget x En.FENT_MAC) = none → u.fld (pFDB i) Fd.FDB_WIN_RESULT_CODE = 1) ∧
      RegsKept s u (winRegs (pFDB i) ++ [pFDB i * 4096 + Reg.FDB_WIN_RESULT]) ∧ TablesKept s u ∧ CountsKept s u ∧ BytesKept s u) ∧
  (∀ (s : State) (t d i : Nat), i < 2 → s.commands d (pFDB i) 9 →
    Completes (.fdbNext t d i) s fun u =>
      let found := (s.tabList (pFDB i) 0 (s.winBank (pFDB i) 0)).find? fun x => s.fld (pFDB i) Fd.WIN_INDEX ≤ x.1 && s.nextPass i x.2
      WinRuns u d (pFDB i) 0 ∧
      (∀ x, found = some x → u.fld (pFDB i) Fd.FDB_WIN_RESULT_CODE = 0 ∧ u.fld (pFDB i) Fd.FDB_WIN_RESULT_INDEX = x.1 % 2 ^ 15) ∧
      (found = none → u.fld (pFDB i) Fd.FDB_WIN_RESULT_CODE = 1) ∧
      RegsKept s u [pFDB i * 4096 + Reg.WIN_CMD_STATUS, pFDB i * 4096 + Reg.FDB_WIN_RESULT] ∧ TablesKept s u ∧ CountsKept s u ∧
      BytesKept s u) ∧
  (∀ (s : State) (t d i idx : Nat) (e : Entry), i < 2 → s.commands d (pFDB i) 10 → s.flag (pFDB i) Fd.WIN_BANK = false →
    insertCheck (s.winData (pFDB i)) = none → s.mirrored i = false →
    e = fput (fput (s.winData (pFDB i) &&& BitVec.ofNat 256 En.FENT_rw) En.FENT_VALID 1) En.FENT_STAMP (s.advance t).now →
    s.fdbFind i (s.fdbBank i) (fget e En.FENT_FID) (fget e En.FENT_MAC) = none →
    s.freeSlot i (s.fdbBank i) (s.keySlots i (s.fdbBank i) 0 (fget e En.FENT_FID) (fget e En.FENT_MAC)
      ++ s.keySlots i (s.fdbBank i) 1 (fget e En.FENT_FID) (fget e En.FENT_MAC)) = some idx →
    Completes (.insert t d i) s fun u =>
      WinRuns u d (pFDB i) 0 ∧ u.slotAt i (s.fdbBank i) idx = e ∧ u.fld (pFDB i) Fd.FDB_WIN_RESULT_CODE = 0 ∧
      u.fld (pFDB i) Fd.FDB_WIN_RESULT_INDEX = idx ∧ BytesKept s u) ∧
  (∀ (s : State) (t d i idx : Nat), i < 2 → s.commands d (pFDB i) 11 → s.flag (pFDB i) Fd.WIN_BANK = false → s.mirrored i = false →
    s.fdbFind i (s.fdbBank i) (fget (s.winData (pFDB i)) En.FENT_FID) (fget (s.winData (pFDB i)) En.FENT_MAC) = some idx →
    Completes (.delete t d i) s fun u =>
      WinRuns u d (pFDB i) 0 ∧ u.slotAt i (s.fdbBank i) idx = 0 ∧ u.fld (pFDB i) Fd.FDB_WIN_RESULT_CODE = 0 ∧
      u.fld (pFDB i) Fd.FDB_WIN_RESULT_INDEX = idx ∧ BytesKept s u) ∧
  (∀ (s : State) (t d i : Nat), i < 2 → s.commands d (pFDB i) 12 → s.flag (pFDB i) Fd.WIN_BANK = false → s.mirrored i = false →
    Completes (.flushPort t d i) s fun u =>
      let x := s.winData (pFDB i)
      let l := (s.tabList (pFDB i) 0 (s.fdbBank i)).filter fun y => isValid y.2 &&
        ((bitsOf x 6 1 = 1 || !isStatic y.2) && (bitsOf x 7 1 = 1 || (fget y.2 En.FENT_GROUP = 0 && fget y.2 En.FENT_DEST = bitsOf x 0 6)))
      WinRuns u d (pFDB i) 0 ∧ (∀ y ∈ l, u.slotAt i (s.fdbBank i) y.1 = 0) ∧
      u.count (pFDB i) Cn.FDB_FLUSHED = (s.count (pFDB i) Cn.FDB_FLUSHED + l.length) % 2 ^ 64 ∧ BytesKept s u) ∧
  (∀ (s : State) (t d i : Nat), i < 2 → s.commands d (pFDB i) 14 →
    Completes (.fdbHash t d i) s fun u =>
      let x := s.winData (pFDB i); let b := s.winBank (pFDB i) 0
      WinRuns u d (pFDB i) 0 ∧
      u.fld (pFDB i) Fd.FDB_WIN_HASH_B0 = s.fdbBucket i b 0 (fget x En.FENT_FID) (fget x En.FENT_MAC) ∧
      u.fld (pFDB i) Fd.FDB_WIN_HASH_B1 = s.fdbBucket i b 1 (fget x En.FENT_FID) (fget x En.FENT_MAC) ∧
      TablesKept s u ∧ CountsKept s u ∧ BytesKept s u)

/-- REHASH with the standby bank selected clears every slot of that bank and starts mirroring; REHASH_DONE of a rebuild that places
every entry ends READY with the result OK. SPILL_WRITE_DONE moves the packet at the front of a queue's tail to the end of its spilled
part and counts it; REFILL_DONE without an error moves the front of the spilled part to the head's end and counts it;
FLUSH_RELEASE_DONE gives the queue entries of a flushed queue back and forgets its copies. -/
def Obligations.RebuildsSpillsAndReleases : Prop :=
  (∀ (s : State) (t d i : Nat), i < 2 → s.commands d (pFDB i) 13 → s.flag (pFDB i) Fd.WIN_BANK = true →
    Completes (.rehash t d i) s fun u =>
      WinRuns u d (pFDB i) 0 ∧ u.fld (pFDB i) fRebuild = 1 ∧ u.flag (pFDB i) fRebuilt = false ∧
      (∀ idx, idx < 16448 → u.slotAt i (1 - s.fdbBank i) idx = 0) ∧
      (s.fdbBank i ≤ 1 → ∀ idx, idx < 16448 → u.slotAt i (s.fdbBank i) idx = s.slotAt i (s.fdbBank i) idx) ∧
      CountsKept s u ∧ BytesKept s u) ∧
  (∀ (s : State) (t i : Nat), i < 2 → s.live = true → s.fld (pFDB i) fRebuild = 1 →
    ((s.advance t).rebuildAll i (((s.tabList (pFDB i) 0 (s.fdbBank i)).map (·.2)).filter isValid)).1 = true →
    Completes (.rehashDone t i) s fun u =>
      u.fld (pFDB i) fRebuild = 2 ∧ u.flag (pFDB i) fRebuilt = true ∧ u.fld (pFDB i) Fd.FDB_WIN_RESULT_CODE = 0) ∧
  (∀ (s : State) (t k : Nat) (c : Copy) (l : List Copy), s.runs? = true → s.frozen pSWC = false → s.spillNext = some k →
    (s.queue k).t = c :: l →
    s.fld pSWC Fd.SWC_SPILL_STAT_USED + (spillBlocks ((s.queue k).m ++ [{ c with pkt := none }]) - spillBlocks (s.queue k).m)
      ≤ s.fld pSWC Fd.SWC_SPILL_BLOCKS_BLOCKS →
    Completes (.spillWriteDone t) s fun u =>
      (u.queue k).m = (s.queue k).m ++ [{ c with pkt := none }] ∧ (u.queue k).t = l ∧ (u.queue k).h = (s.queue k).h ∧
      u.count pSWC Cn.SWC_SPILL_OUT = (s.count pSWC Cn.SWC_SPILL_OUT + 1) % 2 ^ 64 ∧ BytesKept s u) ∧
  (∀ (s : State) (t k : Nat) (c x : Copy) (l : List Copy), s.runs? = true → s.frozen pSWC = false → k < 288 →
    (s.queue k).m = c :: x :: l → s.mayRefill k c = true → s.qstate k = 2 →
    Completes (.refillDone t k false) s fun u =>
      (u.queue k).m = x :: l ∧ (u.queue k).h = (s.queue k).h ++ [{ c with pkt := some s.swc.nextPkt }] ∧
      u.count pSWC Cn.SWC_SPILL_IN = (s.count pSWC Cn.SWC_SPILL_IN + 1) % 2 ^ 64 ∧ BytesKept s u) ∧
  (∀ (s : State) (t k : Nat), s.runs? = true →
    Completes (.flushReleaseDone t k) s fun u =>
      let old := smGet ([], []) k s.swc.flushed
      smGet ([], []) k u.swc.flushed = ([], []) ∧
      u.fld pSWC Fd.SWC_QENTRY_FREE_FREE = (s.fld pSWC Fd.SWC_QENTRY_FREE_FREE + old.1.length + old.2.length) % 2 ^ 18 ∧ BytesKept s u)

/-! ### Egress selection and redundant streams -/

/-- With the functions of the device running. TRANSMISSION_SELECTION of a port that can send, with one strict-priority queue holding one
copy, no list, no preemption, no MACsec and no limits, takes exactly that copy onto the line and counts it in DEQ.
GATE_EVENT that reaches another entry joins it; MAC_HOLD_ASSERT ahead of a hold entry asserts the hold. GCL_COMMIT of an acceptable list
makes it PENDING with its change point; GCL_CANCEL goes back; GCL_CHANGED at the change point starts or ends the list and counts.
FRER_WINDOW_END closes a decided set and frees its entry; FRER_RESET after the deadline clears the history and takes any number. -/
def Obligations.EgressSelectionAndGates : Prop :=
  (∀ (s : State) (t p q : Nat) (c : Copy), s.runs? = true → p < 32 → q < 8 → s.canSend p = true → (s.egr p).line = none →
    (s.egr p).susp = none → s.queue (qkey p q) = { h := [c] } → (∀ k, k < 8 → k ≠ q → (s.queue (qkey p k)).h = []) →
    s.fld (pEPRT p) (Fd.EPRT_AGE_LIMIT.at 4 q) = 0 → s.eqF p q En.EQ_MAX_SDU = 0 → s.entF pEGR 0 0 p En.EPORT_GUARD_EN = 0 →
    s.gclSt p = 0 → s.tsa p q = 0 → s.pmActive p = false → s.enabled (pMSEC 0) = false → s.qstate (qkey p q) = 0 →
    s.flag pSWC Fd.SWC_SPILL_STAT_ACTIVE = false →
    Completes (.transmissionSelection t p none 0 []) s fun u =>
      (u.egr p).line = some ⟨q, c, (s.advance t).now, false, false⟩ ∧ (u.queue (qkey p q)).h = [] ∧
      u.count pSWC Cn.SWC_DEQ = (s.count pSWC Cn.SWC_DEQ + 1) % 2 ^ 64 ∧ BytesKept s u ∧ QueuesKept s u) ∧
  (∀ (s : State) (t p : Nat) (g : GateSeg), s.runs? = true → p < 32 → s.gclRuns p = true → (s.egr p).line = none →
    gateAt (s.segsOf p 0) (s.gclPhase p 0 ((s.advance t).viewNow (s.glpF p 0 En.GLP_VIEW))) = some g → g.e ≠ s.glpF p 0 En.GLP_ENTRY →
    Completes (.gateEvent t p none) s fun u =>
      u.glpF p 0 En.GLP_ENTRY = g.e % 2 ^ En.GLP_ENTRY.w ∧ (u.egr p).gates = fget g.ent En.GLE_GATES ∧ RegsKept s u [] ∧
      CountsKept s u ∧ BytesKept s u) ∧
  (∀ (s : State) (t p : Nat), s.runs? = true → p < 12 → s.pmActive p = true → s.gclRuns p = true → (s.egr p).line = none →
    holdsSoon (s.segsOf p 0) (s.glpF p 0 En.GLP_CYCLE) (s.gclPhase p 0 ((s.advance t).viewNow (s.glpF p 0 En.GLP_VIEW)))
      (s.entF pEGR 0 0 p En.EPORT_HOLD_ADV) = true →
    Completes (.macHoldAssert t p) s fun u =>
      (u.egr p).hold = true ∧ u.holdOn p = true ∧ RegsKept s u [] ∧ TablesKept s u ∧ CountsKept s u ∧ BytesKept s u) ∧
  (∀ (s : State) (t d p : Nat), p < 32 → s.takes d (pEGR * 4096 + Reg.EGR_GCL_CMD) (2 ^ 31 + 256 + p) → s.gclBad p = false →
    Completes (.gclCommit t d p) s fun u =>
      u.gclSt p = 2 ∧ (u.egr p).before = s.gclSt p ∧ (u.egr p).changeView = ((s.advance t).changePoint p).1 ∧
      (u.egr p).changeAt = ((s.advance t).changePoint p).2 ∧ CountsKept s u ∧ BytesKept s u) ∧
  (∀ (s : State) (t d p : Nat), p < 32 → s.takes d (pEGR * 4096 + Reg.EGR_GCL_CMD) (2 ^ 31 + 512 + p) → s.gclSt p = 2 →
    (s.egr p).before < 4 →
    Completes (.gclCancel t d p) s fun u => u.gclSt p = (s.egr p).before ∧ CountsKept s u ∧ BytesKept s u) ∧
  (∀ (s : State) (t p : Nat), s.runs? = true → p < 32 → s.gclSt p = 2 → (s.egr p).line = none →
    (s.egr p).changeAt ≤ (s.advance t).viewNow (s.egr p).changeView →
    Completes (.gclChanged t p) s fun u =>
      u.gclSt p = (if s.glpF p 1 En.GLP_LEN = 0 then 0 else 1) ∧
      u.count pEGR Cn.EGR_GCL_CHANGES = (s.count pEGR Cn.EGR_GCL_CHANGES + 1) % 2 ^ 64 ∧ BytesKept s u) ∧
  (∀ (s : State) (t : Nat) (x : FrSet), s.runs? = true → s.frer.sets = [x] → x.fin + 4000 ≤ (s.advance t).now → x.done = true →
    x.contents.all (fun c => c.held.isNone) = true →
    Completes (.frerWindowEnd t) s fun u =>
      u.frer.sets = [] ∧
      u.fld pEGR Fd.EGR_FRER_FREE_SETS = (s.fld pEGR Fd.EGR_FRER_FREE_SETS + 1) % 2 ^ Fd.EGR_FRER_FREE_SETS.w ∧
      TablesKept s u ∧ CountsKept s u ∧ BytesKept s u) ∧
  (∀ (s : State) (t f x : Nat), s.runs? = true → f < 512 → s.frDeadline f = some x → x + 4000 ≤ (s.advance t).now →
    Completes (.frerReset t f) s fun u =>
      u.recF f En.RECF_HISTORY = 0 ∧ u.recF f En.RECF_TAKE_ANY = 1 ∧ smGet 0 f u.frer.lastR = 0 ∧ RegsKept s u [] ∧
      CountsKept s u ∧ BytesKept s u)

/-! ### Host domains -/

/-- With the functions of the device running, and rings in host memory (LOC = 0). HOST_TX_FETCH of a descriptor the host owns, of a
legal length and with room, advances HEAD, counts the frame and puts it, padded and with its FCS, at the front of its pipeline with
the fetch's stamp. HOST_RX_DELIVERY writes the copy on the line into the buffer, advances HEAD and counts. TX_COMPLETION and NO_STAMP
write the completion that is known or overdue. DOORBELL stores TAIL; COAL_TIMER signals a ring that waits; BUS_MASTER_ENABLE, VEC_EOI and
MSIX_UNMASK change the bits they name. -/
def Obligations.RingsAndVectors : Prop :=
  (∀ (s : State) (t e x : Nat) (desc frame : List Nat), s.runs? = true → e < 2 → s.enabled pSWC = true → s.frozen pSWC = false →
    s.nextRing e = some x → s.ringF (2 * e + x / 4) 0 (x % 4) En.RING_LOC = 0 → (nth 0 desc 10).testBit 0 = true →
    14 ≤ leNat ((desc.drop 8).take 2) → leNat ((desc.drop 8).take 2) ≤ 9212 →
    max (s.fld pSWC Fd.SWC_HOST_FLOOR_LEVEL) (cellsOf (max 64 (leNat ((desc.drop 8).take 2) + 4))) ≤ s.free →
    Completes (.hostTxFetch t e desc frame false) s fun u =>
      let d := 2 * e + x / 4; let r := x % 4; let len := leNat ((desc.drop 8).take 2)
      u.ringF d 0 r En.RING_HEAD = (s.ringF d 0 r En.RING_HEAD + 1) % 2 ^ s.ringF d 0 r En.RING_LOG2_SIZE ∧
      (∃ c : Copy, smGet [] 0 u.swc.front = smGet [] 0 s.swc.front ++ [c] ∧ c.bytes = refcs (fitTo 0 (max 60 len) (frame.take len)) ∧
        c.info.port = 32 + e ∧ c.info.stamp = (s.advance t).now ∧ c.info.frac = (s.advance t).nowFrac) ∧
      u.count (pHDOM d) Cn.HDOM_TX_FRAMES = (s.count (pHDOM d) Cn.HDOM_TX_FRAMES + 1) % 2 ^ 64 ∧ BytesKept s u ∧ QueuesKept s u) ∧
  (∀ (s : State) (t p d r : Nat) (x : OnLine) (desc : List Nat), s.runs? = true → (p = 32 ∨ p = 33 ∨ p = 35) →
    (s.egr p).line = some x → x.copy.kind = 0 → s.rxRing p x.q = some (d, r) → s.ringEmpty d 1 r = false → (s.dom d).bme = true →
    s.ringF d 1 r En.RING_LOC = 0 → (nth 0 desc 10).testBit 0 = true → 64 ≤ leNat ((desc.drop 8).take 2) →
    leNat ((desc.drop 8).take 2) ≤ 16384 → leNat ((desc.drop 8).take 2) % 64 = 0 →
    Completes (.hostRxDelivery t p desc false) s fun u =>
      let data := (x.copy.bytes.take (x.copy.bytes.length - 4)).take (leNat ((desc.drop 8).take 2))
      (u.egr p).line = none ∧ Out.sent "dma write" (d :: leNat (desc.take 8) :: data) ∈ u.out ∧
      u.ringF d 1 r En.RING_HEAD = (s.ringF d 1 r En.RING_HEAD + 1) % 2 ^ s.ringF d 1 r En.RING_LOG2_SIZE ∧
      u.count (pHDOM d) Cn.HDOM_RX_FRAMES = (s.count (pHDOM d) Cn.HDOM_RX_FRAMES + 1) % 2 ^ 64 ∧ BytesKept s u ∧ QueuesKept s u) ∧
  (∀ (s : State) (t d r st : Nat) (w : TxWait), s.runs? = true → d < 4 → r < 4 → (s.ringRt d 0 r).waits = [w] → w.status = some st →
    w.loc = 0 →
    Completes (.txCompletion t d r) s fun u =>
      (u.ringRt d 0 r).waits = [] ∧
      Out.sent "dma write" (d :: (w.addr + 16) :: (leBytes 8 w.result.1 ++ [st, w.result.2.2] ++ leBytes 2 w.result.2.1 ++ [0, 0, 0, 0])) ∈ u.out ∧
      RegsKept s u [] ∧ TablesKept s u ∧ BytesKept s u) ∧
  (∀ (s : State) (t d r : Nat) (w : TxWait), s.runs? = true → d < 4 → r < 4 → (s.ringRt d 0 r).waits = [w] → w.status = none →
    w.sent = [] → w.stamp + 10000000 ≤ (s.advance t).now → w.loc = 0 →
    Completes (.noStamp t d r) s fun u =>
      (u.ringRt d 0 r).waits = [] ∧
      Out.sent "dma write" (d :: (w.addr + 16) :: (leBytes 8 w.result.1 ++ [4, w.result.2.2] ++ leBytes 2 w.result.2.1 ++ [0, 0, 0, 0])) ∈ u.out ∧
      RegsKept s u [] ∧ TablesKept s u ∧ BytesKept s u) ∧
  (∀ (s : State) (t d tab r v : Nat), s.runs? = true → d < 4 → tab < 2 → r < 4 → s.ringRuns d tab r = true →
    Completes (.doorbell t d tab r v) s fun u =>
      u.ringF d tab r En.RING_TAIL = v % 65536 ∧ u.ringF d tab r En.RING_HEAD = s.ringF d tab r En.RING_HEAD ∧
      (∀ q tab' bank idx, tkey q tab' bank idx ≠ tkey (pHDOM d) tab 0 r → u.ent q tab' bank idx = s.ent q tab' bank idx) ∧
      RegsKept s u [] ∧ CountsKept s u ∧ BytesKept s u) ∧
  (∀ (s : State) (t d tab r : Nat), s.runs? = true → d < 4 → tab < 2 → r < 4 → s.ringF d tab r En.RING_IRQ_EN = 1 →
    s.ringF d tab r En.RING_COAL_US ≠ 0 → (s.ringRt d tab r).coal ≠ 0 →
    (s.ringRt d tab r).since + s.ringF d tab r En.RING_COAL_US * 1000 ≤ (s.advance t).now →
    Completes (.coalTimer t d tab r) s fun u =>
      (u.ringRt d tab r).coal = 0 ∧ (u.dom d).latch = (s.dom d).latch ||| 2 ^ s.ringF d tab r En.RING_VEC ∧
      RegsKept s u [] ∧ TablesKept s u ∧ BytesKept s u) ∧
  (∀ (s : State) (t d : Nat) (on : Bool), s.live = true → d < 4 →
    Completes (.busMasterEnable t d on) s fun u =>
      (u.dom d).bme = on ∧ RegsKept s u [] ∧ TablesKept s u ∧ CountsKept s u ∧ BytesKept s u) ∧
  (∀ (s : State) (t d v : Nat), d < 6 → s.takes d (pHDOM d * 4096 + Reg.HDOM_VEC_EOI) v →
    Completes (.vecEoi t d v) s fun u =>
      (u.dom d).latch = (s.dom d).latch &&& (2 ^ 32 - 1 - v % 2 ^ 32) ∧ RegsKept s u [] ∧ TablesKept s u ∧ BytesKept s u) ∧
  (∀ (s : State) (t d mask : Nat) (en : Bool), s.runs? = true → d < 4 →
    Completes (.msixUnmask t d en mask) s fun u =>
      (u.dom d).msixEn = en ∧ (u.dom d).msixMask = mask % 2 ^ 32 ∧ RegsKept s u [] ∧ TablesKept s u ∧ BytesKept s u)

/-- On the SPI targets D4 and D5 while the register port answers. SPI_READ and QREAD of one plain register word send the token and its
four bytes, least significant first; SPI_WRITE and QWRITE of one word at a multiple of 4, with room, buffer it; SPI_WRITE_WORD carries the
oldest buffered word out as a register write. SPI_STATUS sends the status byte and clears ERR; SPI_ID sends GLB_DEVICE;
RESET_ENABLE arms, and SPI_RESET after it resets an active domain with cause 2. Each command is counted. -/
def Obligations.SpiTargets : Prop :=
  (∀ (s : State) (t d a : Nat) (quad : Bool), (d = 4 ∨ d = 5) → s.live = true → a < 2 ^ 24 → a % 4 = 0 → (s.dom d).spi = [] →
    a / 4096 = pGLB → 0x040 ≤ a % 4096 → a % 4096 < 0x800 →
    Completes (if quad then .qread t d a 1 false false false false else .spiRead t d a 1 false false false false) s fun u =>
      u.out = s.out ++ [.spi d (0xA5 :: leBytes 4 ((s.advance t).peek d a))] ∧
      u.count (pHDOM d) Cn.HDOM_SPI_CMDS = (s.count (pHDOM d) Cn.HDOM_SPI_CMDS + 1) % 2 ^ 64 ∧
      RegsKept s u [] ∧ TablesKept s u ∧ BytesKept s u ∧ QueuesKept s u) ∧
  (∀ (s : State) (t d a w : Nat) (quad : Bool), (d = 4 ∨ d = 5) → s.live = true → a < 2 ^ 24 → a % 4 = 0 → (s.dom d).spi.length < 64 →
    Completes (if quad then .qwrite t d a [w] false else .spiWrite t d a [w] false) s fun u =>
      (u.dom d).spi = (s.dom d).spi ++ [(a, w % 2 ^ 32)] ∧
      u.count (pHDOM d) Cn.HDOM_SPI_CMDS = (s.count (pHDOM d) Cn.HDOM_SPI_CMDS + 1) % 2 ^ 64 ∧
      RegsKept s u [] ∧ TablesKept s u ∧ BytesKept s u ∧ QueuesKept s u) ∧
  (∀ (s : State) (t d p v : Nat) (l : List (Nat × Nat)), (d = 4 ∨ d = 5) → p < 4096 → hasHeader p = true → p ≠ pTIME → v < 2 ^ 32 →
    (s.dom d).spi = (p * 4096 + Reg.IRQ_EN, v) :: l → s.takes d (p * 4096 + Reg.IRQ_EN) v →
    Completes (.spiWriteWord t d false false) s fun u =>
      (u.dom d).spi = l ∧ u.rd p Reg.IRQ_EN = v ∧ RegsKept s u [p * 4096 + Reg.IRQ_EN] ∧ TablesKept s u ∧ BytesKept s u) ∧
  (∀ (s : State) (t d n : Nat), (d = 4 ∨ d = 5) → s.live = true →
    Completes (.spiStatus t d n) s fun u =>
      u.out = s.out ++ [.spi d (List.replicate n (s.spiStatusByte d))] ∧ (u.dom d).spiErr = false ∧
      RegsKept s u [] ∧ TablesKept s u ∧ BytesKept s u) ∧
  (∀ (s : State) (t d : Nat), (d = 4 ∨ d = 5) → s.live = true →
    Completes (.spiId t d) s fun u =>
      u.out = s.out ++ [.spi d (leBytes 4 (s.rd pGLB Reg.GLB_DEVICE))] ∧ RegsKept s u [] ∧ TablesKept s u ∧ BytesKept s u) ∧
  (∀ (s : State) (t d : Nat), (d = 4 ∨ d = 5) → s.live = true →
    Completes (.resetEnable t d) s fun u => (u.dom d).rstArmed = true ∧ RegsKept s u [] ∧ TablesKept s u ∧ BytesKept s u) ∧
  (∀ (s : State) (t d : Nat), (d = 4 ∨ d = 5) → s.live = true → (s.dom d).rstArmed = true → s.fld (pHDOM d) Fd.HDOM_STATE_STATE = 0 →
    Completes (.spiReset t d) s fun u =>
      u.fld (pHDOM d) Fd.HDOM_STATE_STATE = 1 ∧ u.fld (pHDOM d) Fd.HDOM_STATE_CAUSE = 2 ∧
      u.rd64 (pHDOM d) Reg.HDOM_RESET_STAMP_LO = (s.advance t).now)

/-- With the functions of the device running. FLR of an ACTIVE domain starts its reset: RESETTING, cause 1, the stamp, and every
vector masked. HOT_RESET and HDOM_LINK_DOWN reset the ACTIVE domains of the endpoint with cause 4 (shown where the domains own no header page but
their own). RESET_DONE ends a reset: ACTIVE with the link up, DOWN without, and BRK_LAST_RESET names domain and cause.
PERST_DEASSERT and PCIE_LINK_UP bring a DOWN domain to ACTIVE. HDOM_WDOG_KICK in time moves the deadline; HDOM_WDOG after it resets
the domain with cause 3, stamped with the deadline. -/
def Obligations.DomainResetsAndWatchdogs : Prop :=
  (∀ (s : State) (t d : Nat), s.runs? = true → d < 4 → s.fld (pHDOM d) Fd.HDOM_STATE_STATE = 0 →
    Completes (.flr t d) s fun u =>
      u.fld (pHDOM d) Fd.HDOM_STATE_STATE = 1 ∧ u.fld (pHDOM d) Fd.HDOM_STATE_CAUSE = 1 ∧
      u.rd64 (pHDOM d) Reg.HDOM_RESET_STAMP_LO = (s.advance t).now ∧ u.rd (pHDOM d) Reg.HDOM_VEC_MASK = 2 ^ 32 - 1) ∧
  (∀ (s : State) (t e : Nat), s.runs? = true → e < 2 → (∀ k, k < 2 → s.fld (pHDOM (2 * e + k)) Fd.HDOM_STATE_STATE = 0 ∧
      (headerPages.all fun p => p == pHDOM (2 * e + k) || !(s.owns (2 * e + k) p)) = true) →
    Completes (.hotReset t e) s fun u =>
      (∀ k, k < 2 → u.fld (pHDOM (2 * e + k)) Fd.HDOM_STATE_STATE = 1 ∧ u.fld (pHDOM (2 * e + k)) Fd.HDOM_STATE_CAUSE = 4) ∧
      u.fld pEMC Fd.EMC_HOST_ACTIVE_LOG2 = s.fld pEMC Fd.EMC_HOST_LOG2 ∧ BytesKept s u) ∧
  (∀ (s : State) (t e : Nat), s.runs? = true → e < 2 → s.flag (pHDOM (2 * e)) Fd.HDOM_STATE_LINK = true →
    (∀ k, k < 2 → s.fld (pHDOM (2 * e + k)) Fd.HDOM_STATE_STATE = 0 ∧
      (headerPages.all fun p => p == pHDOM (2 * e + k) || !(s.owns (2 * e + k) p)) = true) →
    Completes (.hdomLinkDown t e) s fun u =>
      (∀ k, k < 2 → u.flag (pHDOM (2 * e + k)) Fd.HDOM_STATE_LINK = false ∧ u.fld (pHDOM (2 * e + k)) Fd.HDOM_STATE_STATE = 1 ∧
        u.fld (pHDOM (2 * e + k)) Fd.HDOM_STATE_CAUSE = 4) ∧ BytesKept s u) ∧
  (∀ (s : State) (t d : Nat), s.runs? = true → d < 6 → s.fld (pHDOM d) Fd.HDOM_STATE_STATE = 1 →
    Completes (.resetDone t d) s fun u =>
      u.fld (pHDOM d) Fd.HDOM_STATE_STATE = (if s.flag (pHDOM d) Fd.HDOM_STATE_LINK then 0 else 2) ∧
      u.rd pBRK Reg.BRK_LAST_RESET = 2 ^ 31 + d * 256 + s.fld (pHDOM d) Fd.HDOM_STATE_CAUSE ∧
      u.rd64 pBRK Reg.BRK_LAST_RESET_STAMP_LO = s.rd64 (pHDOM d) Reg.HDOM_RESET_STAMP_LO ∧ TablesKept s u ∧ BytesKept s u) ∧
  (∀ (s : State) (t e : Nat), e < 2 → e ∉ s.perst →
    Completes (.perstDeassert t e) s fun u =>
      u.perst = e :: s.perst ∧ RegsKept s u [] ∧ TablesKept s u ∧ CountsKept s u ∧ BytesKept s u) ∧
  (∀ (s : State) (t e : Nat), e < 2 → e ∈ s.perst → s.boot ≠ .off → s.pwr ≠ .comma →
    Completes (.pcieLinkUp t e) s fun u =>
      (∀ k, k < 2 → u.flag (pHDOM (2 * e + k)) Fd.HDOM_STATE_LINK = true ∧
        u.fld (pHDOM (2 * e + k)) Fd.HDOM_STATE_STATE = (if s.fld (pHDOM (2 * e + k)) Fd.HDOM_STATE_STATE = 2 then 0
          else s.fld (pHDOM (2 * e + k)) Fd.HDOM_STATE_STATE)) ∧
      RegsKept s u [pHDOM (2 * e) * 4096 + Reg.HDOM_STATE, pHDOM (2 * e + 1) * 4096 + Reg.HDOM_STATE] ∧
      TablesKept s u ∧ CountsKept s u ∧ BytesKept s u) ∧
  (∀ (s : State) (t d v : Nat), d < 6 → s.takes d (pHDOM d * 4096 + Reg.HDOM_WDOG_KICK) v → v / 65536 % 65536 = 0x4B1C →
    (s.fld (pHDOM d) Fd.HDOM_WDOG_TIMEOUT_MS = 0 ∨ (s.advance t).now ≤ s.domDeadline d) →
    Completes (.hdomWdogKick t d v) s fun u =>
      (u.dom d).wdogBase = (s.advance t).now ∧ RegsKept s u [] ∧ TablesKept s u ∧ CountsKept s u ∧ BytesKept s u) ∧
  (∀ (s : State) (t d : Nat), s.runs? = true → d < 6 → s.fld (pHDOM d) Fd.HDOM_WDOG_TIMEOUT_MS ≠ 0 →
    s.fld (pHDOM d) Fd.HDOM_STATE_STATE = 0 → s.domDeadline d + 4000 ≤ (s.advance t).now →
    Completes (.hdomWdog t d) s fun u =>
      u.fld (pHDOM d) Fd.HDOM_STATE_STATE = 1 ∧ u.fld (pHDOM d) Fd.HDOM_STATE_CAUSE = 3 ∧
      u.rd64 (pHDOM d) Reg.HDOM_RESET_STAMP_LO = s.domDeadline d)

/-- By an accepted write of a domain below 6 that BRK_ALLOW admits. ACQUIRE of a FREE Bracket is granted: HELD by the writer, the
sequence number one higher, and counted; of a BROKEN one it is granted as a broken grant; of one that another domain holds it is
contended and changes no lock. RELEASE by the holder frees the Bracket, or leaves it BROKEN while its broken grant is not cleared;
CLEAR_BROKEN by the holder clears the broken grant and keeps the lock. -/
def Obligations.BracketOperations : Prop :=
  (∀ (s : State) (t d n : Nat), n < 64 → d < 6 → s.takes d (pBRK * 4096 + Reg.BRK_LOCK + 4 * n) 1 →
    (s.fld pBRK (Fd.BRK_ALLOW_DOMAINS.at 4 n)).testBit d = true →
    (s.lockF n Fd.BRK_LOCK_STATE = 0 ∨ s.lockF n Fd.BRK_LOCK_STATE = 2) →
    Completes (.acquire t d n) s fun u =>
      u.lockF n Fd.BRK_LOCK_STATE = 1 ∧ u.lockF n Fd.BRK_LOCK_HOLDER = d ∧
      u.lockF n Fd.BRK_LOCK_SEQ = (s.lockF n Fd.BRK_LOCK_SEQ + 1) % 256 ∧
      u.lockF n Fd.BRK_LOCK_BROKEN_GRANT = (if s.lockF n Fd.BRK_LOCK_STATE = 2 then 1 else s.lockF n Fd.BRK_LOCK_BROKEN_GRANT) ∧
      u.count pBRK Cn.BRK_GRANTS = (s.count pBRK Cn.BRK_GRANTS + 1) % 2 ^ 64 ∧
      RegsKept s u [pBRK * 4096 + Reg.BRK_LOCK + 4 * n] ∧ TablesKept s u ∧ BytesKept s u ∧ QueuesKept s u) ∧
  (∀ (s : State) (t d n : Nat), n < 64 → d < 6 → s.takes d (pBRK * 4096 + Reg.BRK_LOCK + 4 * n) 1 →
    (s.fld pBRK (Fd.BRK_ALLOW_DOMAINS.at 4 n)).testBit d = true → s.lockF n Fd.BRK_LOCK_STATE = 1 → s.lockF n Fd.BRK_LOCK_HOLDER ≠ d →
    Completes (.acquire t d n) s fun u =>
      u.count pBRK Cn.BRK_CONTENDED = (s.count pBRK Cn.BRK_CONTENDED + 1) % 2 ^ 64 ∧ RegsKept s u [] ∧ TablesKept s u ∧
      BytesKept s u ∧ QueuesKept s u) ∧
  (∀ (s : State) (t d n : Nat), n < 64 → d < 6 → s.takes d (pBRK * 4096 + Reg.BRK_LOCK + 4 * n) 2 →
    (s.fld pBRK (Fd.BRK_ALLOW_DOMAINS.at 4 n)).testBit d = true → s.lockF n Fd.BRK_LOCK_STATE = 1 → s.lockF n Fd.BRK_LOCK_HOLDER = d →
    Completes (.release t d n) s fun u =>
      u.lockF n Fd.BRK_LOCK_STATE = (if s.lockF n Fd.BRK_LOCK_BROKEN_GRANT = 1 then 2 else 0) ∧
      RegsKept s u [pBRK * 4096 + Reg.BRK_LOCK + 4 * n] ∧ TablesKept s u ∧ CountsKept s u ∧ BytesKept s u ∧ QueuesKept s u) ∧
  (∀ (s : State) (t d n : Nat), n < 64 → d < 6 → s.takes d (pBRK * 4096 + Reg.BRK_LOCK + 4 * n) 3 →
    (s.fld pBRK (Fd.BRK_ALLOW_DOMAINS.at 4 n)).testBit d = true → s.lockF n Fd.BRK_LOCK_STATE = 1 → s.lockF n Fd.BRK_LOCK_HOLDER = d →
    Completes (.clearBroken t d n) s fun u =>
      u.lockF n Fd.BRK_LOCK_STATE = 1 ∧ u.lockF n Fd.BRK_LOCK_HOLDER = d ∧ u.lockF n Fd.BRK_LOCK_BROKEN_GRANT = 0 ∧
      RegsKept s u [pBRK * 4096 + Reg.BRK_LOCK + 4 * n] ∧ TablesKept s u ∧ CountsKept s u ∧ BytesKept s u ∧ QueuesKept s u)

/-- An invariant of the Brackets: a lock is FREE, HELD or BROKEN, and only a HELD one carries a broken grant. ACQUIRE, RELEASE and
CLEAR_BROKEN keep it for every Bracket, by whatever domain, on whatever Bracket and in whatever state they come. -/
def Obligations.BracketsStayLegal : Prop :=
  ∀ (s u : State) (t d n : Nat) (c : Instr), (c = .acquire t d n ∨ c = .release t d n ∨ c = .clearBroken t d n) →
    (∀ k, k < 64 → s.lockF k Fd.BRK_LOCK_STATE ≤ 2 ∧
      (s.lockF k Fd.BRK_LOCK_BROKEN_GRANT = 1 → s.lockF k Fd.BRK_LOCK_STATE = 1)) →
    exec c s = .next u →
    ∀ k, k < 64 → u.lockF k Fd.BRK_LOCK_STATE ≤ 2 ∧ (u.lockF k Fd.BRK_LOCK_BROKEN_GRANT = 1 → u.lockF k Fd.BRK_LOCK_STATE = 1)

/-! ### The Transcript, Quotations and the MRAM -/

/-- RING_WRITE takes the front record of the low buffer and appends it to the open low segment that has room: its directory entry's BYTES
grows by the record's size, and it is counted. SEGMENT_MAX_AGE closes the open segment of a class and stamps CLOSE. XCMD of a CLOSED segment
pins it and starts its export; EXPORT_DONE sends it, ends BUSY, sets DONE and counts. FIND and NEXT answer the earliest segment, in
take order, that the rule names, or FOUND = 0. ERASE of a slot that is not OPEN empties it. A write to the MRAM window changes no byte and is
counted as refused. -/
def Obligations.RingSegmentsAndMram : Prop :=
  (∀ (s : State) (t i : Nat) (r : Rec) (l : List Rec), s.live = true → s.enabled pTRN = true → s.frozen pTRN = false →
    s.trn.low = r :: l → r.high = false → s.trn.lowHead = some i → i < 16384 → s.trn.cap = none →
    s.segF i En.SEGD_BYTES + recSize r ≤ 1048576 →
    Completes (.ringWrite t) s fun u =>
      u.trn.low = l ∧ (u.seg i).recs = (s.seg i).recs ++ [r] ∧ (∀ j, j ≠ i → u.seg j = s.seg j) ∧
      u.segF i En.SEGD_BYTES = s.segF i En.SEGD_BYTES + recSize r ∧
      u.count pTRN Cn.TRN_REC_LOW = (s.count pTRN Cn.TRN_REC_LOW + 1) % 2 ^ 64 ∧ RegsKept s u [] ∧ BytesKept s u ∧ QueuesKept s u) ∧
  (∀ (s : State) (t cls i : Nat), s.runs? = true → cls < 2 → i < 16384 → s.headOf (cls = 1) = some i →
    s.fld pTRN Fd.TRN_CFG_SEG_MAX_MS ≠ 0 →
    s.segF i En.SEGD_OPEN + s.fld pTRN Fd.TRN_CFG_SEG_MAX_MS * 1000000 ≤ (s.advance t).now →
    Completes (.segmentMaxAge t cls) s fun u =>
      u.headOf (cls = 1) = none ∧ u.segF i En.SEGD_STATE = 2 ∧ (u.seg i).close = (s.advance t).now ∧
      (u.seg i).recs = (s.seg i).recs ∧ BytesKept s u ∧ QueuesKept s u) ∧
  (∀ (s : State) (t d seg dom : Nat), s.takes d (pTRN * 4096 + Reg.TRN_XCMD) (2 ^ 31 + dom * 2 ^ 16 + seg) → dom < 4 →
    seg < s.fld pTRN Fd.TRN_RING_SEGS → seg < 16384 → s.flag pTRN Fd.TRN_XSTAT_BUSY = false → s.segF seg En.SEGD_STATE = 2 →
    s.rd64 pTRN Reg.TRN_XADDR_LO % 4096 = 0 →
    Completes (.xcmd t d (2 ^ 31 + dom * 2 ^ 16 + seg)) s fun u =>
      u.trn.exp = some ⟨seg, dom, s.rd64 pTRN Reg.TRN_XADDR_LO⟩ ∧ u.flag pTRN Fd.TRN_XSTAT_BUSY = true ∧
      u.segF seg En.SEGD_PINS = (s.segF seg En.SEGD_PINS + 1) % 2 ^ En.SEGD_PINS.w ∧ BytesKept s u ∧ QueuesKept s u) ∧
  (∀ (s : State) (t : Nat) (x : Exp), s.live = true → s.frozen pTRN = false → s.trn.exp = some x →
    Completes (.exportDone t 0) s fun u =>
      u.trn.exp = none ∧ Out.sent "export" [x.dom, x.addr, x.seg] ∈ u.out ∧ u.flag pTRN Fd.TRN_XSTAT_BUSY = false ∧
      u.flag pTRN Fd.TRN_XSTAT_DONE = true ∧
      u.count pTRN Cn.TRN_EXPORTED = (s.count pTRN Cn.TRN_EXPORTED + 1) % 2 ^ 64 ∧ BytesKept s u ∧ QueuesKept s u) ∧
  (∀ (s : State) (t d : Nat), s.commands d pTRN 8 →
    Completes (.trnFind t d) s fun u =>
      WinRuns u d pTRN 0 ∧ TablesKept s u ∧ BytesKept s u ∧
      match (s.segsOfClass (bitsOf (s.winData pTRN) 64 1)).find? fun i => bitsOf (s.winData pTRN) 0 64 ≤ s.segF i En.SEGD_LAST with
      | some i => u.flag pTRN Fd.TRN_WIN_RESULT_FOUND = true ∧
          u.fld pTRN Fd.TRN_WIN_RESULT_SEG = i % 2 ^ Fd.TRN_WIN_RESULT_SEG.w ∧ DataHolds u pTRN (s.ent pTRN 1 0 i)
      | none => u.flag pTRN Fd.TRN_WIN_RESULT_FOUND = false ∧ DataHolds u pTRN (s.winData pTRN)) ∧
  (∀ (s : State) (t d : Nat), s.commands d pTRN 9 →
    Completes (.trnNext t d) s fun u =>
      WinRuns u d pTRN 0 ∧ TablesKept s u ∧ BytesKept s u ∧
      match (s.segsOfClass (s.segF (s.fld pTRN Fd.WIN_INDEX) En.SEGD_CLASS)).find?
          fun j => (s.seg (s.fld pTRN Fd.WIN_INDEX)).ord < (s.seg j).ord with
      | some i => u.flag pTRN Fd.TRN_WIN_RESULT_FOUND = true ∧
          u.fld pTRN Fd.TRN_WIN_RESULT_SEG = i % 2 ^ Fd.TRN_WIN_RESULT_SEG.w ∧ DataHolds u pTRN (s.ent pTRN 1 0 i)
      | none => u.flag pTRN Fd.TRN_WIN_RESULT_FOUND = false ∧ DataHolds u pTRN (s.winData pTRN)) ∧
  (∀ (s : State) (t d slot : Nat), slot < 7 → s.fld pMRAM (Fd.MRAM_SLOT_STATE.at 4 slot) ≠ 1 →
    s.takes d (pMRAM * 4096 + Reg.MRAM_SLOT + 4 * slot) (8 + 4 * s.fld pMRAM (Fd.MRAM_SLOT_KEEP.at 4 slot)) →
    Completes (.erase t d slot) s fun u =>
      u.fld pMRAM (Fd.MRAM_SLOT_STATE.at 4 slot) = 0 ∧
      u.fld pMRAM (Fd.MRAM_SLOT_KEEP.at 4 slot) = s.fld pMRAM (Fd.MRAM_SLOT_KEEP.at 4 slot) ∧
      u.mramBytes (slotBase slot) 8 = List.replicate 8 0 ∧
      (∀ o, o < slotBase slot ∨ slotBase slot + 8 ≤ o → u.mramByte o = s.mramByte o) ∧
      RegsKept s u [pMRAM * 4096 + Reg.MRAM_SLOT + 4 * slot] ∧ TablesKept s u ∧ CountsKept s u ∧ QueuesKept s u) ∧
  (∀ (s : State) (t d a bits v : Nat), s.live = true → inMramWindow (a / 4096) = true → s.judge d a bits v = none →
    Completes (.mramWrite t d a bits v) s fun u =>
      u.count pMRAM Cn.MRAM_WRITE_REFUSED = (s.count pMRAM Cn.MRAM_WRITE_REFUSED + 1) % 2 ^ 64 ∧
      u.flag pMRAM Fd.ERR_VALID = true ∧ RegsKept s u (errRegs pMRAM) ∧ TablesKept s u ∧ BytesKept s u)

/-- QTRIG with GO = 1 and its source enabled opens entry 0 when every entry is FREE, stamped now with its window, and merges into
the one COLLECTING entry whose window holds the stamp: the trigger joins its list and is counted. HELD_TRIGGER_OFFER offers a held
WAKE_IN trigger once with its edge stamp. QUOTATION_WINDOW_CLOSE at END + 10 ms makes the entry PINNED and closes the open segments.
CAPSULE_CLOSE of a PINNED entry whose records are copied, with no other capsule waiting, closes the slot, whose state word reads 2.
QREL of a PINNED entry whose capsule is neither WAITING nor COPYING frees it and drops its pins. -/
def Obligations.QuotationLife : Prop :=
  (∀ (s : State) (t d x : Nat), s.takes d (pTRN * 4096 + Reg.TRN_QTRIG) (2 ^ 31 + x) → x < 256 → s.enabled pTRN = true →
    (s.fld pTRN Fd.TRN_QCFG_SRC_EN).testBit 0 = true → (∀ k, k < 4 → s.qF k En.QENT_STATE = 0) →
    Completes (.qtrig t d (2 ^ 31 + x)) s fun u =>
      u.qF 0 En.QENT_STATE = 1 ∧ u.qF 0 En.QENT_T = (s.advance t).now % 2 ^ 64 ∧ u.qF 0 En.QENT_SRC = 1 ∧ u.qF 0 En.QENT_REASON = x ∧
      u.qF 0 En.QENT_START = ((s.advance t).now - s.fld pTRN Fd.TRN_QWIN_PRE_S * 1000000000) % 2 ^ 64 ∧
      u.qF 0 En.QENT_END = ((s.advance t).now + s.fld pTRN Fd.TRN_QWIN_POST_S * 1000000000) % 2 ^ 64 ∧
      u.count pTRN Cn.TRN_QUOTATIONS = (s.count pTRN Cn.TRN_QUOTATIONS + 1) % 2 ^ 64) ∧
  (∀ (s : State) (t d x e : Nat), s.takes d (pTRN * 4096 + Reg.TRN_QTRIG) (2 ^ 31 + x) → x < 256 → e < 4 → s.enabled pTRN = true →
    (s.fld pTRN Fd.TRN_QCFG_SRC_EN).testBit 0 = true → s.qF e En.QENT_STATE = 1 → s.qF e En.QENT_START ≤ (s.advance t).now →
    (s.advance t).now ≤ s.qF e En.QENT_END → (∀ k, k < 4 → k ≠ e → s.qF k En.QENT_STATE ≠ 1) →
    Completes (.qtrig t d (2 ^ 31 + x)) s fun u =>
      smGet [] e u.trn.trigs = smGet [] e s.trn.trigs ++ [⟨(s.advance t).now, 1, x⟩] ∧
      u.count pTRN Cn.TRN_MERGED = (s.count pTRN Cn.TRN_MERGED + 1) % 2 ^ 64 ∧
      (∀ k f, k ≠ e → k < 4 → u.qF k f = s.qF k f) ∧ RegsKept s u (errRegs pTRN) ∧ BytesKept s u ∧ QueuesKept s u) ∧
  (∀ (s : State) (t input st e : Nat), s.runs? = true → s.pwr = .clause → s.trn.held = [(input, st)] → e < 4 → s.enabled pTRN = true →
    (s.fld pTRN Fd.TRN_QCFG_SRC_EN).testBit 1 = true → s.qF e En.QENT_STATE = 1 → s.qF e En.QENT_START ≤ st →
    st ≤ s.qF e En.QENT_END → (∀ k, k < 4 → k ≠ e → s.qF k En.QENT_STATE ≠ 1) →
    Completes (.heldTriggerOffer t input) s fun u =>
      u.trn.held = [] ∧ smGet [] e u.trn.trigs = smGet [] e s.trn.trigs ++ [⟨st, 2, input⟩] ∧
      u.count pTRN Cn.TRN_MERGED = (s.count pTRN Cn.TRN_MERGED + 1) % 2 ^ 64 ∧ RegsKept s u (errRegs pTRN) ∧ BytesKept s u) ∧
  (∀ (s : State) (t e : Nat), s.runs? = true → e < 4 → s.qF e En.QENT_STATE = 1 → s.qF e En.QENT_END + 10000000 ≤ (s.advance t).now →
    Completes (.quotationWindowClose t e) s fun u =>
      u.qF e En.QENT_STATE = 2 ∧ u.trn.lowHead = none ∧ u.trn.highHead = none ∧ BytesKept s u ∧ QueuesKept s u) ∧
  (∀ (s : State) (t : Nat) (c : Cap), s.live = true → s.trn.cap = some c → c.entry < 4 → c.slot < 7 → c.todo = [] →
    s.qF c.entry En.QENT_STATE = 2 → (∀ k, k < 4 → s.qF k En.QENT_CAP ≠ 1) →
    Completes (.capsuleClose t) s fun u =>
      u.trn.cap = none ∧ u.qF c.entry En.QENT_CAP = 3 ∧ u.fld pMRAM (Fd.MRAM_SLOT_STATE.at 4 c.slot) = 2 ∧
      u.mramBytes (slotBase c.slot) 8 = [2, 0, 0, 0, 0, 0, 0, 0] ∧
      u.count pMRAM Cn.MRAM_CAPSULES = (s.count pMRAM Cn.MRAM_CAPSULES + 1) % 2 ^ 64 ∧ QueuesKept s u) ∧
  (∀ (s : State) (t d e : Nat), s.takes d (pTRN * 4096 + Reg.TRN_QREL) (2 ^ 31 + e) → e < 4 → s.qF e En.QENT_STATE = 2 →
    s.qF e En.QENT_CAP ≠ 1 → s.qF e En.QENT_CAP ≠ 2 →
    Completes (.qrel t d (2 ^ 31 + e)) s fun u =>
      u.qF e En.QENT_STATE = 0 ∧ smGet [] e u.trn.pins = [] ∧ (∀ k f, k ≠ e → k < 4 → u.qF k f = s.qF k f) ∧
      BytesKept s u ∧ QueuesKept s u)
/-! ### The keep-alive engine -/

/-- With the engine up and not frozen. NM_CLUSTER_ENABLE starts a cluster in REPEAT_MESSAGE with REASON START, and stops it.
AWAKE = 1 takes READY_SLEEP to NORMAL, AWAKE = 0 takes NORMAL to READY_SLEEP; RMR takes NORMAL to REPEAT_MESSAGE. NM_FRAME_SEND queues the
frame in buffer 2 of a member that sends and moves the due time by the cycle. REPEAT_MESSAGE_END goes to NORMAL or READY_SLEEP by AWAKE;
NM_TIMEOUT of READY_SLEEP enters PREPARE_BUS_SLEEP stamped D with its commit time K; SLEEP_COMMIT at K + 50 us enters COMMITTING;
COMMIT_COMPLETE enters BUS_SLEEP, or REPEAT_MESSAGE with AFTER_COMMIT when a wake is latched. NM_FALSE_WAKE re-arms CHECK into
BUS_SLEEP. NM_OFFENDER marks exactly the offender entries that last spoke within the NM timeout of the report time. -/
def Obligations.ClusterStates : Prop :=
  (∀ (s : State) (t d c v : Nat), c < 8 → v % 2 = 1 → s.takes d (pNM * 4096 + Reg.NM_CL_CFG + 0x40 * c) v → s.enabled pNM = true →
    s.clF c Fd.NM_CL_CFG_ENABLE = 0 →
    s.clConflict c (s.clF c Fd.NM_CL_CAN_CH) (s.rd pNM (Reg.NM_CL_SEG + 0x40 * c)) = false →
    Completes (.nmClusterEnable t d c v) s fun u =>
      u.clF c Fd.NM_CL_CFG_ENABLE = 1 ∧ u.clSt c = 3 ∧ u.clF c Fd.NM_CL_STATE_REASON = 0 ∧ (u.cl c).due = (s.advance t).now ∧
      u.rd64 pNM (Reg.NM_CL_WAKE_STAMP_LO + 0x40 * c) = (s.advance t).now % 2 ^ 64 ∧ (∀ k, k ≠ c → u.cl k = s.cl k) ∧ BytesKept s u) ∧
  (∀ (s : State) (t d c v : Nat), c < 8 → v % 2 = 0 → s.takes d (pNM * 4096 + Reg.NM_CL_CFG + 0x40 * c) v → s.enabled pNM = true →
    s.clF c Fd.NM_CL_CFG_ENABLE = 1 →
    Completes (.nmClusterEnable t d c v) s fun u =>
      u.clF c Fd.NM_CL_CFG_ENABLE = 0 ∧ u.clSt c = 0 ∧ (∀ k, k ≠ c → u.cl k = s.cl k) ∧ BytesKept s u) ∧
  (∀ (s : State) (t d c : Nat), c < 8 → s.takes d (pNM * 4096 + Reg.NM_CL_REQ + 0x40 * c) 1 → s.nmUp = true → s.clSt c = 5 →
    (s.advance t).now ≤ s.nmDeadline c →
    Completes (.awake t d c 1) s fun u =>
      u.clF c Fd.NM_CL_REQ_AWAKE = 1 ∧ u.clSt c = 4 ∧ (u.cl c).due = (s.advance t).now ∧ TablesKept s u ∧ CountsKept s u ∧ BytesKept s u) ∧
  (∀ (s : State) (t d c : Nat), c < 8 → s.takes d (pNM * 4096 + Reg.NM_CL_REQ + 0x40 * c) 0 → s.nmUp = true → s.clSt c = 4 →
    (s.advance t).now ≤ s.nmDeadline c →
    Completes (.awake t d c 0) s fun u =>
      u.clF c Fd.NM_CL_REQ_AWAKE = 0 ∧ u.clSt c = 5 ∧ (u.cl c).episode = (s.advance t).now ∧
      (∀ n k, n ∈ s.clCan c → k < 16 → u.ent pNM 1 0 (16 * n + k) = 0) ∧ CountsKept s u ∧ BytesKept s u) ∧
  (∀ (s : State) (t d c v : Nat), c < 8 → s.takes d (pNM * 4096 + Reg.NM_CL_REQ + 0x40 * c) (v % 2 + 2) → s.nmUp = true → s.clSt c = 4 →
    (s.advance t).now ≤ s.nmDeadline c →
    Completes (.rmr t d c v) s fun u =>
      u.clF c Fd.NM_CL_REQ_AWAKE = v % 2 ∧ u.clSt c = 3 ∧ (u.cl c).rmr = true ∧ (u.cl c).due = (s.advance t).now ∧
      CountsKept s u ∧ BytesKept s u) ∧
  (∀ (s : State) (t c n : Nat), s.runs? = true → s.nmUp = true → s.frozen pNM = false → c < 8 → (s.clSt c = 3 ∨ s.clSt c = 4) →
    s.clF c Fd.NM_CL_CFG_PASSIVE = 0 → (s.cl c).due ≤ (s.advance t).now → s.clCan c = [n] → s.entF pNM 0 0 n En.NMCH_NM_TX = 1 →
    (s.can n).nmBuf = 2 → s.txbState n 2 = 0 → s.canMode n ≠ 15 →
    Completes (.nmFrameSend t c) s fun u =>
      (u.cl c).due = (s.cl c).due + s.clF c Fd.NM_CL_TIME1_NM_CYCLE_MS * 1000000 ∧ u.txbState n 2 = 1 ∧
      (u.can n).nmCl = c ∧ u.ent (pCANC n) 3 0 128 = bytesToEntry (s.nmPayload c) ∧ CountsKept s u ∧ BytesKept s u) ∧
  (∀ (s : State) (t c : Nat), s.runs? = true → s.nmUp = true → s.frozen pNM = false → c < 8 → s.clSt c = 3 →
    (s.cl c).entered + s.clF c Fd.NM_CL_TIME2_REPEAT_MS * 1000000 ≤ (s.advance t).now →
    Completes (.repeatMessageEnd t c) s fun u =>
      u.clSt c = (if s.clF c Fd.NM_CL_REQ_AWAKE = 1 then 4 else 5) ∧
      (u.cl c).entered = (s.cl c).entered + s.clF c Fd.NM_CL_TIME2_REPEAT_MS * 1000000 ∧ CountsKept s u ∧ BytesKept s u) ∧
  (∀ (s : State) (t c : Nat), s.runs? = true → s.nmUp = true → s.frozen pNM = false → c < 8 → s.clSt c = 5 → (s.cl c).held = [] →
    s.nmDeadline c + 4000 ≤ (s.advance t).now →
    Completes (.nmTimeout t c) s fun u =>
      u.clSt c = 6 ∧ (u.cl c).entered = s.nmDeadline c ∧
      (u.cl c).k = s.nmDeadline c + s.clF c Fd.NM_CL_TIME2_WBS_MS * 1000000 ∧ TablesKept s u ∧ CountsKept s u ∧ BytesKept s u) ∧
  (∀ (s : State) (t c : Nat), s.runs? = true → s.nmUp = true → s.frozen pNM = false → c < 8 → s.clSt c = 6 →
    (s.cl c).k + 50000 ≤ (s.advance t).now →
    Completes (.sleepCommit t c) s fun u =>
      u.clSt c = 7 ∧ (u.cl c).entered = (s.advance t).now ∧ (∀ n, n ∈ s.clCan c → u.flag (pCANC n) Fd.CANC_MODE_NM_HELD = true) ∧
      BytesKept s u) ∧
  (∀ (s : State) (t c : Nat), s.runs? = true → s.nmUp = true → s.frozen pNM = false → c < 8 → s.clSt c = 7 →
    s.segsAsleep c = true →
    Completes (.commitComplete t c) s fun u =>
      u.count pNM Cn.NM_SLEEPS = (s.count pNM Cn.NM_SLEEPS + 1) % 2 ^ 64 ∧ BytesKept s u ∧
      match (s.cl c).latched with
      | none => u.clSt c = 1 ∧ (u.cl c).entered = (s.advance t).now
      | some (w, late) => u.clSt c = 3 ∧ u.clF c Fd.NM_CL_STATE_AFTER_COMMIT = 1 ∧ u.clF c Fd.NM_CL_STATE_LATE = b2n late ∧
          u.clF c Fd.NM_CL_STATE_REASON = w.reason % 256 ∧ (u.cl c).latched = none) ∧
  (∀ (s : State) (t c : Nat), s.runs? = true → s.nmUp = true → s.frozen pNM = false → c < 8 → s.clSt c = 2 → (s.cl c).held = [] →
    s.fwDeadline c + 4000 ≤ (s.advance t).now →
    Completes (.nmFalseWake t c) s fun u =>
      u.clSt c = 1 ∧ u.count pNM Cn.NM_FALSE_WAKES = (s.count pNM Cn.NM_FALSE_WAKES + 1) % 2 ^ 64 ∧ BytesKept s u) ∧
  (∀ (s : State) (t c R : Nat), s.runs? = true → s.nmUp = true → s.frozen pNM = false → c < 8 → (s.clSt c = 5 ∨ s.clSt c = 6) →
    s.clF c Fd.NM_CL_TIME3_OFF_REPORT_S ≠ 0 → (s.cl c).reported = false →
    R = (s.cl c).episode + s.clF c Fd.NM_CL_TIME3_OFF_REPORT_S * 1000000000 → R ≤ (s.advance t).now →
    Completes (.nmOffender t c) s fun u =>
      (u.cl c).reported = true ∧
      (∀ n k, n ∈ s.clCan c → k < 16 → s.entF pNM 1 0 (16 * n + k) En.OFFE_VALID = 1 →
        R ≤ s.entF pNM 1 0 (16 * n + k) En.OFFE_LAST + s.nmTimeoutNs c → u.entF pNM 1 0 (16 * n + k) En.OFFE_REPORTED = 1) ∧
      (∀ i, s.entF pNM 1 0 i En.OFFE_LAST + s.nmTimeoutNs c < R → u.ent pNM 1 0 i = s.ent pNM 1 0 i) ∧ BytesKept s u)

/-- WAKE_IN_EDGE, once its level is stable for FILT ticks, sets LEVEL; with WAKE = 1 and an edge that counts it wakes the cluster its mask
names from BUS_SLEEP to REPEAT_MESSAGE with REASON WAKE_IN. CAN_WUP, CAN_WUF, CAN_ERRCNT and T1S_ACT of a segment armed for them take
its cluster from BUS_SLEEP to CHECK: REASON 3, 4, 5 or 10, SRC the channel or port, the strobe's stamp as R360 refers it, one wake counted. -/
def Obligations.WakeSources : Prop :=
  (∀ (s : State) (t n st ticks : Nat) (r : Bool), n < 8 → s.fld pNM (Fd.NM_WAKEIN_FILT.at 4 n) ≤ ticks →
    s.fld pNM (Fd.NM_WAKEIN_EN.at 4 n) = 0 →
    Completes (.wakeInEdge t n r st ticks) s fun u =>
      u.flag pNM (Fd.NM_WAKEIN_LEVEL.at 4 n) = r ∧ RegsKept s u [pNM * 4096 + Reg.NM_WAKEIN + 4 * n] ∧
      TablesKept s u ∧ CountsKept s u ∧ BytesKept s u ∧ QueuesKept s u) ∧
  (∀ (s : State) (t n c st ticks : Nat) (r : Bool), n < 8 → c < 8 → s.fld pNM (Fd.NM_WAKEIN_FILT.at 4 n) ≤ ticks →
    s.fld pNM (Fd.NM_WAKEIN_EN.at 4 n) = 1 → s.fld pNM (Fd.NM_WAKEIN_EDGE.at 4 n) = 2 → s.fld pNM (Fd.NM_WAKEIN_WAKE.at 4 n) = 1 →
    s.fld pNM (Fd.NM_WAKEIN_QUOTE.at 4 n) = 0 → s.fld pNM (Fd.NM_WAKEIN_CL_MASK.at 4 n) = 2 ^ c → s.nmUp = true → s.clSt c = 1 →
    Completes (.wakeInEdge t n r st ticks) s fun u =>
      u.flag pNM (Fd.NM_WAKEIN_LEVEL.at 4 n) = r ∧ u.clSt c = 3 ∧ u.clF c Fd.NM_CL_STATE_REASON = 2 ∧
      u.clF c Fd.NM_CL_STATE_SRC = n ∧ u.rd64 pNM (Reg.NM_CL_WAKE_STAMP_LO + 0x40 * c) = st % 2 ^ 64 ∧
      u.count pNM Cn.NM_WAKES = (s.count pNM Cn.NM_WAKES + 1) % 2 ^ 64 ∧ BytesKept s u) ∧
  (∀ (s : State) (t n c st : Nat), s.canArmed n 1 = true → s.nmUp = true → s.clOfCan n = [c] → s.clSt c = 1 →
    Completes (.canWup t n st) s fun u =>
      u.clSt c = 2 ∧ u.clF c Fd.NM_CL_STATE_REASON = 3 ∧ u.clF c Fd.NM_CL_STATE_SRC = n ∧
      u.rd64 pNM (Reg.NM_CL_WAKE_STAMP_LO + 0x40 * c) = (s.advance t).wakeStamp st % 2 ^ 64 ∧ smGet 0 n u.ldie.standby = 0 ∧
      u.count pNM Cn.NM_WAKES = (s.count pNM Cn.NM_WAKES + 1) % 2 ^ 64 ∧ BytesKept s u) ∧
  (∀ (s : State) (t n c st : Nat) (f : CanFrame), s.canArmed n 2 = true → f.fmt ≤ 1 → s.wufMatch n f = true → s.nmUp = true →
    s.clOfCan n = [c] → s.clSt c = 1 →
    Completes (.canWuf t n f st) s fun u =>
      u.clSt c = 2 ∧ u.clF c Fd.NM_CL_STATE_REASON = 4 ∧ u.clF c Fd.NM_CL_STATE_SRC = n ∧
      u.rd64 pNM (Reg.NM_CL_WAKE_STAMP_LO + 0x40 * c) = (s.advance t).wakeStamp st % 2 ^ 64 ∧ smGet 0 n u.ldie.standby = 0 ∧
      u.count pNM Cn.NM_WAKES = (s.count pNM Cn.NM_WAKES + 1) % 2 ^ 64 ∧ BytesKept s u) ∧
  (∀ (s : State) (t n c count st : Nat), s.canArmed n 2 = true → 31 < count → s.nmUp = true → s.clOfCan n = [c] → s.clSt c = 1 →
    Completes (.canErrcnt t n count st) s fun u =>
      u.clSt c = 2 ∧ u.clF c Fd.NM_CL_STATE_REASON = 5 ∧ u.clF c Fd.NM_CL_STATE_SRC = n ∧
      u.rd64 pNM (Reg.NM_CL_WAKE_STAMP_LO + 0x40 * c) = (s.advance t).wakeStamp st % 2 ^ 64 ∧ smGet 0 n u.ldie.standby = 0 ∧
      u.count pNM Cn.NM_WAKES = (s.count pNM Cn.NM_WAKES + 1) % 2 ^ 64 ∧ BytesKept s u) ∧
  (∀ (s : State) (t p c e : Nat) (bursts : List (Nat × Nat)), s.ldie.t1sArmed.contains p = true → p < 32 →
    burstWake (s.fld pNM Fd.NM_T1S_ACT_COUNT) (s.fld pNM Fd.NM_T1S_ACT_BURST_US) (s.fld pNM Fd.NM_T1S_ACT_WINDOW_MS) bursts = some e →
    s.nmUp = true → s.clOfPort p = [c] → s.clSt c = 1 →
    Completes (.t1sAct t p bursts) s fun u =>
      u.clSt c = 2 ∧ u.clF c Fd.NM_CL_STATE_REASON = 10 ∧ u.clF c Fd.NM_CL_STATE_SRC = p ∧
      u.rd64 pNM (Reg.NM_CL_WAKE_STAMP_LO + 0x40 * c) = (s.advance t).wakeStamp e % 2 ^ 64 ∧
      u.count pNM Cn.NM_WAKES = (s.count pNM Cn.NM_WAKES + 1) % 2 ^ 64 ∧ BytesKept s u)
/-! ### Keys, OTP, life cycle and the debug port -/

/-- At a port that takes the command, with the checks of Table 5 met. GENERATE, IMPORT and DERIVE make the free slot valid under
its next GEN with the attributes of KEY_ATTR, the issuer and the stamp, and store a free value, the staged bytes or the derived
key. DESTROY makes the slot invalid under its next GEN; RESTRICT gives it the new attributes and its next GEN and keeps its
material. ATTEST, SIGN and PUBKEY hold their outputs for KEY_CMD_DONE, which hands them over, clears staging and sets DONE. A failed health
test of the random source and its recovery set and clear the failure. -/
def Obligations.KeyCommands : Prop :=
  (∀ (s : State) (t d k slot : Nat), s.keyTakes d k 1 slot → s.attrOk d (s.rd (pKEY k) Reg.KEY_ATTR) = true → 2 ≤ slot →
    s.slotValid slot = false → s.keys.rngFail = false →
    Completes (.generate t d k slot) s fun u =>
      let a := s.rd (pKEY k) Reg.KEY_ATTR
      u.slotValid slot = true ∧ u.slotF slot En.KSLOT_ATTR = a / 16 % 2 ^ 28 ∧ u.slotF slot En.KSLOT_GENERATED = 1 ∧
      u.slotF slot En.KSLOT_DERIVED = 0 ∧ u.slotF slot En.KSLOT_GEN = nextGen (s.slotF slot En.KSLOT_GEN) ∧
      u.slotF slot En.KSLOT_CREATED = (s.advance t).now % 2 ^ 64 ∧ smGet 0 slot u.keys.mat = s.randomKey (kaType a) ∧
      KeyRuns s u k ⟨k, some (u.handleOf slot), [], none⟩) ∧
  (∀ (s : State) (t d k slot : Nat), s.keyTakes d k 2 slot → s.attrOk d (s.rd (pKEY k) Reg.KEY_ATTR) = true → 2 ≤ slot →
    s.slotValid slot = false →
    Completes (.keyImport t d k slot) s fun u =>
      let a := s.rd (pKEY k) Reg.KEY_ATTR
      u.slotValid slot = true ∧ u.slotF slot En.KSLOT_ATTR = a / 16 % 2 ^ 28 ∧ u.slotF slot En.KSLOT_GENERATED = 0 ∧
      u.slotF slot En.KSLOT_DERIVED = 0 ∧ u.slotF slot En.KSLOT_GEN = nextGen (s.slotF slot En.KSLOT_GEN) ∧
      smGet 0 slot u.keys.mat = beNat ((s.staging k).take (if kaType a = 1 then 16 else 32)) ∧
      KeyRuns s u k ⟨k, some (u.handleOf slot), [], none⟩) ∧
  (∀ (s : State) (t d k slot : Nat), s.keyTakes d k 3 slot →
    s.subjCheck d (s.rd (pKEY k) Reg.KEY_SUBJ) (fun x => (kaUses x).testBit useKdf) = none →
    s.attrOk d (s.rd (pKEY k) Reg.KEY_ATTR) = true →
    attrWithin (s.rd (pKEY k) Reg.KEY_ATTR) (s.slotAttr (s.rd (pKEY k) Reg.KEY_SUBJ % 256)) = true →
    1 ≤ nth 0 (s.staging k) 48 → nth 0 (s.staging k) 48 ≤ 16 → nth 0 (s.staging k) 49 ≤ 32 → nth 0 (s.staging k) 0 ≠ 0 →
    2 ≤ slot → s.slotValid slot = false →
    Completes (.derive t d k slot) s fun u =>
      let a := s.rd (pKEY k) Reg.KEY_ATTR; let h := s.rd (pKEY k) Reg.KEY_SUBJ
      u.slotValid slot = true ∧ u.slotF slot En.KSLOT_ATTR = a / 16 % 2 ^ 28 ∧ u.slotF slot En.KSLOT_DERIVED = 1 ∧
      u.slotF slot En.KSLOT_PARENT = h % 256 ∧ u.slotF slot En.KSLOT_GEN = nextGen (s.slotF slot En.KSLOT_GEN) ∧
      smGet 0 slot u.keys.mat = kdfKey (kaType a) (s.keyMat h).1 (s.keyMat h).2 ((s.staging k).take (nth 0 (s.staging k) 48))
        (((s.staging k).drop 16).take (nth 0 (s.staging k) 49)) ∧
      KeyRuns s u k ⟨k, some (u.handleOf slot), [], none⟩) ∧
  (∀ (s : State) (t d k slot : Nat), s.keyTakes d k 4 slot → s.subjCheck d (s.rd (pKEY k) Reg.KEY_SUBJ) (fun _ => true) = none →
    fixedSlot (s.rd (pKEY k) Reg.KEY_SUBJ) = false →
    Completes (.destroy t d k slot) s fun u =>
      let n := s.rd (pKEY k) Reg.KEY_SUBJ % 256
      u.slotValid n = false ∧ u.slotF n En.KSLOT_GEN = nextGen (s.slotF n En.KSLOT_GEN) ∧
      u.keyCurrent (s.rd (pKEY k) Reg.KEY_SUBJ) = false ∧ KeyRuns s u k ⟨k, none, [], some n⟩) ∧
  (∀ (s : State) (t d k slot : Nat), s.keyTakes d k 5 slot → s.subjCheck d (s.rd (pKEY k) Reg.KEY_SUBJ) (fun _ => true) = none →
    fixedSlot (s.rd (pKEY k) Reg.KEY_SUBJ) = false → s.attrOk d (s.rd (pKEY k) Reg.KEY_ATTR) = true →
    attrWithin (s.rd (pKEY k) Reg.KEY_ATTR) (s.slotAttr (s.rd (pKEY k) Reg.KEY_SUBJ % 256)) = true →
    kaType (s.rd (pKEY k) Reg.KEY_ATTR) = kaType (s.slotAttr (s.rd (pKEY k) Reg.KEY_SUBJ % 256)) →
    Completes (.restrict t d k slot) s fun u =>
      let n := s.rd (pKEY k) Reg.KEY_SUBJ % 256
      u.slotF n En.KSLOT_ATTR = s.rd (pKEY k) Reg.KEY_ATTR / 16 % 2 ^ 28 ∧
      u.slotF n En.KSLOT_GEN = nextGen (s.slotF n En.KSLOT_GEN) ∧ u.keys.mat = s.keys.mat ∧
      KeyRuns s u k ⟨k, some (u.handleOf n), [], none⟩) ∧
  (∀ (s : State) (t d k slot : Nat), s.keyTakes d k 6 slot → s.subjCheck d (s.rd (pKEY k) Reg.KEY_SUBJ) (fun _ => true) = none →
    s.keys.rngFail = false →
    Completes (.attest t d k slot) s fun u =>
      let st := (s.advance t).statement (s.rd (pKEY k) Reg.KEY_SUBJ) ((s.staging k).take 16)
      u.keys.mat = s.keys.mat ∧
      KeyRuns s u k ⟨k, none, [st.take 32, (st.drop 32).take 32, st.drop 64] ++
        s.signWith (smGet 0 1 s.keys.mat) (sha256 st), none⟩) ∧
  (∀ (s : State) (t d k slot : Nat), s.keyTakes d k 7 slot →
    s.subjCheck d (s.rd (pKEY k) Reg.KEY_SUBJ) (fun x => (kaUses x).testBit useSign) = none →
    s.rd (pKEY k) Reg.KEY_SUBJ % 256 ≠ 1 → s.keys.rngFail = false →
    Completes (.keySign t d k slot) s fun u =>
      u.keys.mat = s.keys.mat ∧ KeyRuns s u k ⟨k, none, [[], [], []] ++
        s.signWith (s.keyMat (s.rd (pKEY k) Reg.KEY_SUBJ)).2 (beNat ((s.staging k).take 32)), none⟩) ∧
  (∀ (s : State) (t d k slot : Nat), s.keyTakes d k 8 slot →
    s.subjCheck d (s.rd (pKEY k) Reg.KEY_SUBJ) (fun x => kaType x = 3) = none →
    Completes (.pubkey t d k slot) s fun u =>
      let q := p256Public (s.keyMat (s.rd (pKEY k) Reg.KEY_SUBJ)).2
      u.keys.mat = s.keys.mat ∧ KeyRuns s u k ⟨k, none, [beBytes 32 q.1, beBytes 32 q.2], none⟩) ∧
  (∀ (s : State) (t : Nat) (r : KeyRun) (l : List KeyRun), s.live = true → s.keys.runs = r :: l → r.port < 4 →
    Completes (.keyCmdDone t) s fun u =>
      u.keys.runs = l ∧ u.flag (pKEY r.port) Fd.KEY_CMD_STATUS_BUSY = false ∧ u.flag (pKEY r.port) Fd.KEY_CMD_STATUS_DONE = true ∧
      (∀ h, r.result = some h → u.rd (pKEY r.port) Reg.KEY_RESULT = h % 2 ^ 32) ∧
      (∀ n, r.zero = some n → smGet 0 n u.keys.mat = 0) ∧
      (∀ i, i < 5 → u.ent (pKEY r.port) 2 0 i = bytesToEntry (nth [] r.outs i)) ∧ u.staging r.port = List.replicate 64 0 ∧
      BytesKept s u ∧ QueuesKept s u) ∧
  (∀ (s : State) (t : Nat), s.live = true →
    Completes (.rngHealthFail t) s fun u =>
      u.keys.rngFail = true ∧ u.keys.mat = s.keys.mat ∧
      u.count (pKEY 0) Cn.KEY_RNG_FAIL = (s.count (pKEY 0) Cn.KEY_RNG_FAIL + 1) % 2 ^ 64 ∧ RegsKept s u (errRegs (pKEY 0)) ∧
      TablesKept s u ∧ BytesKept s u) ∧
  (∀ (s : State) (t : Nat), s.live = true →
    Completes (.rngHealthRecovery t) s fun u =>
      u.keys.rngFail = false ∧ u.keys.mat = s.keys.mat ∧ RegsKept s u [] ∧ TablesKept s u ∧ CountsKept s u ∧ BytesKept s u)

/-- PROGRAM of an erased programmable word, LC_ADVANCE of an allowed transition by a secure domain, and RETIRE run until OTP_CMD_DONE,
which ORs the bits into the word, or burns the group of the new state and shows it as pending. At the debug port UNLOCK_CHAL and
UNLOCK_STAT answer; a right UNLOCK_RESP resets the logic die with debug requested and a right RETURN_RESP burns the RETURN group;
DEBUG_LC_REQUEST burns the group of an allowed target. With debug enabled DEBUG_MEMORY_ACCESS writes and reads external memory.
FRESHNESS_SAVE in Clause keeps exactly the persistent slots, with those a generation profile names marked. -/
def Obligations.OtpAndDebugPort : Prop :=
  (∀ (s : State) (t d : Nat), s.takes d (pOTP * 4096 + Reg.OTP_CMD) (2 ^ 31 + 1) → s.flag pOTP Fd.OTP_CMD_STATUS_BUSY = false →
    otpProgrammable (s.fld pOTP Fd.OTP_PROG_ADDR_WORD) s.lc = true → smGet 0 (s.fld pOTP Fd.OTP_PROG_ADDR_WORD) s.otp.words = 0 →
    s.powerFail = false →
    Completes (.program t d) s fun u =>
      u.otp.run = some (1, s.fld pOTP Fd.OTP_PROG_ADDR_WORD, s.rd pOTP Reg.OTP_PROG_DATA) ∧ u.otp.words = s.otp.words ∧
      u.flag pOTP Fd.OTP_CMD_STATUS_BUSY = true ∧ RegsKept s u [pOTP * 4096 + Reg.OTP_CMD_STATUS] ∧ TablesKept s u ∧ CountsKept s u) ∧
  (∀ (s : State) (t d x : Nat), x < 8 → s.takes d (pOTP * 4096 + Reg.OTP_CMD) (2 ^ 31 + x * 65536 + 2) →
    s.flag pOTP Fd.OTP_CMD_STATUS_BUSY = false → s.secure d = true → lcAdvanceOk s.lc x = true →
    Completes (.lcAdvance t d x) s fun u =>
      u.otp.run = some (2, 4, x) ∧ u.otp.words = s.otp.words ∧ u.flag pOTP Fd.OTP_CMD_STATUS_BUSY = true ∧
      RegsKept s u [pOTP * 4096 + Reg.OTP_CMD_STATUS] ∧ TablesKept s u ∧ CountsKept s u) ∧
  (∀ (s : State) (t d g : Nat), g < 4 → s.takes d (pOTP * 4096 + Reg.OTP_CMD) (2 ^ 31 + g * 256 + 3) →
    s.flag pOTP Fd.OTP_CMD_STATUS_BUSY = false →
    Completes (.retire t d g) s fun u =>
      u.otp.run = some (3, 0x101 + 0x80 * g, 0xFF) ∧ u.otp.words = s.otp.words ∧ u.flag pOTP Fd.OTP_CMD_STATUS_BUSY = true ∧
      RegsKept s u [pOTP * 4096 + Reg.OTP_CMD_STATUS] ∧ TablesKept s u ∧ CountsKept s u) ∧
  (∀ (s : State) (t op w x : Nat), s.live = true → s.otp.run = some (op, w, x) → op ≠ 2 → x < 2 ^ 32 →
    Completes (.otpCmdDone t 0) s fun u =>
      u.otp.run = none ∧ smGet 0 w u.otp.words = smGet 0 w s.otp.words ||| x ∧
      (∀ k, k ≠ w → smGet 0 k u.otp.words = smGet 0 k s.otp.words) ∧ u.flag pOTP Fd.OTP_CMD_STATUS_BUSY = false ∧
      u.flag pOTP Fd.OTP_CMD_STATUS_DONE = true ∧ TablesKept s u ∧ BytesKept s u) ∧
  (∀ (s : State) (t lost w x : Nat), s.live = true → s.otp.run = some (2, w, x) → 1 ≤ x → x ≤ 5 →
    Completes (.otpCmdDone t lost) s fun u =>
      u.otp.run = none ∧ smGet 0 4 u.otp.words = smGet 0 4 s.otp.words ||| 3 * 4 ^ (x - 1) ∧
      u.fld pOTP Fd.OTP_STATUS_LC_PENDING = lcOf (smGet 0 4 u.otp.words) ∧ u.fld pOTP Fd.OTP_STATUS_LC = s.fld pOTP Fd.OTP_STATUS_LC ∧
      u.flag pOTP Fd.OTP_CMD_STATUS_DONE = true ∧ BytesKept s u) ∧
  (∀ (s : State) (t : Nat), s.boot ≠ .off → s.pwr ≠ .comma → s.keys.rngFail = false →
    Completes (.unlockChal t) s fun u =>
      u.out = s.out ++ [.sent "debug challenge" [s.dbg.chal]] ∧ RegsKept s u [] ∧ TablesKept s u ∧ CountsKept s u ∧ BytesKept s u) ∧
  (∀ (s : State) (t : Nat), s.boot ≠ .off → s.pwr ≠ .comma →
    Completes (.unlockStat t) s fun u =>
      u.out = s.out ++ [.sent "debug status" [s.fld pOTP Fd.OTP_STATUS_DEBUG + b2n s.pow.debugReq * 2 +
        b2n (3 ≤ s.dbg.wrong) * 4 + s.lc * 8]] ∧ RegsKept s u [] ∧ TablesKept s u ∧ CountsKept s u ∧ BytesKept s u) ∧
  (∀ (s : State) (t resp : Nat), s.boot ≠ .off → s.pwr ≠ .comma → s.unlockOpen = true → s.dbg.wrong < 3 → s.powerFail = false →
    s.unlockMac 0x020 1 = beBytes 16 resp →
    Completes (.unlockResp t resp) s fun u =>
      u.pow.debugReq = true ∧ u.pow.cause = 6 ∧ u.pow.step4 = true ∧ u.boot = .off ∧ u.otp.words = s.otp.words) ∧
  (∀ (s : State) (t resp : Nat), s.boot ≠ .off → s.pwr ≠ .comma → (s.lc = 2 ∨ s.lc = 3) → s.dbg.wrong < 3 →
    s.unlockMac 0x024 2 = beBytes 16 resp →
    Completes (.returnResp t resp) s fun u =>
      smGet 0 4 u.otp.words = smGet 0 4 s.otp.words ||| 192 ∧ (∀ k, k ≠ 4 → smGet 0 k u.otp.words = smGet 0 k s.otp.words) ∧
      u.fld pOTP Fd.OTP_STATUS_LC_PENDING = lcOf (smGet 0 4 u.otp.words) ∧ TablesKept s u ∧ CountsKept s u ∧ BytesKept s u) ∧
  (∀ (s : State) (t x : Nat), s.boot ≠ .off → s.pwr ≠ .comma → s.debugLcOk x = true →
    Completes (.debugLcRequest t x) s fun u =>
      smGet 0 4 u.otp.words = smGet 0 4 s.otp.words ||| 3 * 4 ^ (x - 1) ∧
      u.fld pOTP Fd.OTP_STATUS_LC_PENDING = lcOf (smGet 0 4 u.otp.words) ∧ TablesKept s u ∧ CountsKept s u ∧ BytesKept s u) ∧
  (∀ (s : State) (t a n : Nat) (bs : List Nat), s.live = true → s.flag pOTP Fd.OTP_STATUS_DEBUG = true →
    Completes (.debugMemoryAccess t a (some bs) n) s fun u =>
      (∀ k, k < bs.length → u.dramByte (a + k) = nth 0 bs k % 256) ∧ (∀ x, x < a ∨ a + bs.length ≤ x → u.dramByte x = s.dramByte x) ∧
      (∀ o, u.mramByte o = s.mramByte o) ∧ RegsKept s u [] ∧ TablesKept s u) ∧
  (∀ (s : State) (t a n : Nat), s.live = true → s.flag pOTP Fd.OTP_STATUS_DEBUG = true →
    Completes (.debugMemoryAccess t a none n) s fun u =>
      u.out = s.out ++ [.sent "debug memory" ((List.range n).map fun k => s.dramByte (a + k))] ∧ RegsKept s u [] ∧ TablesKept s u ∧
      BytesKept s u) ∧
  (∀ (s : State) (t : Nat), s.runs? = true → s.pwr = .clause →
    Completes (.freshnessSave t) s fun u =>
      (∀ n, (∃ x, x ∈ u.freshSaved ∧ x.slot = n) ↔ (∃ e, (n, e) ∈ s.tabList (pMSEC 0) 1 0 ∧ fget e En.FRSH_PERSIST = 1)) ∧
      (∀ x, x ∈ u.freshSaved → x.shift = if s.genSlots.contains x.slot then some (s.fld (pMSEC 0) Fd.MSEC_CFG_RG_SHIFT) else none) ∧
      RegsKept s u [] ∧ TablesKept s u ∧ CountsKept s u ∧ BytesKept s u)
/-! ### External memory -/

/-- BAR4_ACCESS within the open region writes the bytes at the region's base plus the offset and nothing else, or answers them.
TRAINING_DONE of a configuration of Table 1 sets READY and its size, a failed step sets FAIL and STEP. RETRAIN while ENABLE = 0 clears both.
ARBITER_GRANT of an idle bus grants the older of two pending requests and leaves the other pending. EMC_HOG at the limit cuts the
holder off. REFRESH records the refresh-rate code, and the preemption of a holder. SCRUB_LINE of an idle bus counts a line of
the regions. EMC_TEMP records the code, raises and logs. -/
def Obligations.ExternalMemory : Prop :=
  (∀ (s : State) (t d o n : Nat) (bs : List Nat) (ecc : Option Nat), s.runs? = true → d < 4 → s.fld pEMC Fd.EMC_HOST_ACTIVE_LOG2 ≠ 0 →
    o + bs.length ≤ 2 ^ (s.fld pEMC Fd.EMC_HOST_ACTIVE_LOG2 - 1) * 2 ^ 20 → s.hostHas o bs.length = true → s.enabled pEMC = true →
    Completes (.bar4Access t d o (some bs) n ecc) s fun u =>
      (∀ k, k < bs.length → u.dramByte (s.hostBase + o + k) = nth 0 bs k % 256) ∧
      (∀ x, x < s.hostBase + o ∨ s.hostBase + o + bs.length ≤ x → u.dramByte x = s.dramByte x) ∧
      (∀ x, u.mramByte x = s.mramByte x) ∧ RegsKept s u [] ∧ TablesKept s u ∧ CountsKept s u ∧ QueuesKept s u) ∧
  (∀ (s : State) (t d o n : Nat), s.runs? = true → d < 4 → s.fld pEMC Fd.EMC_HOST_ACTIVE_LOG2 ≠ 0 →
    o + n ≤ 2 ^ (s.fld pEMC Fd.EMC_HOST_ACTIVE_LOG2 - 1) * 2 ^ 20 → s.hostHas o n = true → s.enabled pEMC = true →
    Completes (.bar4Access t d o none n none) s fun u =>
      u.out = s.out ++ [.sent "bar4 read" (d :: s.hostBytes o n)] ∧ RegsKept s u [] ∧ TablesKept s u ∧ CountsKept s u ∧ BytesKept s u) ∧
  (∀ (s : State) (t step ranks density : Nat), s.boot ≠ .off → s.pwr ≠ .comma → s.flag pEMC Fd.EMC_DRAM_READY = false →
    s.flag pEMC Fd.EMC_DRAM_FAIL = false → usableMib ranks density ≠ 0 → step ≤ 5 →
    Completes (.trainingDone t step ranks density) s fun u =>
      u.fld pEMC Fd.EMC_DRAM_RANKS = ranks ∧ u.fld pEMC Fd.EMC_DRAM_DENSITY = density ∧ TablesKept s u ∧ BytesKept s u ∧
      (if step = 0 then u.flag pEMC Fd.EMC_DRAM_READY = true ∧ u.fld pEMC Fd.EMC_USABLE_MIB = usableMib ranks density
       else u.flag pEMC Fd.EMC_DRAM_FAIL = true ∧ u.fld pEMC Fd.EMC_DRAM_STEP = step ∧ u.fld pEMC Fd.EMC_USABLE_MIB = 0)) ∧
  (∀ (s : State) (t d : Nat), s.takes d (pEMC * 4096 + Reg.EMC_CFG) (s.rd pEMC Reg.EMC_CFG ||| 2) →
    (s.rd pEMC Reg.EMC_CFG ||| 2) / 256 % 8 < 4 → s.enabled pEMC = false →
    Completes (.retrain t d) s fun u =>
      u.rd pEMC Reg.EMC_DRAM = 0 ∧ u.fld pEMC Fd.EMC_USABLE_MIB = 0 ∧
      RegsKept s u [pEMC * 4096 + Reg.EMC_CFG, pEMC * 4096 + Reg.EMC_DRAM, pEMC * 4096 + Fd.EMC_USABLE_MIB.off] ∧
      TablesKept s u ∧ CountsKept s u ∧ BytesKept s u) ∧
  (∀ (s : State) (t clocks a b x y bytes corr : Nat) (ecc : List Nat), s.live = true → s.frozen pEMC = false →
    s.fld pEMC Fd.EMC_ARB_HOLDER = 8 → s.emc.ages = [] → a < 8 → b < 8 → a ≠ b → y < x → x < 65535 →
    Completes (.arbiterGrant t clocks [(a, x), (b, y)] [] bytes ecc corr) s fun u =>
      u.fld pEMC Fd.EMC_ARB_HOLDER = a ∧ u.fld pEMC Fd.EMC_ARB_PENDING = 2 ^ b ∧ u.emc.ages = [(b, y + 1)] ∧
      u.count pEMC (Cn.EMC_GRANTS + 8 * a) = (s.count pEMC (Cn.EMC_GRANTS + 8 * a) + 1) % 2 ^ 64 ∧
      TablesKept s u ∧ BytesKept s u ∧ QueuesKept s u) ∧
  (∀ (s : State) (t clocks bytes : Nat), s.live = true → s.fld pEMC Fd.EMC_ARB_HOLDER < 8 →
    s.fld pEMC Fd.EMC_HOG_LIMIT_CLOCKS ≤ clocks →
    Completes (.emcHog t clocks bytes false) s fun u =>
      u.fld pEMC Fd.EMC_ARB_HOLDER = 8 ∧ (u.rd pEMC Reg.EMC_HOG_STAT).testBit (s.fld pEMC Fd.EMC_ARB_HOLDER) = true ∧
      u.count pEMC Cn.EMC_HOG_CUTS = (s.count pEMC Cn.EMC_HOG_CUTS + 1) % 2 ^ 64 ∧ TablesKept s u ∧ BytesKept s u) ∧
  (∀ (s : State) (t clocks rate : Nat), s.live = true →
    Completes (.refresh t clocks rate) s fun u =>
      u.fld pEMC Fd.EMC_TEMP_RATE_CODE = rate % 2 ^ Fd.EMC_TEMP_RATE_CODE.w ∧
      u.fld pEMC Fd.EMC_ARB_HOLDER = s.fld pEMC Fd.EMC_ARB_HOLDER ∧
      u.count pEMC Cn.EMC_REFRESH_PREEMPT
        = (s.count pEMC Cn.EMC_REFRESH_PREEMPT + if s.fld pEMC Fd.EMC_ARB_HOLDER < 8 then 1 else 0) % 2 ^ 64 ∧
      TablesKept s u ∧ BytesKept s u ∧ QueuesKept s u) ∧
  (∀ (s : State) (t line : Nat), s.live = true → s.flag pEMC Fd.EMC_CFG_SCRUB_EN = true → s.inRegions line = true →
    s.fld pEMC Fd.EMC_ARB_HOLDER = 8 → s.fld pEMC Fd.EMC_ARB_PENDING = 0 →
    Completes (.scrubLine t line 0) s fun u =>
      u.count pEMC Cn.EMC_SCRUB_LINES = (s.count pEMC Cn.EMC_SCRUB_LINES + 1) % 2 ^ 64 ∧ RegsKept s u [] ∧ TablesKept s u ∧
      BytesKept s u ∧ QueuesKept s u) ∧
  (∀ (s : State) (t rate : Nat), s.live = true →
    Completes (.emcTemp t rate) s fun u =>
      u.fld pEMC Fd.EMC_TEMP_RATE_CODE = rate % 2 ^ Fd.EMC_TEMP_RATE_CODE.w ∧ u.flag pEMC Fd.ERR_VALID = true ∧
      RegsKept s u ((pEMC * 4096 + Fd.EMC_TEMP_RATE_CODE.off) :: errRegs pEMC) ∧ TablesKept s u ∧ BytesKept s u)
/-! ### Starts and power states -/

/-- LINE_DIE_POR leaves OFF with cause 1 pending, and the OTP and MRAM contents. SYS_RESET_N held for 1 us and GLB_RESET with its
key by a secure domain, with no power-fail, hold the logic die in reset for step 4 with cause 4 or 5. PG_ALL_GOOD in time goes ON with
the pending cause; PG_TIMEOUT retries, and at the third faults; PMIC_OFF_ELAPSED asserts PMIC_EN again. LOGIC_DIE_RESET_RELEASE, or
REF_CHECK for a late reference, begins the self-test. SELF_TEST_DONE with an empty failure map is READY, stamped; with a failure it enters
Interjection. INTERJECTION_STATUS_FRAME queues the frame of the map. -/
def Obligations.StartSequence : Prop :=
  (∀ (s : State) (t : Nat),
    Completes (.lineDiePor t) s fun u =>
      u.boot = .off ∧ u.frc = 0 ∧ u.pow.start = some 1 ∧ u.seq = 0 ∧ u.otp.words = s.otp.words ∧
      (∀ o, u.mramByte o = s.mramByte o) ∧ u.fld pTIME Fd.TIME_EPOCH_EPOCH = s.fld pTIME Fd.TIME_EPOCH_EPOCH) ∧
  (∀ (s : State) (t ns : Nat), 1000 ≤ ns → s.seq = 2 → s.boot ≠ .off → s.powerFail = false →
    Completes (.sysResetN t ns) s fun u =>
      u.boot = .off ∧ u.pow.cause = 4 ∧ u.pow.step4 = true ∧ u.seq = 2 ∧ u.otp.words = s.otp.words ∧
      (∀ o, u.mramByte o = s.mramByte o)) ∧
  (∀ (s : State) (t d v : Nat), s.takes d (pGLB * 4096 + Reg.GLB_RESET) v → v / 65536 % 65536 = 0x5A0D → s.secure d = true →
    s.powerFail = false →
    Completes (.glbReset t d v) s fun u =>
      u.boot = .off ∧ u.pow.cause = 5 ∧ u.pow.step4 = true ∧ u.otp.words = s.otp.words ∧ (∀ o, u.mramByte o = s.mramByte o)) ∧
  (∀ (s : State) (t : Nat), s.seq = 1 → (s.advance t).now ≤ s.pow.enAt + 5000000 →
    Completes (.pgAllGood t) s fun u =>
      u.seq = 2 ∧ u.pow.step4 = true ∧ u.pow.cause = s.pow.start.getD 1 ∧ u.pow.start = none ∧ u.pow.touts = 0 ∧
      u.flag pLINE Fd.LINE_STATUS_PG_CORE = true ∧ RegsKept s u [pLINE * 4096 + Fd.LINE_STATUS_SEQ.off] ∧ TablesKept s u ∧ BytesKept s u) ∧
  (∀ (s : State) (t : Nat), s.seq = 1 → s.pow.enAt + 5000000 ≤ (s.advance t).now →
    Completes (.pgTimeout t) s fun u =>
      u.seq = (if 3 ≤ s.pow.touts + 1 then 5 else 3) ∧ u.pow.touts = s.pow.touts + 1 ∧
      u.flag pLINE Fd.LINE_STATUS_PMIC_EN = false ∧ u.flag pLINE Fd.LINE_RETAIN_PG_TIMEOUT = true ∧
      u.pow.offAt = some (s.advance t).now ∧ TablesKept s u ∧ BytesKept s u) ∧
  (∀ (s : State) (t : Nat), (s.advance t).pmicRested = true → (s.seq = 3 ∨ s.seq = 4 ∧ s.pow.start.isSome = true) →
    Completes (.pmicOffElapsed t) s fun u =>
      u.seq = 1 ∧ u.flag pLINE Fd.LINE_STATUS_PMIC_EN = true ∧ u.pow.enAt = (s.advance t).now ∧ u.pow.start = s.pow.start ∧
      RegsKept s u [pLINE * 4096 + Fd.LINE_STATUS_SEQ.off] ∧ TablesKept s u ∧ BytesKept s u) ∧
  (∀ (s : State) (t corr lost crg : Nat) (bad : List Nat), s.pow.step4 = true → s.boot = .off → s.pow.plls < 3 → s.pow.late = false →
    Completes (.logicDieResetRelease t true true bad corr lost crg) s fun u =>
      u.boot = .starting ∧ u.fld pGLB Fd.GLB_BOOT_CAUSE = s.pow.cause % 16 ∧ u.flag pGLB Fd.GLB_BOOT_CLK_LATE = false ∧
      u.fld pOTP Fd.OTP_STATUS_LC = lcOf (smGet 0 4 u.otp.words)) ∧
  (∀ (s : State) (t corr lost crg : Nat) (bad : List Nat), s.pow.step4 = true → s.boot = .off → s.pow.plls < 3 → s.pow.late = true →
    Completes (.refCheck t true true bad corr lost crg) s fun u =>
      u.boot = .starting ∧ u.fld pGLB Fd.GLB_BOOT_CAUSE = s.pow.cause % 16 ∧ u.flag pGLB Fd.GLB_BOOT_CLK_LATE = true ∧
      u.fld pOTP Fd.OTP_STATUS_LC = lcOf (smGet 0 4 u.otp.words)) ∧
  (∀ (s : State) (t found rows : Nat), s.boot = .starting → s.failMap found = 0 →
    Completes (.selfTestDone t found rows) s fun u =>
      u.boot = .ready ∧ u.pwr = .clause ∧ u.flag pGLB Fd.GLB_BOOT_READY = true ∧
      u.rd64 pGLB Reg.GLB_READY_STAMP_LO = (s.advance t).now % 2 ^ 64 ∧ u.rd64 pGLB Reg.GLB_ST_FAIL_LO = 0) ∧
  (∀ (s : State) (t found rows : Nat), s.boot = .starting → s.failMap found ≠ 0 →
    Completes (.selfTestDone t found rows) s fun u =>
      u.boot = .interjection ∧ u.flag pGLB Fd.GLB_BOOT_INTERJECTION = true ∧
      u.rd64 pGLB Reg.GLB_READY_STAMP_LO = (s.advance t).now % 2 ^ 64 ∧
      u.rd64 pGLB Reg.GLB_ST_FAIL_LO = s.failMap found % 2 ^ 64 ∧ u.pow.interE = (s.advance t).now) ∧
  (∀ (s : State) (t : Nat), s.boot = .interjection → s.diagChan < 24 → (s.can s.diagChan).attempt = none → (s.can s.diagChan).rtq = [] →
    s.pow.interE + s.pow.interN * 100000000 ≤ (s.advance t).now →
    Completes (.interjectionStatusFrame t) s fun u =>
      (u.can s.diagChan).rtq = [⟨s.diagFrame, (s.advance t).now, 0, 0⟩] ∧ u.pow.interN = s.pow.interN + 1 ∧
      TablesKept s u ∧ CountsKept s u ∧ BytesKept s u)

/-- PG_LOST and CRG_REF_LOST, with the rails on and no power-fail, hold the reason in LINE_RETAIN and power-cycle the logic die with
cause 3 pending. VCC5_UV and VCC5_RECOVERY change VCC5_OK. VBAT_SAMPLE of 4.5 V or more stores both samples and keeps the sequence ON;
below 4.5 V the line die is reset. CRG_X32K_FAIL takes the RC oscillator and says so; X32K_START takes the crystal. -/
def Obligations.SuppliesAndClocks : Prop :=
  (∀ (s : State) (t : Nat), s.seq = 2 → s.powerFail = false →
    Completes (.pgLost t) s fun u =>
      u.boot = .off ∧ u.seq = 4 ∧ u.pow.start = some 3 ∧ u.flag pLINE Fd.LINE_RETAIN_PG_LOST = true ∧
      u.flag pLINE Fd.LINE_STATUS_PMIC_EN = false ∧ u.otp.words = s.otp.words ∧ (∀ o, u.mramByte o = s.mramByte o)) ∧
  (∀ (s : State) (t : Nat) (pll : Bool), s.seq = 2 → s.boot ≠ .off → s.pwr ≠ .comma → s.powerFail = false →
    Completes (.crgRefLost t pll) s fun u =>
      u.boot = .off ∧ u.seq = 4 ∧ u.pow.start = some 3 ∧
      u.flag pLINE (if pll then Fd.LINE_RETAIN_PLL_FAIL else Fd.LINE_RETAIN_REF_LOST) = true ∧ u.otp.words = s.otp.words ∧
      (∀ o, u.mramByte o = s.mramByte o)) ∧
  (∀ (s : State) (t : Nat),
    Completes (.vcc5Uv t) s fun u =>
      u.flag pLINE Fd.LINE_STATUS_VCC5_OK = false ∧ u.seq = s.seq ∧
      RegsKept s u ((pLINE * 4096 + Fd.LINE_STATUS_SEQ.off) :: errRegs pLINE) ∧ TablesKept s u ∧ BytesKept s u) ∧
  (∀ (s : State) (t : Nat),
    Completes (.vcc5Recovery t) s fun u =>
      u.flag pLINE Fd.LINE_STATUS_VCC5_OK = true ∧ u.seq = s.seq ∧ RegsKept s u [pLINE * 4096 + Fd.LINE_STATUS_SEQ.off] ∧
      TablesKept s u ∧ CountsKept s u ∧ BytesKept s u) ∧
  (∀ (s : State) (t v w : Nat), 4500 ≤ v → v < 65536 → w < 65536 → s.seq = 2 →
    Completes (.vbatSample t v w) s fun u =>
      u.fld pLINE Fd.LINE_VBAT_VBAT_MV = v ∧ u.fld pLINE Fd.LINE_VBAT_SNS_MV = w ∧ u.seq = 2 ∧ u.pow.start = s.pow.start ∧
      TablesKept s u ∧ BytesKept s u ∧ QueuesKept s u) ∧
  (∀ (s : State) (t v w : Nat), v < 4500 →
    Completes (.vbatSample t v w) s fun u => u.boot = .off ∧ u.frc = 0 ∧ u.pow.start = some 1 ∧ u.otp.words = s.otp.words) ∧
  (∀ (s : State) (t : Nat), s.flag pLINE Fd.LINE_CFG_X32K_EN = true → s.flag pTIME Fd.TIME_FRC_STATE_SRC_RC = false →
    Completes (.crgX32kFail t) s fun u =>
      u.flag pTIME Fd.TIME_FRC_STATE_SRC_RC = true ∧ u.flag pLINE Fd.LINE_STATUS_X32K_FAIL = true ∧ TablesKept s u ∧ BytesKept s u) ∧
  (∀ (s : State) (t : Nat), s.flag pLINE Fd.LINE_CFG_X32K_EN = true → s.flag pLINE Fd.LINE_STATUS_X32K_FAIL = false →
    Completes (.x32kStart t) s fun u =>
      u.flag pTIME Fd.TIME_FRC_STATE_SRC_RC = false ∧ RegsKept s u [pTIME * 4096 + Reg.TIME_FRC_STATE] ∧
      TablesKept s u ∧ CountsKept s u ∧ BytesKept s u)

/-- COMMA_REQUEST, PERIOD_REQUEST and AUTO_POWER_REQUEST that no reason refuses make the entry pending with its commit point;
COMMA_ENTRY 50 us after it enters Comma, counted, and PERIOD_ENTRY after the handover enters Period with the logic die off. A host access or
the wake timer makes an exit due; COMMA_EXIT resumes Clause with EXIT_SRC and its stamp, PERIOD_EXIT makes cause 2 pending. POWER_FAIL
in Clause holds PF and starts the last gasp, or PF_HOLD with the Transcript disabled; LAST_GASP_COMPLETE ends in PF_HOLD with
PF_DONE; VBAT_RECOVERY clears PF_WARN and makes cause 2 pending. -/
def Obligations.PowerStates : Prop :=
  (∀ (s : State) (t d : Nat), s.takes d (pPWR * 4096 + Reg.PWR_REQ) (2 ^ 31 + 1) → s.pwrReason d 1 false = none →
    Completes (.commaRequest t d) s fun u =>
      u.pwr = .commaPending ∧ u.pow.commit = (s.advance t).now + s.fld pPWR Fd.PWR_CFG_COMMIT_US * 1000 ∧
      u.fld pPWR Fd.PWR_STATE_STATE = 1 ∧ u.rd64 pPWR Reg.PWR_ENTRY_STAMP_LO = u.pow.commit % 2 ^ 64 ∧ TablesKept s u ∧
      CountsKept s u ∧ BytesKept s u ∧ QueuesKept s u) ∧
  (∀ (s : State) (t d : Nat) (force : Bool), s.takes d (pPWR * 4096 + Reg.PWR_REQ) (2 ^ 31 + b2n force * 4 + 2) →
    s.pwrReason d 2 force = none →
    Completes (.periodRequest t d force) s fun u =>
      u.pwr = .periodPending ∧ u.time.handover = true ∧ u.fld pPWR Fd.PWR_STATE_STATE = 2 ∧ u.trn.lowHead = none ∧
      u.trn.highHead = none) ∧
  (∀ (s : State) (t x : Nat), s.runs? = true → s.fld pPWR Fd.PWR_CFG_AUTO = 1 → s.pow.lowSince = some x →
    x + s.fld pPWR Fd.PWR_CFG_AUTO_DELAY_MS * 1000000 ≤ (s.advance t).now → s.pwrReason 7 1 false = none →
    Completes (.autoPowerRequest t) s fun u =>
      u.pwr = .commaPending ∧ u.pow.commit = (s.advance t).now + s.fld pPWR Fd.PWR_CFG_COMMIT_US * 1000 ∧
      u.fld pPWR Fd.PWR_STATE_STATE = 1 ∧ TablesKept s u ∧ CountsKept s u ∧ BytesKept s u) ∧
  (∀ (s : State) (t : Nat), s.pwr = .commaPending → s.pow.commit + 50000 ≤ (s.advance t).now →
    Completes (.commaEntry t) s fun u =>
      u.pwr = .comma ∧ u.coarse = true ∧ u.flag pTIME Fd.TIME_FRC_STATE_COMMA = true ∧
      u.count pPWR Cn.PWR_COMMA_ENTRIES = (s.count pPWR Cn.PWR_COMMA_ENTRIES + 1) % 2 ^ 64 ∧ u.trn.lowHead = none ∧ u.trn.highHead = none) ∧
  (∀ (s : State) (t : Nat), s.pwr = .periodPending → s.coarse = true → s.pow.abort = false → s.powerFail = false →
    Completes (.periodEntry t) s fun u =>
      u.pwr = .period ∧ u.boot = .off ∧ u.seq = 4 ∧ u.flag pLINE Fd.LINE_STATUS_PMIC_EN = false ∧ u.otp.words = s.otp.words ∧
      (∀ o, u.mramByte o = s.mramByte o)) ∧
  (∀ (s : State) (t src st : Nat), s.pwr = .comma → s.pow.exit = some (src, st) →
    Completes (.commaExit t) s fun u =>
      u.pwr = .clause ∧ u.coarse = false ∧ u.fld pPWR Fd.PWR_STATE_STATE = 0 ∧ u.fld pPWR Fd.PWR_STATE_EXIT_SRC = src % 8 ∧
      u.rd64 pPWR Reg.PWR_EXIT_STAMP_LO = (s.advance t).now % 2 ^ 64 ∧ u.flag pTIME Fd.TIME_FRC_STATE_COMMA = false) ∧
  (∀ (s : State) (t : Nat), s.pwr = .period → s.pow.exit.isSome = true →
    Completes (.periodExit t) s fun u =>
      u.pwr = .clause ∧ u.pow.start = some 2 ∧ u.pow.cause = 2 ∧
      u.rd64 pPWR Reg.PWR_EXIT_STAMP_LO = (s.advance t).now % 2 ^ 64 ∧ TablesKept s u ∧ CountsKept s u ∧ BytesKept s u) ∧
  (∀ (s : State) (t src st : Nat), 2 ≤ src → src ≤ 5 → s.pwr = .comma → s.pow.exit = none →
    Completes (.hostAccessWake t src st) s fun u =>
      u.pow.exit = some (src, st) ∧ RegsKept s u [] ∧ TablesKept s u ∧ CountsKept s u ∧ BytesKept s u) ∧
  (∀ (s : State) (t : Nat), (s.pwr = .comma ∨ s.pwr = .period) → s.pow.exit = none → s.fld pPWR Fd.PWR_TIMER_SECONDS ≠ 0 →
    s.pow.commit + s.fld pPWR Fd.PWR_TIMER_SECONDS * 1000000000 ≤ (s.advance t).now →
    Completes (.wakeTimer t) s fun u =>
      u.pow.exit = some (7, (s.advance t).now) ∧ RegsKept s u [] ∧ TablesKept s u ∧ CountsKept s u ∧ BytesKept s u) ∧
  (∀ (s : State) (t P : Nat), s.boot = .ready → s.pwr = .clause → s.powerFail = false →
    P + s.fld pLINE Fd.LINE_PF_FILT_US * 1000 ≤ (s.advance t).now →
    Completes (.powerFail t P) s fun u =>
      u.flag pLINE Fd.LINE_STATUS_PF_WARN = true ∧ u.flag pLINE Fd.LINE_RETAIN_PF = true ∧ u.otp.words = s.otp.words ∧
      (if s.enabled pTRN then u.pwr = .lastGasp ∧ u.fld pPWR Fd.PWR_STATE_STATE = 3 ∧ u.trn.pf = some P
       else u.pwr = .pfHold ∧ u.boot = .off)) ∧
  (∀ (s : State) (t : Nat), s.pwr = .lastGasp → s.trn.cap = none →
    Completes (.lastGaspComplete t) s fun u =>
      u.pwr = .pfHold ∧ u.boot = .off ∧ u.flag pLINE Fd.LINE_RETAIN_PF_DONE = true ∧ u.otp.words = s.otp.words) ∧
  (∀ (s : State) (t x : Nat), s.pwr = .pfHold → s.pow.highSince = some x →
    x + s.fld pLINE Fd.LINE_PF_RESTART * 10000000 ≤ (s.advance t).now →
    Completes (.vbatRecovery t) s fun u =>
      u.pwr = .clause ∧ u.flag pLINE Fd.LINE_STATUS_PF_WARN = false ∧ u.pow.start = some 2 ∧ u.pow.cause = 2 ∧
      TablesKept s u ∧ CountsKept s u ∧ BytesKept s u)
/-! ### The fault log -/

/-- FAULT_REPORT of a page's oldest report, with room, stores its entry at HEAD under the next SEQ and counts it; a report that
merges adds one to the newest entry's REPEAT. LOG_PARITY of a register loads its reset word and latches LOG_PARITY. CLEAR empties the log; PIN_ACK
outside Interjection clears PIN. LOG_WDOG_KICK in time restarts the first stage; LOG_WDOG_WARN at its deadline enters the second;
LOG_WDOG_RESET at the second resets the logic die with cause 5 and logs at the next start. -/
def Obligations.FaultLogAndWatchdog : Prop :=
  (∀ (s : State) (t p : Nat) (r : Report), s.boot ≠ .off → (s.reports.find? fun x => x.page = p) = some r → s.logMerges r = false →
    s.fld pLOG Fd.LOG_STATUS_COUNT < 1024 →
    Completes (.faultReport t p) s fun u =>
      u.ent pLOG 0 0 (s.fld pLOG Fd.LOG_STATUS_HEAD) = bytesToEntry (logBytes r (s.fld pLOG Fd.LOG_SEQ_NEXT)) ∧
      u.fld pLOG Fd.LOG_STATUS_HEAD = (s.fld pLOG Fd.LOG_STATUS_HEAD + 1) % 1024 ∧
      u.fld pLOG Fd.LOG_STATUS_COUNT = s.fld pLOG Fd.LOG_STATUS_COUNT + 1 ∧
      u.fld pLOG Fd.LOG_SEQ_NEXT = (s.fld pLOG Fd.LOG_SEQ_NEXT + 1) % 65536 ∧
      u.count pLOG Cn.LOG_ENTRIES = (s.count pLOG Cn.LOG_ENTRIES + 1) % 2 ^ 64) ∧
  (∀ (s : State) (t p : Nat) (r : Report), s.boot ≠ .off → (s.reports.find? fun x => x.page = p) = some r → s.logMerges r = true →
    Completes (.faultReport t p) s fun u =>
      u.reports = s.reports.erase r ∧ leRepeat (u.ent pLOG 0 0 s.logNewest) = leRepeat (s.ent pLOG 0 0 s.logNewest) + 1 ∧
      u.fld pLOG Fd.LOG_STATUS_COUNT = s.fld pLOG Fd.LOG_STATUS_COUNT ∧
      u.count pLOG Cn.LOG_MERGED = (s.count pLOG Cn.LOG_MERGED + 1) % 2 ^ 64 ∧ BytesKept s u ∧ QueuesKept s u) ∧
  (∀ (s : State) (t p off : Nat), s.boot ≠ .off → off < 4096 → p * 4096 + off ∉ errRegs p →
    Completes (.logParity t p off) s fun u =>
      u.reg (p * 4096 + off) = resetWord (p * 4096 + off) ∧ u.flag p Fd.ERR_VALID = true ∧
      RegsKept s u ((p * 4096 + off) :: errRegs p) ∧ TablesKept s u ∧ BytesKept s u) ∧
  (∀ (s : State) (t d : Nat), s.takes d (pLOG * 4096 + Reg.LOG_CLEAR) 1 →
    Completes (.logClear t d) s fun u =>
      u.fld pLOG Fd.LOG_STATUS_COUNT = 0 ∧ u.flag pLOG Fd.LOG_STATUS_WRAPPED = false ∧
      u.fld pLOG Fd.LOG_STATUS_HEAD = s.fld pLOG Fd.LOG_STATUS_HEAD ∧ (∀ i, i < 1024 → u.ent pLOG 0 0 i = 0) ∧
      RegsKept s u [pLOG * 4096 + Fd.LOG_STATUS_COUNT.off] ∧ CountsKept s u ∧ BytesKept s u) ∧
  (∀ (s : State) (t d : Nat), s.takes d (pLOG * 4096 + Reg.LOG_CLEAR) 2 →
    Completes (.pinAck t d) s fun u =>
      u.flag pLOG Fd.LOG_STATUS_PIN = false ∧ RegsKept s u [pLOG * 4096 + Fd.LOG_STATUS_COUNT.off] ∧
      u.fld pLOG Fd.LOG_STATUS_COUNT = s.fld pLOG Fd.LOG_STATUS_COUNT ∧ TablesKept s u ∧ CountsKept s u ∧ BytesKept s u) ∧
  (∀ (s : State) (t d v : Nat), s.takes d (pLOG * 4096 + Reg.LOG_WDOG_KICK) v → v / 65536 % 65536 = 0x71C5 →
    s.fld pLOG Fd.LOG_WDOG_STAT_STAGE = 1 → s.fld pLOG Fd.LOG_WDOG_CFG_WARN_MS ≠ 0 → (s.advance t).now ≤ s.wdogD1 →
    Completes (.logWdogKick t d v) s fun u =>
      u.wdogBase = (s.advance t).now ∧ u.fld pLOG Fd.LOG_WDOG_STAT_STAGE = 1 ∧
      RegsKept s u [pLOG * 4096 + Fd.LOG_WDOG_STAT_STAGE.off] ∧ TablesKept s u ∧ CountsKept s u ∧ BytesKept s u) ∧
  (∀ (s : State) (t : Nat), s.runs? = true → s.fld pLOG Fd.LOG_WDOG_STAT_STAGE = 1 → s.wdogD1 + 4000 ≤ (s.advance t).now →
    Completes (.logWdogWarn t) s fun u =>
      u.fld pLOG Fd.LOG_WDOG_STAT_STAGE = 2 ∧ u.count pLOG Cn.LOG_WDOG_WARNS = (s.count pLOG Cn.LOG_WDOG_WARNS + 1) % 2 ^ 64 ∧
      u.wdogBase = s.wdogBase ∧ TablesKept s u ∧ BytesKept s u) ∧
  (∀ (s : State) (t : Nat), s.runs? = true → s.fld pLOG Fd.LOG_WDOG_STAT_STAGE = 2 → s.fld pLOG Fd.LOG_WDOG_CFG_RESET_MS ≠ 0 →
    s.wdogD2 + 4000 ≤ (s.advance t).now → s.powerFail = false →
    Completes (.logWdogReset t) s fun u =>
      u.boot = .off ∧ u.pow.cause = 5 ∧ u.pow.step4 = true ∧ (Er.LOG_WDOG_RESET, 0, s.wdogD2) ∈ u.pow.logs)
/-! ### Reset, memories, and single rules -/

/-- After the line die's power-on reset: no command waits, the logic die is off, the FRC is 0, every register holds its reset word, every
table entry its reset value, every counter 0, every word queue is empty, both byte memories list nothing and are in canonical
form. Values that the spec does not state are the model's (notes/assumptions/3.md). -/
def Obligations.ResetState : Prop :=
  State.reset.pending = [] ∧ State.reset.boot = .off ∧ State.reset.now = 0 ∧ State.reset.nowFrac = 0 ∧
  (∀ a, State.reset.reg a = resetWord a) ∧
  (∀ p tab bank idx, State.reset.ent p tab bank idx = BitVec.ofNat 256 (entryReset p tab idx)) ∧
  (∀ p off, State.reset.count p off = 0) ∧ (∀ k, (State.reset.wq k).level = 0) ∧
  Memory.wf State.reset.mram = true ∧ Memory.wf State.reset.dram = true ∧ State.reset.seq = 0 ∧
  (∀ p, hasHeader p = true → State.reset.rd p 0 % 256 = 1)

/-- From every state whose two byte memories are in canonical form (addresses strictly rising, no listed byte equal to 0),
every step of the machine ends in such a state: equal memories stay equal data, whichever command runs. The form is the model's
own. -/
def Obligations.StepKeepsMemoriesCanonical : Prop :=
  ∀ (s u : State), Memory.wf s.mram = true → Memory.wf s.dram = true → step s = .next u →
    Memory.wf u.mram = true ∧ Memory.wf u.dram = true

/-- Two states that differ only in the material of keys other than the identity key of slot 1 (whose public point may be read): every
register read, word queue read, SPI read and window read, by any domain, of any address, ends in states that differ only there:
what it sends out, DATA0 to DATA7 and everything else are the same. -/
def Obligations.ReadsTellNoKeyMaterial : Prop :=
  ∀ (s u : State) (m : SMap Nat) (c : Instr), smGet 0 1 m = smGet 0 1 s.keys.mat →
    ((∃ t d a bits bad fail ecc, c = .rcRead t d a bits bad fail ecc) ∨ (∃ t d k bad, c = .wordQueuePop t d k bad) ∨
      (∃ t d a n early bad fail ecc, c = .spiRead t d a n early bad fail ecc) ∨
      (∃ t d a n early bad fail ecc, c = .qread t d a n early bad fail ecc) ∨ (∃ t d p ecc fail, c = .winRead t d p ecc fail) ∨
      (∃ t d p, c = .keyMaterialRead t d p)) →
    exec c s = .next u →
    exec c { s with keys := { s.keys with mat := m } } = .next { u with keys := { u.keys with mat := m } }

/-- On every CAN controller, for each of NBTIM, DBTIM, XBTIM, TDC, XLCFG, CFG and OBJ_RANGE and by a write that passes the port's
checks: in STOP a value that no other rule refuses is stored; in every other mode the write is refused with REG_BAD_VALUE, which
is latched where no error was latched, and nothing but the error registers of the page changes. -/
def Obligations.CanTimingOnlyInStop : Prop :=
  (∀ (s : State) (t d n off v : Nat), n < 24 → v < 2 ^ 32 →
    off ∈ [Reg.CANC_NBTIM, Reg.CANC_DBTIM, Reg.CANC_XBTIM, Reg.CANC_TDC, Reg.CANC_XLCFG, Reg.CANC_CFG, Reg.CANC_OBJ_RANGE] →
    s.takes d (pCANC n * 4096 + off) v → s.canMode n ≠ 0 →
    Completes (.registerWrite t d (pCANC n * 4096 + off) 32 v false false) s fun u =>
      (s.flag (pCANC n) Fd.ERR_VALID = false →
        u.fld (pCANC n) Fd.ERR_CODE = Er.REG_BAD_VALUE ∧ u.fld (pCANC n) Fd.ERR_SRC_DOMAIN = d % 8) ∧
      RegsKept s u (errRegs (pCANC n)) ∧ TablesKept s u ∧ BytesKept s u ∧ QueuesKept s u) ∧
  (∀ (s : State) (t d n off v : Nat), n < 24 → v < 2 ^ 32 →
    (off ∈ [Reg.CANC_NBTIM, Reg.CANC_DBTIM, Reg.CANC_XBTIM, Reg.CANC_TDC, Reg.CANC_CFG] ∨
      off = Reg.CANC_XLCFG ∧ v.testBit 0 = false ∨
      off = Reg.CANC_OBJ_RANGE ∧ fget (BitVec.ofNat 32 v) Fd.CANC_OBJ_RANGE_BASE + fget (BitVec.ofNat 32 v) Fd.CANC_OBJ_RANGE_COUNT ≤ 8192) →
    s.takes d (pCANC n * 4096 + off) v → s.canMode n = 0 →
    Completes (.registerWrite t d (pCANC n * 4096 + off) 32 v false false) s fun u =>
      (∀ r, regDef (pCANC n * 4096 + off) = some r →
        u.reg (pCANC n * 4096 + off) = mergeWrite r (s.reg (pCANC n * 4096 + off)) v) ∧
      RegsKept s u [pCANC n * 4096 + off] ∧ TablesKept s u ∧ CountsKept s u ∧ BytesKept s u ∧ QueuesKept s u)

/-- A claim of an unowned KEY control page or OTP page by a normal-world domain, and a transfer of an owned one to a normal-world
domain, are refused with REG_NOT_OWNER, latched where no error was latched, and the owner stays; a claim by, and a transfer to, a
secure-world domain makes that domain the owner. Of pages 1 to 3 of KEY the claim and the transfer do so for a domain of either world. -/
def Obligations.SecurePagesGoToSecureDomains : Prop :=
  (∀ (s : State) (t d p : Nat), (p = pKEY 0 ∨ p = pOTP ∨ p = pOTP + 1) → d < 6 → s.secure d = false →
    s.takes d (p * 4096 + Reg.OWNER) d → s.flag p Fd.OWNER_UNOWNED = true →
    Completes (.ownerClaim t d p) s fun u =>
      (s.flag p Fd.ERR_VALID = false → u.fld p Fd.ERR_CODE = Er.REG_NOT_OWNER) ∧ RegsKept s u (errRegs p) ∧
      TablesKept s u ∧ BytesKept s u) ∧
  (∀ (s : State) (t d p x : Nat), (p = pKEY 0 ∨ p = pOTP ∨ p = pOTP + 1) → d < 6 → x < 6 → x ≠ d → s.secure x = false →
    s.takes d (p * 4096 + Reg.OWNER) x → s.owns d p = true → s.flag p Fd.OWNER_ORPHANED = false →
    Completes (.ownerTransfer t d p x) s fun u =>
      (s.flag p Fd.ERR_VALID = false → u.fld p Fd.ERR_CODE = Er.REG_NOT_OWNER) ∧ RegsKept s u (errRegs p) ∧
      TablesKept s u ∧ BytesKept s u) ∧
  (∀ (s : State) (t d p : Nat),
    ((p = pKEY 0 ∨ p = pOTP ∨ p = pOTP + 1) ∧ s.secure d = true ∨ (p = pKEY 1 ∨ p = pKEY 2 ∨ p = pKEY 3)) → d < 6 →
    s.takes d (p * 4096 + Reg.OWNER) d → s.flag p Fd.OWNER_UNOWNED = true → s.flag p Fd.OWNER_LOCKED = false →
    Completes (.ownerClaim t d p) s fun u =>
      u.owns d p = true ∧ RegsKept s u [p * 4096 + Reg.OWNER, p * 4096 + Reg.STATUS] ∧ TablesKept s u ∧ BytesKept s u) ∧
  (∀ (s : State) (t d p x : Nat),
    ((p = pKEY 0 ∨ p = pOTP ∨ p = pOTP + 1) ∧ s.secure x = true ∨ (p = pKEY 1 ∨ p = pKEY 2 ∨ p = pKEY 3)) → d < 6 → x < 6 → x ≠ d →
    s.takes d (p * 4096 + Reg.OWNER) x → s.owns d p = true → s.flag p Fd.OWNER_ORPHANED = false →
    s.flag p Fd.OWNER_LOCKED = false →
    Completes (.ownerTransfer t d p x) s fun u =>
      u.owns x p = true ∧ RegsKept s u [p * 4096 + Reg.OWNER, p * 4096 + Reg.STATUS] ∧ TablesKept s u ∧ BytesKept s u)

/-- By a write of WIN_CMD that the port takes, with no command running: READ of TABLE 0, INDEX 0 to 1,023, leaves that entry in DATA0 to DATA7;
any other operation on TABLE 0 is refused with WIN_BAD_OP, a READ of another table or index with WIN_RANGE, and a refusal touches
no entry. At reset, and after CLEAR, every index reads 0; an accepted report with room leaves its 32 bytes of Table 1 at HEAD. -/
def Obligations.LogWindow : Prop :=
  (∀ (s : State) (t d v : Nat), s.takes d (pLOG * 4096 + Reg.WIN_CMD) v → v < 2 ^ 32 → s.flag pLOG Fd.WIN_BUSY = false → v % 16 = 1 →
    s.winTab pLOG = 0 → s.winIdx pLOG < 1024 →
    Completes (.registerWrite t d (pLOG * 4096 + Reg.WIN_CMD) 32 v false false) s fun u =>
      WinRuns u d pLOG 0 ∧ DataHolds u pLOG (s.ent pLOG 0 0 (s.winIdx pLOG)) ∧ TablesKept s u ∧ BytesKept s u) ∧
  (∀ (s : State) (t d v : Nat), s.takes d (pLOG * 4096 + Reg.WIN_CMD) v → v < 2 ^ 32 → s.flag pLOG Fd.WIN_BUSY = false → v % 16 ≠ 1 →
    s.winTab pLOG = 0 →
    Completes (.registerWrite t d (pLOG * 4096 + Reg.WIN_CMD) 32 v false false) s fun u =>
      u.flag pLOG Fd.WIN_ERROR = true ∧ u.flag pLOG Fd.WIN_BUSY = false ∧
      (s.flag pLOG Fd.ERR_VALID = false → u.fld pLOG Fd.ERR_CODE = Er.WIN_BAD_OP) ∧ TablesKept s u ∧ BytesKept s u) ∧
  (∀ (s : State) (t d v : Nat), s.takes d (pLOG * 4096 + Reg.WIN_CMD) v → v < 2 ^ 32 → s.flag pLOG Fd.WIN_BUSY = false → v % 16 = 1 →
    (s.winTab pLOG ≠ 0 ∨ 1024 ≤ s.winIdx pLOG) →
    Completes (.registerWrite t d (pLOG * 4096 + Reg.WIN_CMD) 32 v false false) s fun u =>
      u.flag pLOG Fd.WIN_ERROR = true ∧ u.flag pLOG Fd.WIN_BUSY = false ∧
      (s.flag pLOG Fd.ERR_VALID = false → u.fld pLOG Fd.ERR_CODE = Er.WIN_RANGE) ∧ TablesKept s u ∧ BytesKept s u) ∧
  (∀ i, i < 1024 → State.reset.ent pLOG 0 0 i = 0) ∧
  (∀ (s : State) (t d : Nat), s.takes d (pLOG * 4096 + Reg.LOG_CLEAR) 1 →
    Completes (.logClear t d) s fun u => ∀ i, i < 1024 → u.ent pLOG 0 0 i = 0) ∧
  (∀ (s : State) (t p : Nat) (r : Report), s.boot ≠ .off → (s.reports.find? fun x => x.page = p) = some r → s.logMerges r = false →
    s.fld pLOG Fd.LOG_STATUS_COUNT < 1024 →
    Completes (.faultReport t p) s fun u =>
      u.ent pLOG 0 0 (s.fld pLOG Fd.LOG_STATUS_HEAD) = bytesToEntry (logBytes r (s.fld pLOG Fd.LOG_SEQ_NEXT)))
end

