-- ==== Sys2Proof/Laws/Maps.lean ====
section
/-!
SUPPORT. The laws of the sparse stores and of bit fields: a read after a write, and the canonical form that every write
keeps.
-/

namespace Sys2Proof.Machine

variable {α : Type} {n : Nat}

/-! ### A read after a write -/

@[simp] theorem smGet_smDel_same (d : α) (k : Nat) (m : SMap α) : smGet d k (smDel k m) = d := by
  induction m with
  | nil => rfl
  | cons x m ih =>
    obtain ⟨k', v⟩ := x
    by_cases h : k' = k
    · simpa [smDel, h] using ih
    · have h' : k ≠ k' := fun e => h e.symm
      simpa [smDel, h, smGet, h'] using ih

theorem smGet_smDel_ne (d : α) {k j : Nat} (h : j ≠ k) (m : SMap α) : smGet d j (smDel k m) = smGet d j m := by
  induction m with
  | nil => rfl
  | cons x m ih =>
    obtain ⟨k', v⟩ := x
    by_cases hk : k' = k
    · simpa [smDel, hk, smGet, h] using ih
    · by_cases hj : j = k'
      · subst hj; simp [smDel, hk, smGet]
      · simpa [smDel, hk, smGet, hj] using ih

variable [DecidableEq α]

/-- What a key holds after a store at it. -/
@[simp] theorem smGet_smSet_same (d : α) (k : Nat) (v : α) (m : SMap α) : smGet d k (smSet d k v m) = v := by
  induction m with
  | nil => by_cases h : v = d <;> simp [smSet, smGet, h]
  | cons x m ih =>
    obtain ⟨k', v'⟩ := x
    unfold smSet
    split
    · next h => simp [h]
    · split
      · simp [smGet]
      · split
        · simp [smGet]
        · next h => simp [smGet, h, ih]

/-- A store at one key leaves every other key alone. -/
theorem smGet_smSet_ne (e d : α) {k j : Nat} (h : j ≠ k) (v : α) (m : SMap α) : smGet e j (smSet d k v m) = smGet e j m := by
  induction m with
  | nil => by_cases hv : v = d <;> simp [smSet, smGet, hv, h]
  | cons x m ih =>
    obtain ⟨k', v'⟩ := x
    unfold smSet
    split
    · exact smGet_smDel_ne e h _
    · split
      · simp [smGet, h]
      · split
        · next hk => subst hk; simp [smGet, h]
        · by_cases hj : j = k'
          · subst hj; simp [smGet]
          · simp [smGet, hj, ih]

omit [DecidableEq α] in
/-- What `smDrop` leaves: the keys of the range that `keep` spares, and every key outside it. -/
theorem smGet_smDrop (d : α) (lo hi k : Nat) (keep : Nat → Bool) (m : SMap α) :
    smGet d k (smDrop lo hi keep m) = if lo ≤ k && k < hi && !keep k then d else smGet d k m := by
  induction m with
  | nil => simp [smDrop, smGet]
  | cons x m ih =>
    obtain ⟨k', v⟩ := x
    unfold smDrop
    split
    · next h =>
      rw [ih]
      by_cases hk : k = k'
      · subst hk; simp [h]
      · simp [smGet, hk]
    · next h =>
      by_cases hk : k = k'
      · subst hk; simp [smGet, h]
      · simp [smGet, hk, ih]

/-! ### The canonical form -/

theorem smWfFrom_le {d : Nat → α} {lo lo' : Nat} (h : lo' ≤ lo) {m : SMap α} (w : smWfFrom d lo m = true) :
    smWfFrom d lo' m = true := by
  cases m with
  | nil => rfl
  | cons x m =>
    obtain ⟨k, v⟩ := x
    simp only [smWfFrom, Bool.and_eq_true, decide_eq_true_eq] at w ⊢
    exact ⟨⟨by omega, w.1.2⟩, w.2⟩

theorem smWfFrom_smDel {d : Nat → α} (k : Nat) {lo : Nat} {m : SMap α} (w : smWfFrom d lo m = true) :
    smWfFrom d lo (smDel k m) = true := by
  induction m generalizing lo with
  | nil => rfl
  | cons x m ih =>
    obtain ⟨k', v⟩ := x
    have w' := w
    simp only [smWfFrom, Bool.and_eq_true, decide_eq_true_eq] at w
    by_cases h : k' = k
    · have := smWfFrom_le (by omega) (ih w.2) (lo' := lo)
      simpa [smDel, h] using this
    · have := ih w.2
      have e : smDel k ((k', v) :: m) = (k', v) :: smDel k m := by simp [smDel, h]
      rw [e]
      simp only [smWfFrom, Bool.and_eq_true, decide_eq_true_eq]
      exact ⟨w.1, this⟩

theorem smWfFrom_smSet (d : Nat → α) (k : Nat) (v : α) {lo : Nat} (hk : lo ≤ k) {m : SMap α} (w : smWfFrom d lo m = true) :
    smWfFrom d lo (smSet (d k) k v m) = true := by
  induction m generalizing lo with
  | nil => by_cases h : v = d k <;> simp [smSet, smWfFrom, h, hk]
  | cons x m ih =>
    obtain ⟨k', v'⟩ := x
    have w' := w
    simp only [smWfFrom, Bool.and_eq_true, decide_eq_true_eq] at w
    unfold smSet
    split
    · exact smWfFrom_smDel k w'
    · next hv =>
      split
      · next h =>
        simp only [smWfFrom, Bool.and_eq_true, decide_eq_true_eq]
        exact ⟨⟨hk, hv⟩, ⟨by omega, w.1.2⟩, w.2⟩
      · split
        · next h =>
          subst h
          simp only [smWfFrom, Bool.and_eq_true, decide_eq_true_eq]
          exact ⟨⟨hk, hv⟩, w.2⟩
        · next h1 h2 =>
          simp only [smWfFrom, Bool.and_eq_true, decide_eq_true_eq]
          exact ⟨w.1, ih (by omega) w.2⟩

/-- A store keeps the canonical form. -/
theorem smWf_smSet (d : Nat → α) (k : Nat) (v : α) {m : SMap α} (w : smWf d m = true) : smWf d (smSet (d k) k v m) = true :=
  smWfFrom_smSet d k v (Nat.zero_le k) w

theorem smWfFrom_smDrop {d : Nat → α} (a b : Nat) (keep : Nat → Bool) {lo : Nat} {m : SMap α} (w : smWfFrom d lo m = true) :
    smWfFrom d lo (smDrop a b keep m) = true := by
  induction m generalizing lo with
  | nil => rfl
  | cons x m ih =>
    obtain ⟨k, v⟩ := x
    simp only [smWfFrom, Bool.and_eq_true, decide_eq_true_eq] at w
    unfold smDrop
    split
    · exact smWfFrom_le (by omega) (ih w.2)
    · simp only [smWfFrom, Bool.and_eq_true, decide_eq_true_eq]
      exact ⟨w.1, ih w.2⟩

/-- Dropping a range of keys keeps the canonical form. -/
theorem smWf_smDrop {d : Nat → α} (a b : Nat) (keep : Nat → Bool) {m : SMap α} (w : smWf d m = true) :
    smWf d (smDrop a b keep m) = true := smWfFrom_smDrop a b keep w

/-! ### Bit fields -/

omit [DecidableEq α]

theorem bitsOf_putBits_nat {lo w x v : Nat} :
    (v % 2 ^ lo + x % 2 ^ w * 2 ^ lo + v / 2 ^ (lo + w) * 2 ^ (lo + w)) / 2 ^ lo % 2 ^ w = x % 2 ^ w := by
  have hp : 0 < 2 ^ lo := Nat.two_pow_pos lo
  have h1 : v % 2 ^ lo + x % 2 ^ w * 2 ^ lo + v / 2 ^ (lo + w) * 2 ^ (lo + w)
      = v % 2 ^ lo + 2 ^ lo * (x % 2 ^ w + v / 2 ^ (lo + w) * 2 ^ w) := by
    rw [Nat.pow_add, Nat.mul_add, Nat.mul_comm (2 ^ lo) (x % 2 ^ w), Nat.mul_comm (2 ^ lo) (2 ^ w), ← Nat.mul_assoc,
      Nat.mul_comm (2 ^ lo) (v / (2 ^ w * 2 ^ lo) * 2 ^ w)]
    omega
  rw [h1, Nat.add_mul_div_left _ _ hp, Nat.div_eq_of_lt (Nat.mod_lt _ hp), Nat.zero_add, Nat.add_mul_mod_self_right, Nat.mod_mod]

theorem putBits_lt {lo w x v : Nat} (h : lo + w ≤ n) (hv : v < 2 ^ n) :
    v % 2 ^ lo + x % 2 ^ w * 2 ^ lo + v / 2 ^ (lo + w) * 2 ^ (lo + w) < 2 ^ n := by
  have hp : 0 < 2 ^ lo := Nat.two_pow_pos lo
  have hw : 0 < 2 ^ w := Nat.two_pow_pos w
  have h1 := Nat.mod_lt v hp
  have h2 := Nat.mod_lt x hw
  have h3 : x % 2 ^ w * 2 ^ lo + 2 ^ lo ≤ 2 ^ (lo + w) := by
    rw [Nat.pow_add, Nat.mul_comm (2 ^ lo)]
    have := Nat.mul_le_mul_right (2 ^ lo) h2
    rwa [Nat.succ_mul] at this
  have h4 : v / 2 ^ (lo + w) < 2 ^ (n - (lo + w)) := by
    apply Nat.div_lt_of_lt_mul
    rw [← Nat.pow_add]
    have : lo + w + (n - (lo + w)) = n := by omega
    rwa [this]
  have h5 : (v / 2 ^ (lo + w) + 1) * 2 ^ (lo + w) ≤ 2 ^ (n - (lo + w)) * 2 ^ (lo + w) := Nat.mul_le_mul_right _ h4
  rw [← Nat.pow_add, Nat.sub_add_cancel h, Nat.add_mul, Nat.one_mul] at h5
  omega

/-- A field reads what was put in it, cut to its width. -/
theorem fget_fput_same (v : BitVec n) (f : Fld) (x : Nat) (h : f.lo + f.w ≤ n) : fget (fput v f x) f = x % 2 ^ f.w := by
  unfold fget fput bitsOf putBits
  rw [BitVec.toNat_ofNat, Nat.mod_eq_of_lt (putBits_lt h v.isLt)]
  exact bitsOf_putBits_nat

theorem putBits_mod {lo w x v : Nat} :
    (v % 2 ^ lo + x % 2 ^ w * 2 ^ lo + v / 2 ^ (lo + w) * 2 ^ (lo + w)) % 2 ^ lo = v % 2 ^ lo := by
  rw [Nat.pow_add, Nat.mul_comm (2 ^ lo) (2 ^ w), ← Nat.mul_assoc, Nat.add_mul_mod_self_right, Nat.add_mul_mod_self_right,
    Nat.mod_mod]

theorem putBits_div {lo w x v : Nat} :
    (v % 2 ^ lo + x % 2 ^ w * 2 ^ lo + v / 2 ^ (lo + w) * 2 ^ (lo + w)) / 2 ^ (lo + w) = v / 2 ^ (lo + w) := by
  have hp : 0 < 2 ^ lo := Nat.two_pow_pos lo
  have h1 := Nat.mod_lt v hp
  have h2 := Nat.mod_lt x (Nat.two_pow_pos w)
  have h3 := Nat.mul_le_mul_right (2 ^ lo) h2
  rw [Nat.succ_mul] at h3
  rw [Nat.add_mul_div_right _ _ (Nat.two_pow_pos _), Nat.div_eq_of_lt, Nat.zero_add]
  rw [Nat.pow_add, Nat.mul_comm (2 ^ lo) (2 ^ w)]
  omega

theorem bits_of_mod {a b lo w : Nat} (h : a % 2 ^ (lo + w) = b % 2 ^ (lo + w)) : a / 2 ^ lo % 2 ^ w = b / 2 ^ lo % 2 ^ w := by
  have e : ∀ c : Nat, c / 2 ^ lo % 2 ^ w = c % 2 ^ (lo + w) / 2 ^ lo := fun c => by
    rw [Nat.pow_add, Nat.mod_mul_right_div_self]
  rw [e a, e b, h]

/-- Putting a field leaves a field that does not overlap it. -/
theorem fget_fput_ne (v : BitVec n) (f g : Fld) (x : Nat) (hf : f.lo + f.w ≤ n)
    (h : g.lo + g.w ≤ f.lo ∨ f.lo + f.w ≤ g.lo) : fget (fput v f x) g = fget v g := by
  unfold fget fput bitsOf putBits
  rw [BitVec.toNat_ofNat, Nat.mod_eq_of_lt (putBits_lt hf v.isLt)]
  rcases h with h | h
  · apply bits_of_mod
    have hd : 2 ^ (g.lo + g.w) ∣ 2 ^ f.lo := Nat.pow_dvd_pow 2 h
    rw [← Nat.mod_mod_of_dvd _ hd, putBits_mod, Nat.mod_mod_of_dvd _ hd]
  · have e : g.lo = f.lo + f.w + (g.lo - (f.lo + f.w)) := by omega
    have split : ∀ c : Nat, c / 2 ^ g.lo = c / 2 ^ (f.lo + f.w) / 2 ^ (g.lo - (f.lo + f.w)) := fun c => by
      rw [Nat.div_div_eq_div_mul, ← Nat.pow_add, ← e]
    rw [split, split v.toNat, putBits_div]

end Sys2Proof.Machine
end

