-- ==== Sys2Proof/Laws/Memory.lean ====
section
/-!
SUPPORT. The byte memories MRAM and external memory: every write keeps the canonical form, the reset state has it, a byte
just written reads back, and every other byte reads as before.
-/

namespace Sys2Proof.Machine

/-- Writing a list of cells keeps the canonical form. -/
theorem Memory.wf_puts (f : Nat × Nat → Nat) (l : List (Nat × Nat)) (m : List Host.Cell) (h : Memory.wf m = true) :
    Memory.wf (l.foldl (fun m x => smSet (0 : Byte) (f x) (BitVec.ofNat 8 x.2) m) m) = true := by
  induction l generalizing m with
  | nil => exact h
  | cons x l ih => exact ih _ (smWf_smSet (fun _ => (0 : Byte)) _ _ h)

/-- MRAM keeps its canonical form when bytes are written. -/
theorem State.mramPut_wf (s : State) (o : Nat) (bs : List Nat) (h : Memory.wf s.mram = true) :
    Memory.wf (s.mramPut o bs).mram = true := Memory.wf_puts (fun x => o + x.1) _ _ h

/-- External memory keeps its canonical form when bytes are written. -/
theorem State.dramPut_wf (s : State) (a : Nat) (bs : List Nat) (h : Memory.wf s.dram = true) :
    Memory.wf (s.dramPut a bs).dram = true := Memory.wf_puts (fun x => a + x.1) _ _ h

/-- Both memories of the reset state are in canonical form. -/
theorem reset_memories_wf : Memory.wf State.reset.mram = true ∧ Memory.wf State.reset.dram = true := by decide

/-- A byte outside the cells written reads as before. -/
theorem Memory.get_puts_ne (f : Nat × Nat → Nat) (l : List (Nat × Nat)) (m : List Host.Cell) (a : Nat)
    (h : ∀ x ∈ l, a ≠ f x) :
    smGet (0 : Byte) a (l.foldl (fun m x => smSet (0 : Byte) (f x) (BitVec.ofNat 8 x.2) m) m) = smGet 0 a m := by
  induction l generalizing m with
  | nil => rfl
  | cons x l ih =>
    rw [List.foldl_cons, ih _ fun y hy => h y (List.mem_cons_of_mem _ hy)]
    exact smGet_smSet_ne _ _ (h x List.mem_cons_self) _ _

/-- The keys of the cells of a write of `n` bytes. -/
theorem zip_range_fst_lt {bs : List Nat} {x : Nat × Nat} (h : x ∈ (List.range bs.length).zip bs) : x.1 < bs.length :=
  List.mem_range.mp (List.of_mem_zip h).1

/-- A byte of MRAM outside the bytes written reads as before. -/
theorem State.mramPut_frame (s : State) (o a : Nat) (bs : List Nat) (h : a < o ∨ o + bs.length ≤ a) :
    (s.mramPut o bs).mramByte a = s.mramByte a := by
  unfold State.mramByte
  refine congrArg BitVec.toNat (Memory.get_puts_ne (fun x => o + x.1) _ _ _ fun x hx => ?_)
  have := zip_range_fst_lt hx
  simp only [ne_eq]; omega

/-- A byte of external memory outside the bytes written reads as before. -/
theorem State.dramPut_frame (s : State) (o a : Nat) (bs : List Nat) (h : a < o ∨ o + bs.length ≤ a) :
    (s.dramPut o bs).dramByte a = s.dramByte a := by
  unfold State.dramByte
  refine congrArg BitVec.toNat (Memory.get_puts_ne (fun x => o + x.1) _ _ _ fun x hx => ?_)
  have := zip_range_fst_lt hx
  simp only [ne_eq]; omega

/-- A single byte written to MRAM reads back. -/
theorem State.mramPut_same (s : State) (o b : Nat) : (s.mramPut o [b]).mramByte o = b % 256 := by
  simp [State.mramPut, State.mramByte]

/-- A single byte written to external memory reads back. -/
theorem State.dramPut_same (s : State) (a b : Nat) : (s.dramPut a [b]).dramByte a = b % 256 := by
  simp [State.dramPut, State.dramByte]

/-- Storing a register, a table entry or a count keeps its store in canonical form. -/
theorem State.setReg_wf (s : State) (a : Nat) (v : Word) (h : smWf resetWord s.regs = true) :
    smWf resetWord (s.setReg a v).regs = true := smWf_smSet resetWord a v h

theorem State.addCnt_wf (s : State) (p off n : Nat) (h : smWf (fun _ => (0 : BitVec 64)) s.cnt = true) :
    smWf (fun _ => (0 : BitVec 64)) (s.addCnt p off n).cnt = true := smWf_smSet (fun _ => (0 : BitVec 64)) _ _ h

end Sys2Proof.Machine
end

