-- ==== Sys2Proof/Laws/State.lean ====
section
/-!
SUPPORT. What each update of the state leaves alone: one lemma per field per update.
-/

namespace Sys2Proof.Machine

set_option Elab.async false

variable (s u : State)

/-! #### queueOf -/

@[simp] theorem State.queueOf_out : (s.queueOf u).out = u.out := rfl
@[simp] theorem State.queueOf_frc : (s.queueOf u).frc = u.frc := rfl
@[simp] theorem State.queueOf_coarse : (s.queueOf u).coarse = u.coarse := rfl
@[simp] theorem State.queueOf_draws : (s.queueOf u).draws = u.draws := rfl
@[simp] theorem State.queueOf_boot : (s.queueOf u).boot = u.boot := rfl
@[simp] theorem State.queueOf_pwr : (s.queueOf u).pwr = u.pwr := rfl
@[simp] theorem State.queueOf_regs : (s.queueOf u).regs = u.regs := rfl
@[simp] theorem State.queueOf_cnt : (s.queueOf u).cnt = u.cnt := rfl
@[simp] theorem State.queueOf_snap : (s.queueOf u).snap = u.snap := rfl
@[simp] theorem State.queueOf_tabs : (s.queueOf u).tabs = u.tabs := rfl
@[simp] theorem State.queueOf_mram : (s.queueOf u).mram = u.mram := rfl
@[simp] theorem State.queueOf_dram : (s.queueOf u).dram = u.dram := rfl
@[simp] theorem State.queueOf_wqs : (s.queueOf u).wqs = u.wqs := rfl
@[simp] theorem State.queueOf_reports : (s.queueOf u).reports = u.reports := rfl
@[simp] theorem State.queueOf_lostPages : (s.queueOf u).lostPages = u.lostPages := rfl
@[simp] theorem State.queueOf_runs : (s.queueOf u).runs = u.runs := rfl
@[simp] theorem State.queueOf_wins : (s.queueOf u).wins = u.wins := rfl
@[simp] theorem State.queueOf_resets : (s.queueOf u).resets = u.resets := rfl
@[simp] theorem State.queueOf_snaps : (s.queueOf u).snaps = u.snaps := rfl
@[simp] theorem State.queueOf_doms : (s.queueOf u).doms = u.doms := rfl
@[simp] theorem State.queueOf_cans : (s.queueOf u).cans = u.cans := rfl
@[simp] theorem State.queueOf_lins : (s.queueOf u).lins = u.lins := rfl
@[simp] theorem State.queueOf_sers : (s.queueOf u).sers = u.sers := rfl
@[simp] theorem State.queueOf_srt : (s.queueOf u).srt = u.srt := rfl
@[simp] theorem State.queueOf_swc : (s.queueOf u).swc = u.swc := rfl
@[simp] theorem State.queueOf_egress : (s.queueOf u).egress = u.egress := rfl
@[simp] theorem State.queueOf_eths : (s.queueOf u).eths = u.eths := rfl
@[simp] theorem State.queueOf_pipes : (s.queueOf u).pipes = u.pipes := rfl
@[simp] theorem State.queueOf_fdbs : (s.queueOf u).fdbs = u.fdbs := rfl
@[simp] theorem State.queueOf_frer : (s.queueOf u).frer = u.frer := rfl
@[simp] theorem State.queueOf_eccSeen : (s.queueOf u).eccSeen = u.eccSeen := rfl
@[simp] theorem State.queueOf_logOvf : (s.queueOf u).logOvf = u.logOvf := rfl
@[simp] theorem State.queueOf_wdogBase : (s.queueOf u).wdogBase = u.wdogBase := rfl
@[simp] theorem State.queueOf_perst : (s.queueOf u).perst = u.perst := rfl
@[simp] theorem State.queueOf_trn : (s.queueOf u).trn = u.trn := rfl
@[simp] theorem State.queueOf_capGen : (s.queueOf u).capGen = u.capGen := rfl
@[simp] theorem State.queueOf_lastSlot : (s.queueOf u).lastSlot = u.lastSlot := rfl
@[simp] theorem State.queueOf_time : (s.queueOf u).time = u.time := rfl
@[simp] theorem State.queueOf_clusters : (s.queueOf u).clusters = u.clusters := rfl
@[simp] theorem State.queueOf_ldie : (s.queueOf u).ldie = u.ldie := rfl
@[simp] theorem State.queueOf_keys : (s.queueOf u).keys = u.keys := rfl
@[simp] theorem State.queueOf_otp : (s.queueOf u).otp = u.otp := rfl
@[simp] theorem State.queueOf_dbg : (s.queueOf u).dbg = u.dbg := rfl
@[simp] theorem State.queueOf_emc : (s.queueOf u).emc = u.emc := rfl
@[simp] theorem State.queueOf_pow : (s.queueOf u).pow = u.pow := rfl
@[simp] theorem State.queueOf_freshSaved : (s.queueOf u).freshSaved = u.freshSaved := rfl
@[simp] theorem State.queueOf_pending : (s.queueOf u).pending = s.pending := rfl

/-! #### draw -/

@[simp] theorem State.draw_pending : (s.draw).pending = s.pending := rfl
@[simp] theorem State.draw_out : (s.draw).out = s.out := rfl
@[simp] theorem State.draw_frc : (s.draw).frc = s.frc := rfl
@[simp] theorem State.draw_coarse : (s.draw).coarse = s.coarse := rfl
@[simp] theorem State.draw_boot : (s.draw).boot = s.boot := rfl
@[simp] theorem State.draw_pwr : (s.draw).pwr = s.pwr := rfl
@[simp] theorem State.draw_regs : (s.draw).regs = s.regs := rfl
@[simp] theorem State.draw_cnt : (s.draw).cnt = s.cnt := rfl
@[simp] theorem State.draw_snap : (s.draw).snap = s.snap := rfl
@[simp] theorem State.draw_tabs : (s.draw).tabs = s.tabs := rfl
@[simp] theorem State.draw_mram : (s.draw).mram = s.mram := rfl
@[simp] theorem State.draw_dram : (s.draw).dram = s.dram := rfl
@[simp] theorem State.draw_wqs : (s.draw).wqs = s.wqs := rfl
@[simp] theorem State.draw_reports : (s.draw).reports = s.reports := rfl
@[simp] theorem State.draw_lostPages : (s.draw).lostPages = s.lostPages := rfl
@[simp] theorem State.draw_runs : (s.draw).runs = s.runs := rfl
@[simp] theorem State.draw_wins : (s.draw).wins = s.wins := rfl
@[simp] theorem State.draw_resets : (s.draw).resets = s.resets := rfl
@[simp] theorem State.draw_snaps : (s.draw).snaps = s.snaps := rfl
@[simp] theorem State.draw_doms : (s.draw).doms = s.doms := rfl
@[simp] theorem State.draw_cans : (s.draw).cans = s.cans := rfl
@[simp] theorem State.draw_lins : (s.draw).lins = s.lins := rfl
@[simp] theorem State.draw_sers : (s.draw).sers = s.sers := rfl
@[simp] theorem State.draw_srt : (s.draw).srt = s.srt := rfl
@[simp] theorem State.draw_swc : (s.draw).swc = s.swc := rfl
@[simp] theorem State.draw_egress : (s.draw).egress = s.egress := rfl
@[simp] theorem State.draw_eths : (s.draw).eths = s.eths := rfl
@[simp] theorem State.draw_pipes : (s.draw).pipes = s.pipes := rfl
@[simp] theorem State.draw_fdbs : (s.draw).fdbs = s.fdbs := rfl
@[simp] theorem State.draw_frer : (s.draw).frer = s.frer := rfl
@[simp] theorem State.draw_eccSeen : (s.draw).eccSeen = s.eccSeen := rfl
@[simp] theorem State.draw_logOvf : (s.draw).logOvf = s.logOvf := rfl
@[simp] theorem State.draw_wdogBase : (s.draw).wdogBase = s.wdogBase := rfl
@[simp] theorem State.draw_perst : (s.draw).perst = s.perst := rfl
@[simp] theorem State.draw_trn : (s.draw).trn = s.trn := rfl
@[simp] theorem State.draw_capGen : (s.draw).capGen = s.capGen := rfl
@[simp] theorem State.draw_lastSlot : (s.draw).lastSlot = s.lastSlot := rfl
@[simp] theorem State.draw_time : (s.draw).time = s.time := rfl
@[simp] theorem State.draw_clusters : (s.draw).clusters = s.clusters := rfl
@[simp] theorem State.draw_ldie : (s.draw).ldie = s.ldie := rfl
@[simp] theorem State.draw_keys : (s.draw).keys = s.keys := rfl
@[simp] theorem State.draw_otp : (s.draw).otp = s.otp := rfl
@[simp] theorem State.draw_dbg : (s.draw).dbg = s.dbg := rfl
@[simp] theorem State.draw_emc : (s.draw).emc = s.emc := rfl
@[simp] theorem State.draw_pow : (s.draw).pow = s.pow := rfl
@[simp] theorem State.draw_freshSaved : (s.draw).freshSaved = s.freshSaved := rfl

/-! #### emit -/

@[simp] theorem State.emit_pending (o : Out) : (s.emit o).pending = s.pending := rfl
@[simp] theorem State.emit_frc (o : Out) : (s.emit o).frc = s.frc := rfl
@[simp] theorem State.emit_coarse (o : Out) : (s.emit o).coarse = s.coarse := rfl
@[simp] theorem State.emit_draws (o : Out) : (s.emit o).draws = s.draws := rfl
@[simp] theorem State.emit_boot (o : Out) : (s.emit o).boot = s.boot := rfl
@[simp] theorem State.emit_pwr (o : Out) : (s.emit o).pwr = s.pwr := rfl
@[simp] theorem State.emit_regs (o : Out) : (s.emit o).regs = s.regs := rfl
@[simp] theorem State.emit_cnt (o : Out) : (s.emit o).cnt = s.cnt := rfl
@[simp] theorem State.emit_snap (o : Out) : (s.emit o).snap = s.snap := rfl
@[simp] theorem State.emit_tabs (o : Out) : (s.emit o).tabs = s.tabs := rfl
@[simp] theorem State.emit_mram (o : Out) : (s.emit o).mram = s.mram := rfl
@[simp] theorem State.emit_dram (o : Out) : (s.emit o).dram = s.dram := rfl
@[simp] theorem State.emit_wqs (o : Out) : (s.emit o).wqs = s.wqs := rfl
@[simp] theorem State.emit_reports (o : Out) : (s.emit o).reports = s.reports := rfl
@[simp] theorem State.emit_lostPages (o : Out) : (s.emit o).lostPages = s.lostPages := rfl
@[simp] theorem State.emit_runs (o : Out) : (s.emit o).runs = s.runs := rfl
@[simp] theorem State.emit_wins (o : Out) : (s.emit o).wins = s.wins := rfl
@[simp] theorem State.emit_resets (o : Out) : (s.emit o).resets = s.resets := rfl
@[simp] theorem State.emit_snaps (o : Out) : (s.emit o).snaps = s.snaps := rfl
@[simp] theorem State.emit_doms (o : Out) : (s.emit o).doms = s.doms := rfl
@[simp] theorem State.emit_cans (o : Out) : (s.emit o).cans = s.cans := rfl
@[simp] theorem State.emit_lins (o : Out) : (s.emit o).lins = s.lins := rfl
@[simp] theorem State.emit_sers (o : Out) : (s.emit o).sers = s.sers := rfl
@[simp] theorem State.emit_srt (o : Out) : (s.emit o).srt = s.srt := rfl
@[simp] theorem State.emit_swc (o : Out) : (s.emit o).swc = s.swc := rfl
@[simp] theorem State.emit_egress (o : Out) : (s.emit o).egress = s.egress := rfl
@[simp] theorem State.emit_eths (o : Out) : (s.emit o).eths = s.eths := rfl
@[simp] theorem State.emit_pipes (o : Out) : (s.emit o).pipes = s.pipes := rfl
@[simp] theorem State.emit_fdbs (o : Out) : (s.emit o).fdbs = s.fdbs := rfl
@[simp] theorem State.emit_frer (o : Out) : (s.emit o).frer = s.frer := rfl
@[simp] theorem State.emit_eccSeen (o : Out) : (s.emit o).eccSeen = s.eccSeen := rfl
@[simp] theorem State.emit_logOvf (o : Out) : (s.emit o).logOvf = s.logOvf := rfl
@[simp] theorem State.emit_wdogBase (o : Out) : (s.emit o).wdogBase = s.wdogBase := rfl
@[simp] theorem State.emit_perst (o : Out) : (s.emit o).perst = s.perst := rfl
@[simp] theorem State.emit_trn (o : Out) : (s.emit o).trn = s.trn := rfl
@[simp] theorem State.emit_capGen (o : Out) : (s.emit o).capGen = s.capGen := rfl
@[simp] theorem State.emit_lastSlot (o : Out) : (s.emit o).lastSlot = s.lastSlot := rfl
@[simp] theorem State.emit_time (o : Out) : (s.emit o).time = s.time := rfl
@[simp] theorem State.emit_clusters (o : Out) : (s.emit o).clusters = s.clusters := rfl
@[simp] theorem State.emit_ldie (o : Out) : (s.emit o).ldie = s.ldie := rfl
@[simp] theorem State.emit_keys (o : Out) : (s.emit o).keys = s.keys := rfl
@[simp] theorem State.emit_otp (o : Out) : (s.emit o).otp = s.otp := rfl
@[simp] theorem State.emit_dbg (o : Out) : (s.emit o).dbg = s.dbg := rfl
@[simp] theorem State.emit_emc (o : Out) : (s.emit o).emc = s.emc := rfl
@[simp] theorem State.emit_pow (o : Out) : (s.emit o).pow = s.pow := rfl
@[simp] theorem State.emit_freshSaved (o : Out) : (s.emit o).freshSaved = s.freshSaved := rfl

/-! #### setReg -/

@[simp] theorem State.setReg_pending (a : Nat) (v : Word) : (s.setReg a v).pending = s.pending := rfl
@[simp] theorem State.setReg_out (a : Nat) (v : Word) : (s.setReg a v).out = s.out := rfl
@[simp] theorem State.setReg_frc (a : Nat) (v : Word) : (s.setReg a v).frc = s.frc := rfl
@[simp] theorem State.setReg_coarse (a : Nat) (v : Word) : (s.setReg a v).coarse = s.coarse := rfl
@[simp] theorem State.setReg_draws (a : Nat) (v : Word) : (s.setReg a v).draws = s.draws := rfl
@[simp] theorem State.setReg_boot (a : Nat) (v : Word) : (s.setReg a v).boot = s.boot := rfl
@[simp] theorem State.setReg_pwr (a : Nat) (v : Word) : (s.setReg a v).pwr = s.pwr := rfl
@[simp] theorem State.setReg_cnt (a : Nat) (v : Word) : (s.setReg a v).cnt = s.cnt := rfl
@[simp] theorem State.setReg_snap (a : Nat) (v : Word) : (s.setReg a v).snap = s.snap := rfl
@[simp] theorem State.setReg_tabs (a : Nat) (v : Word) : (s.setReg a v).tabs = s.tabs := rfl
@[simp] theorem State.setReg_mram (a : Nat) (v : Word) : (s.setReg a v).mram = s.mram := rfl
@[simp] theorem State.setReg_dram (a : Nat) (v : Word) : (s.setReg a v).dram = s.dram := rfl
@[simp] theorem State.setReg_wqs (a : Nat) (v : Word) : (s.setReg a v).wqs = s.wqs := rfl
@[simp] theorem State.setReg_reports (a : Nat) (v : Word) : (s.setReg a v).reports = s.reports := rfl
@[simp] theorem State.setReg_lostPages (a : Nat) (v : Word) : (s.setReg a v).lostPages = s.lostPages := rfl
@[simp] theorem State.setReg_runs (a : Nat) (v : Word) : (s.setReg a v).runs = s.runs := rfl
@[simp] theorem State.setReg_wins (a : Nat) (v : Word) : (s.setReg a v).wins = s.wins := rfl
@[simp] theorem State.setReg_resets (a : Nat) (v : Word) : (s.setReg a v).resets = s.resets := rfl
@[simp] theorem State.setReg_snaps (a : Nat) (v : Word) : (s.setReg a v).snaps = s.snaps := rfl
@[simp] theorem State.setReg_doms (a : Nat) (v : Word) : (s.setReg a v).doms = s.doms := rfl
@[simp] theorem State.setReg_cans (a : Nat) (v : Word) : (s.setReg a v).cans = s.cans := rfl
@[simp] theorem State.setReg_lins (a : Nat) (v : Word) : (s.setReg a v).lins = s.lins := rfl
@[simp] theorem State.setReg_sers (a : Nat) (v : Word) : (s.setReg a v).sers = s.sers := rfl
@[simp] theorem State.setReg_srt (a : Nat) (v : Word) : (s.setReg a v).srt = s.srt := rfl
@[simp] theorem State.setReg_swc (a : Nat) (v : Word) : (s.setReg a v).swc = s.swc := rfl
@[simp] theorem State.setReg_egress (a : Nat) (v : Word) : (s.setReg a v).egress = s.egress := rfl
@[simp] theorem State.setReg_eths (a : Nat) (v : Word) : (s.setReg a v).eths = s.eths := rfl
@[simp] theorem State.setReg_pipes (a : Nat) (v : Word) : (s.setReg a v).pipes = s.pipes := rfl
@[simp] theorem State.setReg_fdbs (a : Nat) (v : Word) : (s.setReg a v).fdbs = s.fdbs := rfl
@[simp] theorem State.setReg_frer (a : Nat) (v : Word) : (s.setReg a v).frer = s.frer := rfl
@[simp] theorem State.setReg_eccSeen (a : Nat) (v : Word) : (s.setReg a v).eccSeen = s.eccSeen := rfl
@[simp] theorem State.setReg_logOvf (a : Nat) (v : Word) : (s.setReg a v).logOvf = s.logOvf := rfl
@[simp] theorem State.setReg_wdogBase (a : Nat) (v : Word) : (s.setReg a v).wdogBase = s.wdogBase := rfl
@[simp] theorem State.setReg_perst (a : Nat) (v : Word) : (s.setReg a v).perst = s.perst := rfl
@[simp] theorem State.setReg_trn (a : Nat) (v : Word) : (s.setReg a v).trn = s.trn := rfl
@[simp] theorem State.setReg_capGen (a : Nat) (v : Word) : (s.setReg a v).capGen = s.capGen := rfl
@[simp] theorem State.setReg_lastSlot (a : Nat) (v : Word) : (s.setReg a v).lastSlot = s.lastSlot := rfl
@[simp] theorem State.setReg_time (a : Nat) (v : Word) : (s.setReg a v).time = s.time := rfl
@[simp] theorem State.setReg_clusters (a : Nat) (v : Word) : (s.setReg a v).clusters = s.clusters := rfl
@[simp] theorem State.setReg_ldie (a : Nat) (v : Word) : (s.setReg a v).ldie = s.ldie := rfl
@[simp] theorem State.setReg_keys (a : Nat) (v : Word) : (s.setReg a v).keys = s.keys := rfl
@[simp] theorem State.setReg_otp (a : Nat) (v : Word) : (s.setReg a v).otp = s.otp := rfl
@[simp] theorem State.setReg_dbg (a : Nat) (v : Word) : (s.setReg a v).dbg = s.dbg := rfl
@[simp] theorem State.setReg_emc (a : Nat) (v : Word) : (s.setReg a v).emc = s.emc := rfl
@[simp] theorem State.setReg_pow (a : Nat) (v : Word) : (s.setReg a v).pow = s.pow := rfl
@[simp] theorem State.setReg_freshSaved (a : Nat) (v : Word) : (s.setReg a v).freshSaved = s.freshSaved := rfl

/-! #### addCnt -/

@[simp] theorem State.addCnt_pending (p : Nat) (off : Nat) (n : Nat) : (s.addCnt p off n).pending = s.pending := rfl
@[simp] theorem State.addCnt_out (p : Nat) (off : Nat) (n : Nat) : (s.addCnt p off n).out = s.out := rfl
@[simp] theorem State.addCnt_frc (p : Nat) (off : Nat) (n : Nat) : (s.addCnt p off n).frc = s.frc := rfl
@[simp] theorem State.addCnt_coarse (p : Nat) (off : Nat) (n : Nat) : (s.addCnt p off n).coarse = s.coarse := rfl
@[simp] theorem State.addCnt_draws (p : Nat) (off : Nat) (n : Nat) : (s.addCnt p off n).draws = s.draws := rfl
@[simp] theorem State.addCnt_boot (p : Nat) (off : Nat) (n : Nat) : (s.addCnt p off n).boot = s.boot := rfl
@[simp] theorem State.addCnt_pwr (p : Nat) (off : Nat) (n : Nat) : (s.addCnt p off n).pwr = s.pwr := rfl
@[simp] theorem State.addCnt_regs (p : Nat) (off : Nat) (n : Nat) : (s.addCnt p off n).regs = s.regs := rfl
@[simp] theorem State.addCnt_snap (p : Nat) (off : Nat) (n : Nat) : (s.addCnt p off n).snap = s.snap := rfl
@[simp] theorem State.addCnt_tabs (p : Nat) (off : Nat) (n : Nat) : (s.addCnt p off n).tabs = s.tabs := rfl
@[simp] theorem State.addCnt_mram (p : Nat) (off : Nat) (n : Nat) : (s.addCnt p off n).mram = s.mram := rfl
@[simp] theorem State.addCnt_dram (p : Nat) (off : Nat) (n : Nat) : (s.addCnt p off n).dram = s.dram := rfl
@[simp] theorem State.addCnt_wqs (p : Nat) (off : Nat) (n : Nat) : (s.addCnt p off n).wqs = s.wqs := rfl
@[simp] theorem State.addCnt_reports (p : Nat) (off : Nat) (n : Nat) : (s.addCnt p off n).reports = s.reports := rfl
@[simp] theorem State.addCnt_lostPages (p : Nat) (off : Nat) (n : Nat) : (s.addCnt p off n).lostPages = s.lostPages := rfl
@[simp] theorem State.addCnt_runs (p : Nat) (off : Nat) (n : Nat) : (s.addCnt p off n).runs = s.runs := rfl
@[simp] theorem State.addCnt_wins (p : Nat) (off : Nat) (n : Nat) : (s.addCnt p off n).wins = s.wins := rfl
@[simp] theorem State.addCnt_resets (p : Nat) (off : Nat) (n : Nat) : (s.addCnt p off n).resets = s.resets := rfl
@[simp] theorem State.addCnt_snaps (p : Nat) (off : Nat) (n : Nat) : (s.addCnt p off n).snaps = s.snaps := rfl
@[simp] theorem State.addCnt_doms (p : Nat) (off : Nat) (n : Nat) : (s.addCnt p off n).doms = s.doms := rfl
@[simp] theorem State.addCnt_cans (p : Nat) (off : Nat) (n : Nat) : (s.addCnt p off n).cans = s.cans := rfl
@[simp] theorem State.addCnt_lins (p : Nat) (off : Nat) (n : Nat) : (s.addCnt p off n).lins = s.lins := rfl
@[simp] theorem State.addCnt_sers (p : Nat) (off : Nat) (n : Nat) : (s.addCnt p off n).sers = s.sers := rfl
@[simp] theorem State.addCnt_srt (p : Nat) (off : Nat) (n : Nat) : (s.addCnt p off n).srt = s.srt := rfl
@[simp] theorem State.addCnt_swc (p : Nat) (off : Nat) (n : Nat) : (s.addCnt p off n).swc = s.swc := rfl
@[simp] theorem State.addCnt_egress (p : Nat) (off : Nat) (n : Nat) : (s.addCnt p off n).egress = s.egress := rfl
@[simp] theorem State.addCnt_eths (p : Nat) (off : Nat) (n : Nat) : (s.addCnt p off n).eths = s.eths := rfl
@[simp] theorem State.addCnt_pipes (p : Nat) (off : Nat) (n : Nat) : (s.addCnt p off n).pipes = s.pipes := rfl
@[simp] theorem State.addCnt_fdbs (p : Nat) (off : Nat) (n : Nat) : (s.addCnt p off n).fdbs = s.fdbs := rfl
@[simp] theorem State.addCnt_frer (p : Nat) (off : Nat) (n : Nat) : (s.addCnt p off n).frer = s.frer := rfl
@[simp] theorem State.addCnt_eccSeen (p : Nat) (off : Nat) (n : Nat) : (s.addCnt p off n).eccSeen = s.eccSeen := rfl
@[simp] theorem State.addCnt_logOvf (p : Nat) (off : Nat) (n : Nat) : (s.addCnt p off n).logOvf = s.logOvf := rfl
@[simp] theorem State.addCnt_wdogBase (p : Nat) (off : Nat) (n : Nat) : (s.addCnt p off n).wdogBase = s.wdogBase := rfl
@[simp] theorem State.addCnt_perst (p : Nat) (off : Nat) (n : Nat) : (s.addCnt p off n).perst = s.perst := rfl
@[simp] theorem State.addCnt_trn (p : Nat) (off : Nat) (n : Nat) : (s.addCnt p off n).trn = s.trn := rfl
@[simp] theorem State.addCnt_capGen (p : Nat) (off : Nat) (n : Nat) : (s.addCnt p off n).capGen = s.capGen := rfl
@[simp] theorem State.addCnt_lastSlot (p : Nat) (off : Nat) (n : Nat) : (s.addCnt p off n).lastSlot = s.lastSlot := rfl
@[simp] theorem State.addCnt_time (p : Nat) (off : Nat) (n : Nat) : (s.addCnt p off n).time = s.time := rfl
@[simp] theorem State.addCnt_clusters (p : Nat) (off : Nat) (n : Nat) : (s.addCnt p off n).clusters = s.clusters := rfl
@[simp] theorem State.addCnt_ldie (p : Nat) (off : Nat) (n : Nat) : (s.addCnt p off n).ldie = s.ldie := rfl
@[simp] theorem State.addCnt_keys (p : Nat) (off : Nat) (n : Nat) : (s.addCnt p off n).keys = s.keys := rfl
@[simp] theorem State.addCnt_otp (p : Nat) (off : Nat) (n : Nat) : (s.addCnt p off n).otp = s.otp := rfl
@[simp] theorem State.addCnt_dbg (p : Nat) (off : Nat) (n : Nat) : (s.addCnt p off n).dbg = s.dbg := rfl
@[simp] theorem State.addCnt_emc (p : Nat) (off : Nat) (n : Nat) : (s.addCnt p off n).emc = s.emc := rfl
@[simp] theorem State.addCnt_pow (p : Nat) (off : Nat) (n : Nat) : (s.addCnt p off n).pow = s.pow := rfl
@[simp] theorem State.addCnt_freshSaved (p : Nat) (off : Nat) (n : Nat) : (s.addCnt p off n).freshSaved = s.freshSaved := rfl

/-! #### setEnt -/

@[simp] theorem State.setEnt_pending (p : Nat) (tab : Nat) (bank : Nat) (idx : Nat) (e : Entry) : (s.setEnt p tab bank idx e).pending = s.pending := rfl
@[simp] theorem State.setEnt_out (p : Nat) (tab : Nat) (bank : Nat) (idx : Nat) (e : Entry) : (s.setEnt p tab bank idx e).out = s.out := rfl
@[simp] theorem State.setEnt_frc (p : Nat) (tab : Nat) (bank : Nat) (idx : Nat) (e : Entry) : (s.setEnt p tab bank idx e).frc = s.frc := rfl
@[simp] theorem State.setEnt_coarse (p : Nat) (tab : Nat) (bank : Nat) (idx : Nat) (e : Entry) : (s.setEnt p tab bank idx e).coarse = s.coarse := rfl
@[simp] theorem State.setEnt_draws (p : Nat) (tab : Nat) (bank : Nat) (idx : Nat) (e : Entry) : (s.setEnt p tab bank idx e).draws = s.draws := rfl
@[simp] theorem State.setEnt_boot (p : Nat) (tab : Nat) (bank : Nat) (idx : Nat) (e : Entry) : (s.setEnt p tab bank idx e).boot = s.boot := rfl
@[simp] theorem State.setEnt_pwr (p : Nat) (tab : Nat) (bank : Nat) (idx : Nat) (e : Entry) : (s.setEnt p tab bank idx e).pwr = s.pwr := rfl
@[simp] theorem State.setEnt_regs (p : Nat) (tab : Nat) (bank : Nat) (idx : Nat) (e : Entry) : (s.setEnt p tab bank idx e).regs = s.regs := rfl
@[simp] theorem State.setEnt_cnt (p : Nat) (tab : Nat) (bank : Nat) (idx : Nat) (e : Entry) : (s.setEnt p tab bank idx e).cnt = s.cnt := rfl
@[simp] theorem State.setEnt_snap (p : Nat) (tab : Nat) (bank : Nat) (idx : Nat) (e : Entry) : (s.setEnt p tab bank idx e).snap = s.snap := rfl
@[simp] theorem State.setEnt_mram (p : Nat) (tab : Nat) (bank : Nat) (idx : Nat) (e : Entry) : (s.setEnt p tab bank idx e).mram = s.mram := rfl
@[simp] theorem State.setEnt_dram (p : Nat) (tab : Nat) (bank : Nat) (idx : Nat) (e : Entry) : (s.setEnt p tab bank idx e).dram = s.dram := rfl
@[simp] theorem State.setEnt_wqs (p : Nat) (tab : Nat) (bank : Nat) (idx : Nat) (e : Entry) : (s.setEnt p tab bank idx e).wqs = s.wqs := rfl
@[simp] theorem State.setEnt_reports (p : Nat) (tab : Nat) (bank : Nat) (idx : Nat) (e : Entry) : (s.setEnt p tab bank idx e).reports = s.reports := rfl
@[simp] theorem State.setEnt_lostPages (p : Nat) (tab : Nat) (bank : Nat) (idx : Nat) (e : Entry) : (s.setEnt p tab bank idx e).lostPages = s.lostPages := rfl
@[simp] theorem State.setEnt_runs (p : Nat) (tab : Nat) (bank : Nat) (idx : Nat) (e : Entry) : (s.setEnt p tab bank idx e).runs = s.runs := rfl
@[simp] theorem State.setEnt_wins (p : Nat) (tab : Nat) (bank : Nat) (idx : Nat) (e : Entry) : (s.setEnt p tab bank idx e).wins = s.wins := rfl
@[simp] theorem State.setEnt_resets (p : Nat) (tab : Nat) (bank : Nat) (idx : Nat) (e : Entry) : (s.setEnt p tab bank idx e).resets = s.resets := rfl
@[simp] theorem State.setEnt_snaps (p : Nat) (tab : Nat) (bank : Nat) (idx : Nat) (e : Entry) : (s.setEnt p tab bank idx e).snaps = s.snaps := rfl
@[simp] theorem State.setEnt_doms (p : Nat) (tab : Nat) (bank : Nat) (idx : Nat) (e : Entry) : (s.setEnt p tab bank idx e).doms = s.doms := rfl
@[simp] theorem State.setEnt_cans (p : Nat) (tab : Nat) (bank : Nat) (idx : Nat) (e : Entry) : (s.setEnt p tab bank idx e).cans = s.cans := rfl
@[simp] theorem State.setEnt_lins (p : Nat) (tab : Nat) (bank : Nat) (idx : Nat) (e : Entry) : (s.setEnt p tab bank idx e).lins = s.lins := rfl
@[simp] theorem State.setEnt_sers (p : Nat) (tab : Nat) (bank : Nat) (idx : Nat) (e : Entry) : (s.setEnt p tab bank idx e).sers = s.sers := rfl
@[simp] theorem State.setEnt_srt (p : Nat) (tab : Nat) (bank : Nat) (idx : Nat) (e : Entry) : (s.setEnt p tab bank idx e).srt = s.srt := rfl
@[simp] theorem State.setEnt_swc (p : Nat) (tab : Nat) (bank : Nat) (idx : Nat) (e : Entry) : (s.setEnt p tab bank idx e).swc = s.swc := rfl
@[simp] theorem State.setEnt_egress (p : Nat) (tab : Nat) (bank : Nat) (idx : Nat) (e : Entry) : (s.setEnt p tab bank idx e).egress = s.egress := rfl
@[simp] theorem State.setEnt_eths (p : Nat) (tab : Nat) (bank : Nat) (idx : Nat) (e : Entry) : (s.setEnt p tab bank idx e).eths = s.eths := rfl
@[simp] theorem State.setEnt_pipes (p : Nat) (tab : Nat) (bank : Nat) (idx : Nat) (e : Entry) : (s.setEnt p tab bank idx e).pipes = s.pipes := rfl
@[simp] theorem State.setEnt_fdbs (p : Nat) (tab : Nat) (bank : Nat) (idx : Nat) (e : Entry) : (s.setEnt p tab bank idx e).fdbs = s.fdbs := rfl
@[simp] theorem State.setEnt_frer (p : Nat) (tab : Nat) (bank : Nat) (idx : Nat) (e : Entry) : (s.setEnt p tab bank idx e).frer = s.frer := rfl
@[simp] theorem State.setEnt_eccSeen (p : Nat) (tab : Nat) (bank : Nat) (idx : Nat) (e : Entry) : (s.setEnt p tab bank idx e).eccSeen = s.eccSeen := rfl
@[simp] theorem State.setEnt_logOvf (p : Nat) (tab : Nat) (bank : Nat) (idx : Nat) (e : Entry) : (s.setEnt p tab bank idx e).logOvf = s.logOvf := rfl
@[simp] theorem State.setEnt_wdogBase (p : Nat) (tab : Nat) (bank : Nat) (idx : Nat) (e : Entry) : (s.setEnt p tab bank idx e).wdogBase = s.wdogBase := rfl
@[simp] theorem State.setEnt_perst (p : Nat) (tab : Nat) (bank : Nat) (idx : Nat) (e : Entry) : (s.setEnt p tab bank idx e).perst = s.perst := rfl
@[simp] theorem State.setEnt_trn (p : Nat) (tab : Nat) (bank : Nat) (idx : Nat) (e : Entry) : (s.setEnt p tab bank idx e).trn = s.trn := rfl
@[simp] theorem State.setEnt_capGen (p : Nat) (tab : Nat) (bank : Nat) (idx : Nat) (e : Entry) : (s.setEnt p tab bank idx e).capGen = s.capGen := rfl
@[simp] theorem State.setEnt_lastSlot (p : Nat) (tab : Nat) (bank : Nat) (idx : Nat) (e : Entry) : (s.setEnt p tab bank idx e).lastSlot = s.lastSlot := rfl
@[simp] theorem State.setEnt_time (p : Nat) (tab : Nat) (bank : Nat) (idx : Nat) (e : Entry) : (s.setEnt p tab bank idx e).time = s.time := rfl
@[simp] theorem State.setEnt_clusters (p : Nat) (tab : Nat) (bank : Nat) (idx : Nat) (e : Entry) : (s.setEnt p tab bank idx e).clusters = s.clusters := rfl
@[simp] theorem State.setEnt_ldie (p : Nat) (tab : Nat) (bank : Nat) (idx : Nat) (e : Entry) : (s.setEnt p tab bank idx e).ldie = s.ldie := rfl
@[simp] theorem State.setEnt_keys (p : Nat) (tab : Nat) (bank : Nat) (idx : Nat) (e : Entry) : (s.setEnt p tab bank idx e).keys = s.keys := rfl
@[simp] theorem State.setEnt_otp (p : Nat) (tab : Nat) (bank : Nat) (idx : Nat) (e : Entry) : (s.setEnt p tab bank idx e).otp = s.otp := rfl
@[simp] theorem State.setEnt_dbg (p : Nat) (tab : Nat) (bank : Nat) (idx : Nat) (e : Entry) : (s.setEnt p tab bank idx e).dbg = s.dbg := rfl
@[simp] theorem State.setEnt_emc (p : Nat) (tab : Nat) (bank : Nat) (idx : Nat) (e : Entry) : (s.setEnt p tab bank idx e).emc = s.emc := rfl
@[simp] theorem State.setEnt_pow (p : Nat) (tab : Nat) (bank : Nat) (idx : Nat) (e : Entry) : (s.setEnt p tab bank idx e).pow = s.pow := rfl
@[simp] theorem State.setEnt_freshSaved (p : Nat) (tab : Nat) (bank : Nat) (idx : Nat) (e : Entry) : (s.setEnt p tab bank idx e).freshSaved = s.freshSaved := rfl

/-! #### setDom -/

@[simp] theorem State.setDom_pending (d : Nat) (x : Dom) : (s.setDom d x).pending = s.pending := rfl
@[simp] theorem State.setDom_out (d : Nat) (x : Dom) : (s.setDom d x).out = s.out := rfl
@[simp] theorem State.setDom_frc (d : Nat) (x : Dom) : (s.setDom d x).frc = s.frc := rfl
@[simp] theorem State.setDom_coarse (d : Nat) (x : Dom) : (s.setDom d x).coarse = s.coarse := rfl
@[simp] theorem State.setDom_draws (d : Nat) (x : Dom) : (s.setDom d x).draws = s.draws := rfl
@[simp] theorem State.setDom_boot (d : Nat) (x : Dom) : (s.setDom d x).boot = s.boot := rfl
@[simp] theorem State.setDom_pwr (d : Nat) (x : Dom) : (s.setDom d x).pwr = s.pwr := rfl
@[simp] theorem State.setDom_regs (d : Nat) (x : Dom) : (s.setDom d x).regs = s.regs := rfl
@[simp] theorem State.setDom_cnt (d : Nat) (x : Dom) : (s.setDom d x).cnt = s.cnt := rfl
@[simp] theorem State.setDom_snap (d : Nat) (x : Dom) : (s.setDom d x).snap = s.snap := rfl
@[simp] theorem State.setDom_tabs (d : Nat) (x : Dom) : (s.setDom d x).tabs = s.tabs := rfl
@[simp] theorem State.setDom_mram (d : Nat) (x : Dom) : (s.setDom d x).mram = s.mram := rfl
@[simp] theorem State.setDom_dram (d : Nat) (x : Dom) : (s.setDom d x).dram = s.dram := rfl
@[simp] theorem State.setDom_wqs (d : Nat) (x : Dom) : (s.setDom d x).wqs = s.wqs := rfl
@[simp] theorem State.setDom_reports (d : Nat) (x : Dom) : (s.setDom d x).reports = s.reports := rfl
@[simp] theorem State.setDom_lostPages (d : Nat) (x : Dom) : (s.setDom d x).lostPages = s.lostPages := rfl
@[simp] theorem State.setDom_runs (d : Nat) (x : Dom) : (s.setDom d x).runs = s.runs := rfl
@[simp] theorem State.setDom_wins (d : Nat) (x : Dom) : (s.setDom d x).wins = s.wins := rfl
@[simp] theorem State.setDom_resets (d : Nat) (x : Dom) : (s.setDom d x).resets = s.resets := rfl
@[simp] theorem State.setDom_snaps (d : Nat) (x : Dom) : (s.setDom d x).snaps = s.snaps := rfl
@[simp] theorem State.setDom_cans (d : Nat) (x : Dom) : (s.setDom d x).cans = s.cans := rfl
@[simp] theorem State.setDom_lins (d : Nat) (x : Dom) : (s.setDom d x).lins = s.lins := rfl
@[simp] theorem State.setDom_sers (d : Nat) (x : Dom) : (s.setDom d x).sers = s.sers := rfl
@[simp] theorem State.setDom_srt (d : Nat) (x : Dom) : (s.setDom d x).srt = s.srt := rfl
@[simp] theorem State.setDom_swc (d : Nat) (x : Dom) : (s.setDom d x).swc = s.swc := rfl
@[simp] theorem State.setDom_egress (d : Nat) (x : Dom) : (s.setDom d x).egress = s.egress := rfl
@[simp] theorem State.setDom_eths (d : Nat) (x : Dom) : (s.setDom d x).eths = s.eths := rfl
@[simp] theorem State.setDom_pipes (d : Nat) (x : Dom) : (s.setDom d x).pipes = s.pipes := rfl
@[simp] theorem State.setDom_fdbs (d : Nat) (x : Dom) : (s.setDom d x).fdbs = s.fdbs := rfl
@[simp] theorem State.setDom_frer (d : Nat) (x : Dom) : (s.setDom d x).frer = s.frer := rfl
@[simp] theorem State.setDom_eccSeen (d : Nat) (x : Dom) : (s.setDom d x).eccSeen = s.eccSeen := rfl
@[simp] theorem State.setDom_logOvf (d : Nat) (x : Dom) : (s.setDom d x).logOvf = s.logOvf := rfl
@[simp] theorem State.setDom_wdogBase (d : Nat) (x : Dom) : (s.setDom d x).wdogBase = s.wdogBase := rfl
@[simp] theorem State.setDom_perst (d : Nat) (x : Dom) : (s.setDom d x).perst = s.perst := rfl
@[simp] theorem State.setDom_trn (d : Nat) (x : Dom) : (s.setDom d x).trn = s.trn := rfl
@[simp] theorem State.setDom_capGen (d : Nat) (x : Dom) : (s.setDom d x).capGen = s.capGen := rfl
@[simp] theorem State.setDom_lastSlot (d : Nat) (x : Dom) : (s.setDom d x).lastSlot = s.lastSlot := rfl
@[simp] theorem State.setDom_time (d : Nat) (x : Dom) : (s.setDom d x).time = s.time := rfl
@[simp] theorem State.setDom_clusters (d : Nat) (x : Dom) : (s.setDom d x).clusters = s.clusters := rfl
@[simp] theorem State.setDom_ldie (d : Nat) (x : Dom) : (s.setDom d x).ldie = s.ldie := rfl
@[simp] theorem State.setDom_keys (d : Nat) (x : Dom) : (s.setDom d x).keys = s.keys := rfl
@[simp] theorem State.setDom_otp (d : Nat) (x : Dom) : (s.setDom d x).otp = s.otp := rfl
@[simp] theorem State.setDom_dbg (d : Nat) (x : Dom) : (s.setDom d x).dbg = s.dbg := rfl
@[simp] theorem State.setDom_emc (d : Nat) (x : Dom) : (s.setDom d x).emc = s.emc := rfl
@[simp] theorem State.setDom_pow (d : Nat) (x : Dom) : (s.setDom d x).pow = s.pow := rfl
@[simp] theorem State.setDom_freshSaved (d : Nat) (x : Dom) : (s.setDom d x).freshSaved = s.freshSaved := rfl

/-! #### setWq -/

@[simp] theorem State.setWq_pending (k : Nat) (q : WordQ) : (s.setWq k q).pending = s.pending := rfl
@[simp] theorem State.setWq_out (k : Nat) (q : WordQ) : (s.setWq k q).out = s.out := rfl
@[simp] theorem State.setWq_frc (k : Nat) (q : WordQ) : (s.setWq k q).frc = s.frc := rfl
@[simp] theorem State.setWq_coarse (k : Nat) (q : WordQ) : (s.setWq k q).coarse = s.coarse := rfl
@[simp] theorem State.setWq_draws (k : Nat) (q : WordQ) : (s.setWq k q).draws = s.draws := rfl
@[simp] theorem State.setWq_boot (k : Nat) (q : WordQ) : (s.setWq k q).boot = s.boot := rfl
@[simp] theorem State.setWq_pwr (k : Nat) (q : WordQ) : (s.setWq k q).pwr = s.pwr := rfl
@[simp] theorem State.setWq_regs (k : Nat) (q : WordQ) : (s.setWq k q).regs = s.regs := rfl
@[simp] theorem State.setWq_cnt (k : Nat) (q : WordQ) : (s.setWq k q).cnt = s.cnt := rfl
@[simp] theorem State.setWq_snap (k : Nat) (q : WordQ) : (s.setWq k q).snap = s.snap := rfl
@[simp] theorem State.setWq_tabs (k : Nat) (q : WordQ) : (s.setWq k q).tabs = s.tabs := rfl
@[simp] theorem State.setWq_mram (k : Nat) (q : WordQ) : (s.setWq k q).mram = s.mram := rfl
@[simp] theorem State.setWq_dram (k : Nat) (q : WordQ) : (s.setWq k q).dram = s.dram := rfl
@[simp] theorem State.setWq_reports (k : Nat) (q : WordQ) : (s.setWq k q).reports = s.reports := rfl
@[simp] theorem State.setWq_lostPages (k : Nat) (q : WordQ) : (s.setWq k q).lostPages = s.lostPages := rfl
@[simp] theorem State.setWq_runs (k : Nat) (q : WordQ) : (s.setWq k q).runs = s.runs := rfl
@[simp] theorem State.setWq_wins (k : Nat) (q : WordQ) : (s.setWq k q).wins = s.wins := rfl
@[simp] theorem State.setWq_resets (k : Nat) (q : WordQ) : (s.setWq k q).resets = s.resets := rfl
@[simp] theorem State.setWq_snaps (k : Nat) (q : WordQ) : (s.setWq k q).snaps = s.snaps := rfl
@[simp] theorem State.setWq_doms (k : Nat) (q : WordQ) : (s.setWq k q).doms = s.doms := rfl
@[simp] theorem State.setWq_cans (k : Nat) (q : WordQ) : (s.setWq k q).cans = s.cans := rfl
@[simp] theorem State.setWq_lins (k : Nat) (q : WordQ) : (s.setWq k q).lins = s.lins := rfl
@[simp] theorem State.setWq_sers (k : Nat) (q : WordQ) : (s.setWq k q).sers = s.sers := rfl
@[simp] theorem State.setWq_srt (k : Nat) (q : WordQ) : (s.setWq k q).srt = s.srt := rfl
@[simp] theorem State.setWq_swc (k : Nat) (q : WordQ) : (s.setWq k q).swc = s.swc := rfl
@[simp] theorem State.setWq_egress (k : Nat) (q : WordQ) : (s.setWq k q).egress = s.egress := rfl
@[simp] theorem State.setWq_eths (k : Nat) (q : WordQ) : (s.setWq k q).eths = s.eths := rfl
@[simp] theorem State.setWq_pipes (k : Nat) (q : WordQ) : (s.setWq k q).pipes = s.pipes := rfl
@[simp] theorem State.setWq_fdbs (k : Nat) (q : WordQ) : (s.setWq k q).fdbs = s.fdbs := rfl
@[simp] theorem State.setWq_frer (k : Nat) (q : WordQ) : (s.setWq k q).frer = s.frer := rfl
@[simp] theorem State.setWq_eccSeen (k : Nat) (q : WordQ) : (s.setWq k q).eccSeen = s.eccSeen := rfl
@[simp] theorem State.setWq_logOvf (k : Nat) (q : WordQ) : (s.setWq k q).logOvf = s.logOvf := rfl
@[simp] theorem State.setWq_wdogBase (k : Nat) (q : WordQ) : (s.setWq k q).wdogBase = s.wdogBase := rfl
@[simp] theorem State.setWq_perst (k : Nat) (q : WordQ) : (s.setWq k q).perst = s.perst := rfl
@[simp] theorem State.setWq_trn (k : Nat) (q : WordQ) : (s.setWq k q).trn = s.trn := rfl
@[simp] theorem State.setWq_capGen (k : Nat) (q : WordQ) : (s.setWq k q).capGen = s.capGen := rfl
@[simp] theorem State.setWq_lastSlot (k : Nat) (q : WordQ) : (s.setWq k q).lastSlot = s.lastSlot := rfl
@[simp] theorem State.setWq_time (k : Nat) (q : WordQ) : (s.setWq k q).time = s.time := rfl
@[simp] theorem State.setWq_clusters (k : Nat) (q : WordQ) : (s.setWq k q).clusters = s.clusters := rfl
@[simp] theorem State.setWq_ldie (k : Nat) (q : WordQ) : (s.setWq k q).ldie = s.ldie := rfl
@[simp] theorem State.setWq_keys (k : Nat) (q : WordQ) : (s.setWq k q).keys = s.keys := rfl
@[simp] theorem State.setWq_otp (k : Nat) (q : WordQ) : (s.setWq k q).otp = s.otp := rfl
@[simp] theorem State.setWq_dbg (k : Nat) (q : WordQ) : (s.setWq k q).dbg = s.dbg := rfl
@[simp] theorem State.setWq_emc (k : Nat) (q : WordQ) : (s.setWq k q).emc = s.emc := rfl
@[simp] theorem State.setWq_pow (k : Nat) (q : WordQ) : (s.setWq k q).pow = s.pow := rfl
@[simp] theorem State.setWq_freshSaved (k : Nat) (q : WordQ) : (s.setWq k q).freshSaved = s.freshSaved := rfl

/-! #### setCan -/

@[simp] theorem State.setCan_regs (n : Nat) (c : Can) : (s.setCan n c).regs = s.regs := rfl
@[simp] theorem State.setCan_cnt (n : Nat) (c : Can) : (s.setCan n c).cnt = s.cnt := rfl
@[simp] theorem State.setCan_tabs (n : Nat) (c : Can) : (s.setCan n c).tabs = s.tabs := rfl
@[simp] theorem State.setCan_doms (n : Nat) (c : Can) : (s.setCan n c).doms = s.doms := rfl
@[simp] theorem State.setCan_wqs (n : Nat) (c : Can) : (s.setCan n c).wqs = s.wqs := rfl
@[simp] theorem State.setCan_frc (n : Nat) (c : Can) : (s.setCan n c).frc = s.frc := rfl
@[simp] theorem State.setCan_boot (n : Nat) (c : Can) : (s.setCan n c).boot = s.boot := rfl
@[simp] theorem State.setCan_pwr (n : Nat) (c : Can) : (s.setCan n c).pwr = s.pwr := rfl
@[simp] theorem State.setCan_draws (n : Nat) (c : Can) : (s.setCan n c).draws = s.draws := rfl
@[simp] theorem State.setCan_out (n : Nat) (c : Can) : (s.setCan n c).out = s.out := rfl
@[simp] theorem State.setCan_mram (n : Nat) (c : Can) : (s.setCan n c).mram = s.mram := rfl
@[simp] theorem State.setCan_dram (n : Nat) (c : Can) : (s.setCan n c).dram = s.dram := rfl

/-! #### setLin -/

@[simp] theorem State.setLin_regs (n : Nat) (x : Lin) : (s.setLin n x).regs = s.regs := rfl
@[simp] theorem State.setLin_cnt (n : Nat) (x : Lin) : (s.setLin n x).cnt = s.cnt := rfl
@[simp] theorem State.setLin_tabs (n : Nat) (x : Lin) : (s.setLin n x).tabs = s.tabs := rfl
@[simp] theorem State.setLin_doms (n : Nat) (x : Lin) : (s.setLin n x).doms = s.doms := rfl
@[simp] theorem State.setLin_wqs (n : Nat) (x : Lin) : (s.setLin n x).wqs = s.wqs := rfl
@[simp] theorem State.setLin_frc (n : Nat) (x : Lin) : (s.setLin n x).frc = s.frc := rfl
@[simp] theorem State.setLin_boot (n : Nat) (x : Lin) : (s.setLin n x).boot = s.boot := rfl
@[simp] theorem State.setLin_pwr (n : Nat) (x : Lin) : (s.setLin n x).pwr = s.pwr := rfl
@[simp] theorem State.setLin_draws (n : Nat) (x : Lin) : (s.setLin n x).draws = s.draws := rfl
@[simp] theorem State.setLin_out (n : Nat) (x : Lin) : (s.setLin n x).out = s.out := rfl
@[simp] theorem State.setLin_mram (n : Nat) (x : Lin) : (s.setLin n x).mram = s.mram := rfl
@[simp] theorem State.setLin_dram (n : Nat) (x : Lin) : (s.setLin n x).dram = s.dram := rfl

/-! #### setSer -/

@[simp] theorem State.setSer_regs (k : Nat) (x : Ser) : (s.setSer k x).regs = s.regs := rfl
@[simp] theorem State.setSer_cnt (k : Nat) (x : Ser) : (s.setSer k x).cnt = s.cnt := rfl
@[simp] theorem State.setSer_tabs (k : Nat) (x : Ser) : (s.setSer k x).tabs = s.tabs := rfl
@[simp] theorem State.setSer_doms (k : Nat) (x : Ser) : (s.setSer k x).doms = s.doms := rfl
@[simp] theorem State.setSer_wqs (k : Nat) (x : Ser) : (s.setSer k x).wqs = s.wqs := rfl
@[simp] theorem State.setSer_frc (k : Nat) (x : Ser) : (s.setSer k x).frc = s.frc := rfl
@[simp] theorem State.setSer_boot (k : Nat) (x : Ser) : (s.setSer k x).boot = s.boot := rfl
@[simp] theorem State.setSer_pwr (k : Nat) (x : Ser) : (s.setSer k x).pwr = s.pwr := rfl
@[simp] theorem State.setSer_draws (k : Nat) (x : Ser) : (s.setSer k x).draws = s.draws := rfl
@[simp] theorem State.setSer_out (k : Nat) (x : Ser) : (s.setSer k x).out = s.out := rfl
@[simp] theorem State.setSer_mram (k : Nat) (x : Ser) : (s.setSer k x).mram = s.mram := rfl
@[simp] theorem State.setSer_dram (k : Nat) (x : Ser) : (s.setSer k x).dram = s.dram := rfl

/-! #### setSrt -/

@[simp] theorem State.setSrt_regs (r : Srt) : (s.setSrt r).regs = s.regs := rfl
@[simp] theorem State.setSrt_cnt (r : Srt) : (s.setSrt r).cnt = s.cnt := rfl
@[simp] theorem State.setSrt_tabs (r : Srt) : (s.setSrt r).tabs = s.tabs := rfl
@[simp] theorem State.setSrt_doms (r : Srt) : (s.setSrt r).doms = s.doms := rfl
@[simp] theorem State.setSrt_wqs (r : Srt) : (s.setSrt r).wqs = s.wqs := rfl
@[simp] theorem State.setSrt_frc (r : Srt) : (s.setSrt r).frc = s.frc := rfl
@[simp] theorem State.setSrt_boot (r : Srt) : (s.setSrt r).boot = s.boot := rfl
@[simp] theorem State.setSrt_pwr (r : Srt) : (s.setSrt r).pwr = s.pwr := rfl
@[simp] theorem State.setSrt_draws (r : Srt) : (s.setSrt r).draws = s.draws := rfl
@[simp] theorem State.setSrt_out (r : Srt) : (s.setSrt r).out = s.out := rfl
@[simp] theorem State.setSrt_mram (r : Srt) : (s.setSrt r).mram = s.mram := rfl
@[simp] theorem State.setSrt_dram (r : Srt) : (s.setSrt r).dram = s.dram := rfl

/-! #### setEth -/

@[simp] theorem State.setEth_regs (p : Nat) (x : Eth) : (s.setEth p x).regs = s.regs := rfl
@[simp] theorem State.setEth_cnt (p : Nat) (x : Eth) : (s.setEth p x).cnt = s.cnt := rfl
@[simp] theorem State.setEth_tabs (p : Nat) (x : Eth) : (s.setEth p x).tabs = s.tabs := rfl
@[simp] theorem State.setEth_doms (p : Nat) (x : Eth) : (s.setEth p x).doms = s.doms := rfl
@[simp] theorem State.setEth_wqs (p : Nat) (x : Eth) : (s.setEth p x).wqs = s.wqs := rfl
@[simp] theorem State.setEth_frc (p : Nat) (x : Eth) : (s.setEth p x).frc = s.frc := rfl
@[simp] theorem State.setEth_boot (p : Nat) (x : Eth) : (s.setEth p x).boot = s.boot := rfl
@[simp] theorem State.setEth_pwr (p : Nat) (x : Eth) : (s.setEth p x).pwr = s.pwr := rfl
@[simp] theorem State.setEth_draws (p : Nat) (x : Eth) : (s.setEth p x).draws = s.draws := rfl
@[simp] theorem State.setEth_out (p : Nat) (x : Eth) : (s.setEth p x).out = s.out := rfl
@[simp] theorem State.setEth_mram (p : Nat) (x : Eth) : (s.setEth p x).mram = s.mram := rfl
@[simp] theorem State.setEth_dram (p : Nat) (x : Eth) : (s.setEth p x).dram = s.dram := rfl

/-! #### setEgr -/

@[simp] theorem State.setEgr_regs (p : Nat) (x : Egress) : (s.setEgr p x).regs = s.regs := rfl
@[simp] theorem State.setEgr_cnt (p : Nat) (x : Egress) : (s.setEgr p x).cnt = s.cnt := rfl
@[simp] theorem State.setEgr_tabs (p : Nat) (x : Egress) : (s.setEgr p x).tabs = s.tabs := rfl
@[simp] theorem State.setEgr_doms (p : Nat) (x : Egress) : (s.setEgr p x).doms = s.doms := rfl
@[simp] theorem State.setEgr_wqs (p : Nat) (x : Egress) : (s.setEgr p x).wqs = s.wqs := rfl
@[simp] theorem State.setEgr_frc (p : Nat) (x : Egress) : (s.setEgr p x).frc = s.frc := rfl
@[simp] theorem State.setEgr_boot (p : Nat) (x : Egress) : (s.setEgr p x).boot = s.boot := rfl
@[simp] theorem State.setEgr_pwr (p : Nat) (x : Egress) : (s.setEgr p x).pwr = s.pwr := rfl
@[simp] theorem State.setEgr_draws (p : Nat) (x : Egress) : (s.setEgr p x).draws = s.draws := rfl
@[simp] theorem State.setEgr_out (p : Nat) (x : Egress) : (s.setEgr p x).out = s.out := rfl
@[simp] theorem State.setEgr_mram (p : Nat) (x : Egress) : (s.setEgr p x).mram = s.mram := rfl
@[simp] theorem State.setEgr_dram (p : Nat) (x : Egress) : (s.setEgr p x).dram = s.dram := rfl

/-! #### setPipe -/

@[simp] theorem State.setPipe_regs (i : Nat) (x : Pipe) : (s.setPipe i x).regs = s.regs := rfl
@[simp] theorem State.setPipe_cnt (i : Nat) (x : Pipe) : (s.setPipe i x).cnt = s.cnt := rfl
@[simp] theorem State.setPipe_tabs (i : Nat) (x : Pipe) : (s.setPipe i x).tabs = s.tabs := rfl
@[simp] theorem State.setPipe_doms (i : Nat) (x : Pipe) : (s.setPipe i x).doms = s.doms := rfl
@[simp] theorem State.setPipe_wqs (i : Nat) (x : Pipe) : (s.setPipe i x).wqs = s.wqs := rfl
@[simp] theorem State.setPipe_frc (i : Nat) (x : Pipe) : (s.setPipe i x).frc = s.frc := rfl
@[simp] theorem State.setPipe_boot (i : Nat) (x : Pipe) : (s.setPipe i x).boot = s.boot := rfl
@[simp] theorem State.setPipe_pwr (i : Nat) (x : Pipe) : (s.setPipe i x).pwr = s.pwr := rfl
@[simp] theorem State.setPipe_draws (i : Nat) (x : Pipe) : (s.setPipe i x).draws = s.draws := rfl
@[simp] theorem State.setPipe_out (i : Nat) (x : Pipe) : (s.setPipe i x).out = s.out := rfl
@[simp] theorem State.setPipe_mram (i : Nat) (x : Pipe) : (s.setPipe i x).mram = s.mram := rfl
@[simp] theorem State.setPipe_dram (i : Nat) (x : Pipe) : (s.setPipe i x).dram = s.dram := rfl

/-! #### setFdb -/

@[simp] theorem State.setFdb_regs (i : Nat) (x : Fdb) : (s.setFdb i x).regs = s.regs := rfl
@[simp] theorem State.setFdb_cnt (i : Nat) (x : Fdb) : (s.setFdb i x).cnt = s.cnt := rfl
@[simp] theorem State.setFdb_tabs (i : Nat) (x : Fdb) : (s.setFdb i x).tabs = s.tabs := rfl
@[simp] theorem State.setFdb_doms (i : Nat) (x : Fdb) : (s.setFdb i x).doms = s.doms := rfl
@[simp] theorem State.setFdb_wqs (i : Nat) (x : Fdb) : (s.setFdb i x).wqs = s.wqs := rfl
@[simp] theorem State.setFdb_frc (i : Nat) (x : Fdb) : (s.setFdb i x).frc = s.frc := rfl
@[simp] theorem State.setFdb_boot (i : Nat) (x : Fdb) : (s.setFdb i x).boot = s.boot := rfl
@[simp] theorem State.setFdb_pwr (i : Nat) (x : Fdb) : (s.setFdb i x).pwr = s.pwr := rfl
@[simp] theorem State.setFdb_draws (i : Nat) (x : Fdb) : (s.setFdb i x).draws = s.draws := rfl
@[simp] theorem State.setFdb_out (i : Nat) (x : Fdb) : (s.setFdb i x).out = s.out := rfl
@[simp] theorem State.setFdb_mram (i : Nat) (x : Fdb) : (s.setFdb i x).mram = s.mram := rfl
@[simp] theorem State.setFdb_dram (i : Nat) (x : Fdb) : (s.setFdb i x).dram = s.dram := rfl

/-! #### setFrer -/

@[simp] theorem State.setFrer_regs (x : Frer) : (s.setFrer x).regs = s.regs := rfl
@[simp] theorem State.setFrer_cnt (x : Frer) : (s.setFrer x).cnt = s.cnt := rfl
@[simp] theorem State.setFrer_tabs (x : Frer) : (s.setFrer x).tabs = s.tabs := rfl
@[simp] theorem State.setFrer_doms (x : Frer) : (s.setFrer x).doms = s.doms := rfl
@[simp] theorem State.setFrer_wqs (x : Frer) : (s.setFrer x).wqs = s.wqs := rfl
@[simp] theorem State.setFrer_frc (x : Frer) : (s.setFrer x).frc = s.frc := rfl
@[simp] theorem State.setFrer_boot (x : Frer) : (s.setFrer x).boot = s.boot := rfl
@[simp] theorem State.setFrer_pwr (x : Frer) : (s.setFrer x).pwr = s.pwr := rfl
@[simp] theorem State.setFrer_draws (x : Frer) : (s.setFrer x).draws = s.draws := rfl
@[simp] theorem State.setFrer_out (x : Frer) : (s.setFrer x).out = s.out := rfl
@[simp] theorem State.setFrer_mram (x : Frer) : (s.setFrer x).mram = s.mram := rfl
@[simp] theorem State.setFrer_dram (x : Frer) : (s.setFrer x).dram = s.dram := rfl

/-! #### setCl -/

@[simp] theorem State.setCl_regs (c : Nat) (x : Cluster) : (s.setCl c x).regs = s.regs := rfl
@[simp] theorem State.setCl_cnt (c : Nat) (x : Cluster) : (s.setCl c x).cnt = s.cnt := rfl
@[simp] theorem State.setCl_tabs (c : Nat) (x : Cluster) : (s.setCl c x).tabs = s.tabs := rfl
@[simp] theorem State.setCl_doms (c : Nat) (x : Cluster) : (s.setCl c x).doms = s.doms := rfl
@[simp] theorem State.setCl_wqs (c : Nat) (x : Cluster) : (s.setCl c x).wqs = s.wqs := rfl
@[simp] theorem State.setCl_frc (c : Nat) (x : Cluster) : (s.setCl c x).frc = s.frc := rfl
@[simp] theorem State.setCl_boot (c : Nat) (x : Cluster) : (s.setCl c x).boot = s.boot := rfl
@[simp] theorem State.setCl_pwr (c : Nat) (x : Cluster) : (s.setCl c x).pwr = s.pwr := rfl
@[simp] theorem State.setCl_draws (c : Nat) (x : Cluster) : (s.setCl c x).draws = s.draws := rfl
@[simp] theorem State.setCl_out (c : Nat) (x : Cluster) : (s.setCl c x).out = s.out := rfl
@[simp] theorem State.setCl_mram (c : Nat) (x : Cluster) : (s.setCl c x).mram = s.mram := rfl
@[simp] theorem State.setCl_dram (c : Nat) (x : Cluster) : (s.setCl c x).dram = s.dram := rfl

/-! #### setTime -/

@[simp] theorem State.setTime_regs (x : TimeSt) : (s.setTime x).regs = s.regs := rfl
@[simp] theorem State.setTime_cnt (x : TimeSt) : (s.setTime x).cnt = s.cnt := rfl
@[simp] theorem State.setTime_tabs (x : TimeSt) : (s.setTime x).tabs = s.tabs := rfl
@[simp] theorem State.setTime_doms (x : TimeSt) : (s.setTime x).doms = s.doms := rfl
@[simp] theorem State.setTime_wqs (x : TimeSt) : (s.setTime x).wqs = s.wqs := rfl
@[simp] theorem State.setTime_frc (x : TimeSt) : (s.setTime x).frc = s.frc := rfl
@[simp] theorem State.setTime_boot (x : TimeSt) : (s.setTime x).boot = s.boot := rfl
@[simp] theorem State.setTime_pwr (x : TimeSt) : (s.setTime x).pwr = s.pwr := rfl
@[simp] theorem State.setTime_draws (x : TimeSt) : (s.setTime x).draws = s.draws := rfl
@[simp] theorem State.setTime_out (x : TimeSt) : (s.setTime x).out = s.out := rfl
@[simp] theorem State.setTime_mram (x : TimeSt) : (s.setTime x).mram = s.mram := rfl
@[simp] theorem State.setTime_dram (x : TimeSt) : (s.setTime x).dram = s.dram := rfl

/-! #### setTrn -/

@[simp] theorem State.setTrn_regs (t : Trn) : (s.setTrn t).regs = s.regs := rfl
@[simp] theorem State.setTrn_cnt (t : Trn) : (s.setTrn t).cnt = s.cnt := rfl
@[simp] theorem State.setTrn_tabs (t : Trn) : (s.setTrn t).tabs = s.tabs := rfl
@[simp] theorem State.setTrn_doms (t : Trn) : (s.setTrn t).doms = s.doms := rfl
@[simp] theorem State.setTrn_wqs (t : Trn) : (s.setTrn t).wqs = s.wqs := rfl
@[simp] theorem State.setTrn_frc (t : Trn) : (s.setTrn t).frc = s.frc := rfl
@[simp] theorem State.setTrn_boot (t : Trn) : (s.setTrn t).boot = s.boot := rfl
@[simp] theorem State.setTrn_pwr (t : Trn) : (s.setTrn t).pwr = s.pwr := rfl
@[simp] theorem State.setTrn_draws (t : Trn) : (s.setTrn t).draws = s.draws := rfl
@[simp] theorem State.setTrn_out (t : Trn) : (s.setTrn t).out = s.out := rfl
@[simp] theorem State.setTrn_mram (t : Trn) : (s.setTrn t).mram = s.mram := rfl
@[simp] theorem State.setTrn_dram (t : Trn) : (s.setTrn t).dram = s.dram := rfl

/-! #### setPow -/

@[simp] theorem State.setPow_regs (x : Power) : (s.setPow x).regs = s.regs := rfl
@[simp] theorem State.setPow_cnt (x : Power) : (s.setPow x).cnt = s.cnt := rfl
@[simp] theorem State.setPow_tabs (x : Power) : (s.setPow x).tabs = s.tabs := rfl
@[simp] theorem State.setPow_doms (x : Power) : (s.setPow x).doms = s.doms := rfl
@[simp] theorem State.setPow_wqs (x : Power) : (s.setPow x).wqs = s.wqs := rfl
@[simp] theorem State.setPow_frc (x : Power) : (s.setPow x).frc = s.frc := rfl
@[simp] theorem State.setPow_boot (x : Power) : (s.setPow x).boot = s.boot := rfl
@[simp] theorem State.setPow_pwr (x : Power) : (s.setPow x).pwr = s.pwr := rfl
@[simp] theorem State.setPow_draws (x : Power) : (s.setPow x).draws = s.draws := rfl
@[simp] theorem State.setPow_out (x : Power) : (s.setPow x).out = s.out := rfl
@[simp] theorem State.setPow_mram (x : Power) : (s.setPow x).mram = s.mram := rfl
@[simp] theorem State.setPow_dram (x : Power) : (s.setPow x).dram = s.dram := rfl

/-! #### advance: only the FRC moves -/

@[simp] theorem State.advance_pending (t : Nat) : (s.advance t).pending = s.pending := by unfold State.advance; split <;> rfl
@[simp] theorem State.advance_out (t : Nat) : (s.advance t).out = s.out := by unfold State.advance; split <;> rfl
@[simp] theorem State.advance_coarse (t : Nat) : (s.advance t).coarse = s.coarse := by unfold State.advance; split <;> rfl
@[simp] theorem State.advance_draws (t : Nat) : (s.advance t).draws = s.draws := by unfold State.advance; split <;> rfl
@[simp] theorem State.advance_boot (t : Nat) : (s.advance t).boot = s.boot := by unfold State.advance; split <;> rfl
@[simp] theorem State.advance_pwr (t : Nat) : (s.advance t).pwr = s.pwr := by unfold State.advance; split <;> rfl
@[simp] theorem State.advance_regs (t : Nat) : (s.advance t).regs = s.regs := by unfold State.advance; split <;> rfl
@[simp] theorem State.advance_cnt (t : Nat) : (s.advance t).cnt = s.cnt := by unfold State.advance; split <;> rfl
@[simp] theorem State.advance_snap (t : Nat) : (s.advance t).snap = s.snap := by unfold State.advance; split <;> rfl
@[simp] theorem State.advance_tabs (t : Nat) : (s.advance t).tabs = s.tabs := by unfold State.advance; split <;> rfl
@[simp] theorem State.advance_mram (t : Nat) : (s.advance t).mram = s.mram := by unfold State.advance; split <;> rfl
@[simp] theorem State.advance_dram (t : Nat) : (s.advance t).dram = s.dram := by unfold State.advance; split <;> rfl
@[simp] theorem State.advance_wqs (t : Nat) : (s.advance t).wqs = s.wqs := by unfold State.advance; split <;> rfl
@[simp] theorem State.advance_reports (t : Nat) : (s.advance t).reports = s.reports := by unfold State.advance; split <;> rfl
@[simp] theorem State.advance_lostPages (t : Nat) : (s.advance t).lostPages = s.lostPages := by unfold State.advance; split <;> rfl
@[simp] theorem State.advance_runs (t : Nat) : (s.advance t).runs = s.runs := by unfold State.advance; split <;> rfl
@[simp] theorem State.advance_wins (t : Nat) : (s.advance t).wins = s.wins := by unfold State.advance; split <;> rfl
@[simp] theorem State.advance_resets (t : Nat) : (s.advance t).resets = s.resets := by unfold State.advance; split <;> rfl
@[simp] theorem State.advance_snaps (t : Nat) : (s.advance t).snaps = s.snaps := by unfold State.advance; split <;> rfl
@[simp] theorem State.advance_doms (t : Nat) : (s.advance t).doms = s.doms := by unfold State.advance; split <;> rfl
@[simp] theorem State.advance_cans (t : Nat) : (s.advance t).cans = s.cans := by unfold State.advance; split <;> rfl
@[simp] theorem State.advance_lins (t : Nat) : (s.advance t).lins = s.lins := by unfold State.advance; split <;> rfl
@[simp] theorem State.advance_sers (t : Nat) : (s.advance t).sers = s.sers := by unfold State.advance; split <;> rfl
@[simp] theorem State.advance_srt (t : Nat) : (s.advance t).srt = s.srt := by unfold State.advance; split <;> rfl
@[simp] theorem State.advance_swc (t : Nat) : (s.advance t).swc = s.swc := by unfold State.advance; split <;> rfl
@[simp] theorem State.advance_egress (t : Nat) : (s.advance t).egress = s.egress := by unfold State.advance; split <;> rfl
@[simp] theorem State.advance_eths (t : Nat) : (s.advance t).eths = s.eths := by unfold State.advance; split <;> rfl
@[simp] theorem State.advance_pipes (t : Nat) : (s.advance t).pipes = s.pipes := by unfold State.advance; split <;> rfl
@[simp] theorem State.advance_fdbs (t : Nat) : (s.advance t).fdbs = s.fdbs := by unfold State.advance; split <;> rfl
@[simp] theorem State.advance_frer (t : Nat) : (s.advance t).frer = s.frer := by unfold State.advance; split <;> rfl
@[simp] theorem State.advance_eccSeen (t : Nat) : (s.advance t).eccSeen = s.eccSeen := by unfold State.advance; split <;> rfl
@[simp] theorem State.advance_logOvf (t : Nat) : (s.advance t).logOvf = s.logOvf := by unfold State.advance; split <;> rfl
@[simp] theorem State.advance_wdogBase (t : Nat) : (s.advance t).wdogBase = s.wdogBase := by unfold State.advance; split <;> rfl
@[simp] theorem State.advance_perst (t : Nat) : (s.advance t).perst = s.perst := by unfold State.advance; split <;> rfl
@[simp] theorem State.advance_trn (t : Nat) : (s.advance t).trn = s.trn := by unfold State.advance; split <;> rfl
@[simp] theorem State.advance_capGen (t : Nat) : (s.advance t).capGen = s.capGen := by unfold State.advance; split <;> rfl
@[simp] theorem State.advance_lastSlot (t : Nat) : (s.advance t).lastSlot = s.lastSlot := by unfold State.advance; split <;> rfl
@[simp] theorem State.advance_time (t : Nat) : (s.advance t).time = s.time := by unfold State.advance; split <;> rfl
@[simp] theorem State.advance_clusters (t : Nat) : (s.advance t).clusters = s.clusters := by unfold State.advance; split <;> rfl
@[simp] theorem State.advance_ldie (t : Nat) : (s.advance t).ldie = s.ldie := by unfold State.advance; split <;> rfl
@[simp] theorem State.advance_keys (t : Nat) : (s.advance t).keys = s.keys := by unfold State.advance; split <;> rfl
@[simp] theorem State.advance_otp (t : Nat) : (s.advance t).otp = s.otp := by unfold State.advance; split <;> rfl
@[simp] theorem State.advance_dbg (t : Nat) : (s.advance t).dbg = s.dbg := by unfold State.advance; split <;> rfl
@[simp] theorem State.advance_emc (t : Nat) : (s.advance t).emc = s.emc := by unfold State.advance; split <;> rfl
@[simp] theorem State.advance_pow (t : Nat) : (s.advance t).pow = s.pow := by unfold State.advance; split <;> rfl
@[simp] theorem State.advance_freshSaved (t : Nat) : (s.advance t).freshSaved = s.freshSaved := by unfold State.advance; split <;> rfl

/-- The FRC after a command stamped `t` (R47). -/
theorem State.advance_frc (t : Nat) : (s.advance t).frc = max s.frc t := by
  unfold State.advance; split <;> simp_all <;> omega

end Sys2Proof.Machine
end

