-- ==== Sys2Proof/Laws/Ops.lean ====
section
/-!
SUPPORT. What the shared operations of Machine/Ops.lean do: the fields each leaves alone, what a read answers after a write,
and where interrupts and errors write.
-/

namespace Sys2Proof.Machine

set_option Elab.async false

/-! ### Fields that the shared operations leave alone -/

variable (s : State)

@[simp] theorem State.wr_pending (p : Nat) (off : Nat) (v : Nat) : (s.wr p off v).pending = s.pending := rfl
@[simp] theorem State.wr_out (p : Nat) (off : Nat) (v : Nat) : (s.wr p off v).out = s.out := rfl
@[simp] theorem State.wr_frc (p : Nat) (off : Nat) (v : Nat) : (s.wr p off v).frc = s.frc := rfl
@[simp] theorem State.wr_coarse (p : Nat) (off : Nat) (v : Nat) : (s.wr p off v).coarse = s.coarse := rfl
@[simp] theorem State.wr_draws (p : Nat) (off : Nat) (v : Nat) : (s.wr p off v).draws = s.draws := rfl
@[simp] theorem State.wr_boot (p : Nat) (off : Nat) (v : Nat) : (s.wr p off v).boot = s.boot := rfl
@[simp] theorem State.wr_pwr (p : Nat) (off : Nat) (v : Nat) : (s.wr p off v).pwr = s.pwr := rfl
@[simp] theorem State.wr_cnt (p : Nat) (off : Nat) (v : Nat) : (s.wr p off v).cnt = s.cnt := rfl
@[simp] theorem State.wr_snap (p : Nat) (off : Nat) (v : Nat) : (s.wr p off v).snap = s.snap := rfl
@[simp] theorem State.wr_tabs (p : Nat) (off : Nat) (v : Nat) : (s.wr p off v).tabs = s.tabs := rfl
@[simp] theorem State.wr_mram (p : Nat) (off : Nat) (v : Nat) : (s.wr p off v).mram = s.mram := rfl
@[simp] theorem State.wr_dram (p : Nat) (off : Nat) (v : Nat) : (s.wr p off v).dram = s.dram := rfl
@[simp] theorem State.wr_wqs (p : Nat) (off : Nat) (v : Nat) : (s.wr p off v).wqs = s.wqs := rfl
@[simp] theorem State.wr_reports (p : Nat) (off : Nat) (v : Nat) : (s.wr p off v).reports = s.reports := rfl
@[simp] theorem State.wr_lostPages (p : Nat) (off : Nat) (v : Nat) : (s.wr p off v).lostPages = s.lostPages := rfl
@[simp] theorem State.wr_runs (p : Nat) (off : Nat) (v : Nat) : (s.wr p off v).runs = s.runs := rfl
@[simp] theorem State.wr_wins (p : Nat) (off : Nat) (v : Nat) : (s.wr p off v).wins = s.wins := rfl
@[simp] theorem State.wr_resets (p : Nat) (off : Nat) (v : Nat) : (s.wr p off v).resets = s.resets := rfl
@[simp] theorem State.wr_snaps (p : Nat) (off : Nat) (v : Nat) : (s.wr p off v).snaps = s.snaps := rfl
@[simp] theorem State.wr_doms (p : Nat) (off : Nat) (v : Nat) : (s.wr p off v).doms = s.doms := rfl
@[simp] theorem State.wr_cans (p : Nat) (off : Nat) (v : Nat) : (s.wr p off v).cans = s.cans := rfl
@[simp] theorem State.wr_lins (p : Nat) (off : Nat) (v : Nat) : (s.wr p off v).lins = s.lins := rfl
@[simp] theorem State.wr_sers (p : Nat) (off : Nat) (v : Nat) : (s.wr p off v).sers = s.sers := rfl
@[simp] theorem State.wr_srt (p : Nat) (off : Nat) (v : Nat) : (s.wr p off v).srt = s.srt := rfl
@[simp] theorem State.wr_swc (p : Nat) (off : Nat) (v : Nat) : (s.wr p off v).swc = s.swc := rfl
@[simp] theorem State.wr_egress (p : Nat) (off : Nat) (v : Nat) : (s.wr p off v).egress = s.egress := rfl
@[simp] theorem State.wr_eths (p : Nat) (off : Nat) (v : Nat) : (s.wr p off v).eths = s.eths := rfl
@[simp] theorem State.wr_pipes (p : Nat) (off : Nat) (v : Nat) : (s.wr p off v).pipes = s.pipes := rfl
@[simp] theorem State.wr_fdbs (p : Nat) (off : Nat) (v : Nat) : (s.wr p off v).fdbs = s.fdbs := rfl
@[simp] theorem State.wr_frer (p : Nat) (off : Nat) (v : Nat) : (s.wr p off v).frer = s.frer := rfl
@[simp] theorem State.wr_eccSeen (p : Nat) (off : Nat) (v : Nat) : (s.wr p off v).eccSeen = s.eccSeen := rfl
@[simp] theorem State.wr_logOvf (p : Nat) (off : Nat) (v : Nat) : (s.wr p off v).logOvf = s.logOvf := rfl
@[simp] theorem State.wr_wdogBase (p : Nat) (off : Nat) (v : Nat) : (s.wr p off v).wdogBase = s.wdogBase := rfl
@[simp] theorem State.wr_perst (p : Nat) (off : Nat) (v : Nat) : (s.wr p off v).perst = s.perst := rfl
@[simp] theorem State.wr_trn (p : Nat) (off : Nat) (v : Nat) : (s.wr p off v).trn = s.trn := rfl
@[simp] theorem State.wr_capGen (p : Nat) (off : Nat) (v : Nat) : (s.wr p off v).capGen = s.capGen := rfl
@[simp] theorem State.wr_lastSlot (p : Nat) (off : Nat) (v : Nat) : (s.wr p off v).lastSlot = s.lastSlot := rfl
@[simp] theorem State.wr_time (p : Nat) (off : Nat) (v : Nat) : (s.wr p off v).time = s.time := rfl
@[simp] theorem State.wr_clusters (p : Nat) (off : Nat) (v : Nat) : (s.wr p off v).clusters = s.clusters := rfl
@[simp] theorem State.wr_ldie (p : Nat) (off : Nat) (v : Nat) : (s.wr p off v).ldie = s.ldie := rfl
@[simp] theorem State.wr_keys (p : Nat) (off : Nat) (v : Nat) : (s.wr p off v).keys = s.keys := rfl
@[simp] theorem State.wr_otp (p : Nat) (off : Nat) (v : Nat) : (s.wr p off v).otp = s.otp := rfl
@[simp] theorem State.wr_dbg (p : Nat) (off : Nat) (v : Nat) : (s.wr p off v).dbg = s.dbg := rfl
@[simp] theorem State.wr_emc (p : Nat) (off : Nat) (v : Nat) : (s.wr p off v).emc = s.emc := rfl
@[simp] theorem State.wr_pow (p : Nat) (off : Nat) (v : Nat) : (s.wr p off v).pow = s.pow := rfl
@[simp] theorem State.wr_freshSaved (p : Nat) (off : Nat) (v : Nat) : (s.wr p off v).freshSaved = s.freshSaved := rfl

@[simp] theorem State.wr64_pending (p : Nat) (lo : Nat) (x : Nat) : (s.wr64 p lo x).pending = s.pending := rfl
@[simp] theorem State.wr64_out (p : Nat) (lo : Nat) (x : Nat) : (s.wr64 p lo x).out = s.out := rfl
@[simp] theorem State.wr64_frc (p : Nat) (lo : Nat) (x : Nat) : (s.wr64 p lo x).frc = s.frc := rfl
@[simp] theorem State.wr64_coarse (p : Nat) (lo : Nat) (x : Nat) : (s.wr64 p lo x).coarse = s.coarse := rfl
@[simp] theorem State.wr64_draws (p : Nat) (lo : Nat) (x : Nat) : (s.wr64 p lo x).draws = s.draws := rfl
@[simp] theorem State.wr64_boot (p : Nat) (lo : Nat) (x : Nat) : (s.wr64 p lo x).boot = s.boot := rfl
@[simp] theorem State.wr64_pwr (p : Nat) (lo : Nat) (x : Nat) : (s.wr64 p lo x).pwr = s.pwr := rfl
@[simp] theorem State.wr64_cnt (p : Nat) (lo : Nat) (x : Nat) : (s.wr64 p lo x).cnt = s.cnt := rfl
@[simp] theorem State.wr64_snap (p : Nat) (lo : Nat) (x : Nat) : (s.wr64 p lo x).snap = s.snap := rfl
@[simp] theorem State.wr64_tabs (p : Nat) (lo : Nat) (x : Nat) : (s.wr64 p lo x).tabs = s.tabs := rfl
@[simp] theorem State.wr64_mram (p : Nat) (lo : Nat) (x : Nat) : (s.wr64 p lo x).mram = s.mram := rfl
@[simp] theorem State.wr64_dram (p : Nat) (lo : Nat) (x : Nat) : (s.wr64 p lo x).dram = s.dram := rfl
@[simp] theorem State.wr64_wqs (p : Nat) (lo : Nat) (x : Nat) : (s.wr64 p lo x).wqs = s.wqs := rfl
@[simp] theorem State.wr64_reports (p : Nat) (lo : Nat) (x : Nat) : (s.wr64 p lo x).reports = s.reports := rfl
@[simp] theorem State.wr64_lostPages (p : Nat) (lo : Nat) (x : Nat) : (s.wr64 p lo x).lostPages = s.lostPages := rfl
@[simp] theorem State.wr64_runs (p : Nat) (lo : Nat) (x : Nat) : (s.wr64 p lo x).runs = s.runs := rfl
@[simp] theorem State.wr64_wins (p : Nat) (lo : Nat) (x : Nat) : (s.wr64 p lo x).wins = s.wins := rfl
@[simp] theorem State.wr64_resets (p : Nat) (lo : Nat) (x : Nat) : (s.wr64 p lo x).resets = s.resets := rfl
@[simp] theorem State.wr64_snaps (p : Nat) (lo : Nat) (x : Nat) : (s.wr64 p lo x).snaps = s.snaps := rfl
@[simp] theorem State.wr64_doms (p : Nat) (lo : Nat) (x : Nat) : (s.wr64 p lo x).doms = s.doms := rfl
@[simp] theorem State.wr64_cans (p : Nat) (lo : Nat) (x : Nat) : (s.wr64 p lo x).cans = s.cans := rfl
@[simp] theorem State.wr64_lins (p : Nat) (lo : Nat) (x : Nat) : (s.wr64 p lo x).lins = s.lins := rfl
@[simp] theorem State.wr64_sers (p : Nat) (lo : Nat) (x : Nat) : (s.wr64 p lo x).sers = s.sers := rfl
@[simp] theorem State.wr64_srt (p : Nat) (lo : Nat) (x : Nat) : (s.wr64 p lo x).srt = s.srt := rfl
@[simp] theorem State.wr64_swc (p : Nat) (lo : Nat) (x : Nat) : (s.wr64 p lo x).swc = s.swc := rfl
@[simp] theorem State.wr64_egress (p : Nat) (lo : Nat) (x : Nat) : (s.wr64 p lo x).egress = s.egress := rfl
@[simp] theorem State.wr64_eths (p : Nat) (lo : Nat) (x : Nat) : (s.wr64 p lo x).eths = s.eths := rfl
@[simp] theorem State.wr64_pipes (p : Nat) (lo : Nat) (x : Nat) : (s.wr64 p lo x).pipes = s.pipes := rfl
@[simp] theorem State.wr64_fdbs (p : Nat) (lo : Nat) (x : Nat) : (s.wr64 p lo x).fdbs = s.fdbs := rfl
@[simp] theorem State.wr64_frer (p : Nat) (lo : Nat) (x : Nat) : (s.wr64 p lo x).frer = s.frer := rfl
@[simp] theorem State.wr64_eccSeen (p : Nat) (lo : Nat) (x : Nat) : (s.wr64 p lo x).eccSeen = s.eccSeen := rfl
@[simp] theorem State.wr64_logOvf (p : Nat) (lo : Nat) (x : Nat) : (s.wr64 p lo x).logOvf = s.logOvf := rfl
@[simp] theorem State.wr64_wdogBase (p : Nat) (lo : Nat) (x : Nat) : (s.wr64 p lo x).wdogBase = s.wdogBase := rfl
@[simp] theorem State.wr64_perst (p : Nat) (lo : Nat) (x : Nat) : (s.wr64 p lo x).perst = s.perst := rfl
@[simp] theorem State.wr64_trn (p : Nat) (lo : Nat) (x : Nat) : (s.wr64 p lo x).trn = s.trn := rfl
@[simp] theorem State.wr64_capGen (p : Nat) (lo : Nat) (x : Nat) : (s.wr64 p lo x).capGen = s.capGen := rfl
@[simp] theorem State.wr64_lastSlot (p : Nat) (lo : Nat) (x : Nat) : (s.wr64 p lo x).lastSlot = s.lastSlot := rfl
@[simp] theorem State.wr64_time (p : Nat) (lo : Nat) (x : Nat) : (s.wr64 p lo x).time = s.time := rfl
@[simp] theorem State.wr64_clusters (p : Nat) (lo : Nat) (x : Nat) : (s.wr64 p lo x).clusters = s.clusters := rfl
@[simp] theorem State.wr64_ldie (p : Nat) (lo : Nat) (x : Nat) : (s.wr64 p lo x).ldie = s.ldie := rfl
@[simp] theorem State.wr64_keys (p : Nat) (lo : Nat) (x : Nat) : (s.wr64 p lo x).keys = s.keys := rfl
@[simp] theorem State.wr64_otp (p : Nat) (lo : Nat) (x : Nat) : (s.wr64 p lo x).otp = s.otp := rfl
@[simp] theorem State.wr64_dbg (p : Nat) (lo : Nat) (x : Nat) : (s.wr64 p lo x).dbg = s.dbg := rfl
@[simp] theorem State.wr64_emc (p : Nat) (lo : Nat) (x : Nat) : (s.wr64 p lo x).emc = s.emc := rfl
@[simp] theorem State.wr64_pow (p : Nat) (lo : Nat) (x : Nat) : (s.wr64 p lo x).pow = s.pow := rfl
@[simp] theorem State.wr64_freshSaved (p : Nat) (lo : Nat) (x : Nat) : (s.wr64 p lo x).freshSaved = s.freshSaved := rfl

@[simp] theorem State.setFld_pending (p : Nat) (f : Fld) (x : Nat) : (s.setFld p f x).pending = s.pending := rfl
@[simp] theorem State.setFld_out (p : Nat) (f : Fld) (x : Nat) : (s.setFld p f x).out = s.out := rfl
@[simp] theorem State.setFld_frc (p : Nat) (f : Fld) (x : Nat) : (s.setFld p f x).frc = s.frc := rfl
@[simp] theorem State.setFld_coarse (p : Nat) (f : Fld) (x : Nat) : (s.setFld p f x).coarse = s.coarse := rfl
@[simp] theorem State.setFld_draws (p : Nat) (f : Fld) (x : Nat) : (s.setFld p f x).draws = s.draws := rfl
@[simp] theorem State.setFld_boot (p : Nat) (f : Fld) (x : Nat) : (s.setFld p f x).boot = s.boot := rfl
@[simp] theorem State.setFld_pwr (p : Nat) (f : Fld) (x : Nat) : (s.setFld p f x).pwr = s.pwr := rfl
@[simp] theorem State.setFld_cnt (p : Nat) (f : Fld) (x : Nat) : (s.setFld p f x).cnt = s.cnt := rfl
@[simp] theorem State.setFld_snap (p : Nat) (f : Fld) (x : Nat) : (s.setFld p f x).snap = s.snap := rfl
@[simp] theorem State.setFld_tabs (p : Nat) (f : Fld) (x : Nat) : (s.setFld p f x).tabs = s.tabs := rfl
@[simp] theorem State.setFld_mram (p : Nat) (f : Fld) (x : Nat) : (s.setFld p f x).mram = s.mram := rfl
@[simp] theorem State.setFld_dram (p : Nat) (f : Fld) (x : Nat) : (s.setFld p f x).dram = s.dram := rfl
@[simp] theorem State.setFld_wqs (p : Nat) (f : Fld) (x : Nat) : (s.setFld p f x).wqs = s.wqs := rfl
@[simp] theorem State.setFld_reports (p : Nat) (f : Fld) (x : Nat) : (s.setFld p f x).reports = s.reports := rfl
@[simp] theorem State.setFld_lostPages (p : Nat) (f : Fld) (x : Nat) : (s.setFld p f x).lostPages = s.lostPages := rfl
@[simp] theorem State.setFld_runs (p : Nat) (f : Fld) (x : Nat) : (s.setFld p f x).runs = s.runs := rfl
@[simp] theorem State.setFld_wins (p : Nat) (f : Fld) (x : Nat) : (s.setFld p f x).wins = s.wins := rfl
@[simp] theorem State.setFld_resets (p : Nat) (f : Fld) (x : Nat) : (s.setFld p f x).resets = s.resets := rfl
@[simp] theorem State.setFld_snaps (p : Nat) (f : Fld) (x : Nat) : (s.setFld p f x).snaps = s.snaps := rfl
@[simp] theorem State.setFld_doms (p : Nat) (f : Fld) (x : Nat) : (s.setFld p f x).doms = s.doms := rfl
@[simp] theorem State.setFld_cans (p : Nat) (f : Fld) (x : Nat) : (s.setFld p f x).cans = s.cans := rfl
@[simp] theorem State.setFld_lins (p : Nat) (f : Fld) (x : Nat) : (s.setFld p f x).lins = s.lins := rfl
@[simp] theorem State.setFld_sers (p : Nat) (f : Fld) (x : Nat) : (s.setFld p f x).sers = s.sers := rfl
@[simp] theorem State.setFld_srt (p : Nat) (f : Fld) (x : Nat) : (s.setFld p f x).srt = s.srt := rfl
@[simp] theorem State.setFld_swc (p : Nat) (f : Fld) (x : Nat) : (s.setFld p f x).swc = s.swc := rfl
@[simp] theorem State.setFld_egress (p : Nat) (f : Fld) (x : Nat) : (s.setFld p f x).egress = s.egress := rfl
@[simp] theorem State.setFld_eths (p : Nat) (f : Fld) (x : Nat) : (s.setFld p f x).eths = s.eths := rfl
@[simp] theorem State.setFld_pipes (p : Nat) (f : Fld) (x : Nat) : (s.setFld p f x).pipes = s.pipes := rfl
@[simp] theorem State.setFld_fdbs (p : Nat) (f : Fld) (x : Nat) : (s.setFld p f x).fdbs = s.fdbs := rfl
@[simp] theorem State.setFld_frer (p : Nat) (f : Fld) (x : Nat) : (s.setFld p f x).frer = s.frer := rfl
@[simp] theorem State.setFld_eccSeen (p : Nat) (f : Fld) (x : Nat) : (s.setFld p f x).eccSeen = s.eccSeen := rfl
@[simp] theorem State.setFld_logOvf (p : Nat) (f : Fld) (x : Nat) : (s.setFld p f x).logOvf = s.logOvf := rfl
@[simp] theorem State.setFld_wdogBase (p : Nat) (f : Fld) (x : Nat) : (s.setFld p f x).wdogBase = s.wdogBase := rfl
@[simp] theorem State.setFld_perst (p : Nat) (f : Fld) (x : Nat) : (s.setFld p f x).perst = s.perst := rfl
@[simp] theorem State.setFld_trn (p : Nat) (f : Fld) (x : Nat) : (s.setFld p f x).trn = s.trn := rfl
@[simp] theorem State.setFld_capGen (p : Nat) (f : Fld) (x : Nat) : (s.setFld p f x).capGen = s.capGen := rfl
@[simp] theorem State.setFld_lastSlot (p : Nat) (f : Fld) (x : Nat) : (s.setFld p f x).lastSlot = s.lastSlot := rfl
@[simp] theorem State.setFld_time (p : Nat) (f : Fld) (x : Nat) : (s.setFld p f x).time = s.time := rfl
@[simp] theorem State.setFld_clusters (p : Nat) (f : Fld) (x : Nat) : (s.setFld p f x).clusters = s.clusters := rfl
@[simp] theorem State.setFld_ldie (p : Nat) (f : Fld) (x : Nat) : (s.setFld p f x).ldie = s.ldie := rfl
@[simp] theorem State.setFld_keys (p : Nat) (f : Fld) (x : Nat) : (s.setFld p f x).keys = s.keys := rfl
@[simp] theorem State.setFld_otp (p : Nat) (f : Fld) (x : Nat) : (s.setFld p f x).otp = s.otp := rfl
@[simp] theorem State.setFld_dbg (p : Nat) (f : Fld) (x : Nat) : (s.setFld p f x).dbg = s.dbg := rfl
@[simp] theorem State.setFld_emc (p : Nat) (f : Fld) (x : Nat) : (s.setFld p f x).emc = s.emc := rfl
@[simp] theorem State.setFld_pow (p : Nat) (f : Fld) (x : Nat) : (s.setFld p f x).pow = s.pow := rfl
@[simp] theorem State.setFld_freshSaved (p : Nat) (f : Fld) (x : Nat) : (s.setFld p f x).freshSaved = s.freshSaved := rfl

@[simp] theorem State.setFlag_pending (p : Nat) (f : Fld) (b : Bool) : (s.setFlag p f b).pending = s.pending := rfl
@[simp] theorem State.setFlag_out (p : Nat) (f : Fld) (b : Bool) : (s.setFlag p f b).out = s.out := rfl
@[simp] theorem State.setFlag_frc (p : Nat) (f : Fld) (b : Bool) : (s.setFlag p f b).frc = s.frc := rfl
@[simp] theorem State.setFlag_coarse (p : Nat) (f : Fld) (b : Bool) : (s.setFlag p f b).coarse = s.coarse := rfl
@[simp] theorem State.setFlag_draws (p : Nat) (f : Fld) (b : Bool) : (s.setFlag p f b).draws = s.draws := rfl
@[simp] theorem State.setFlag_boot (p : Nat) (f : Fld) (b : Bool) : (s.setFlag p f b).boot = s.boot := rfl
@[simp] theorem State.setFlag_pwr (p : Nat) (f : Fld) (b : Bool) : (s.setFlag p f b).pwr = s.pwr := rfl
@[simp] theorem State.setFlag_cnt (p : Nat) (f : Fld) (b : Bool) : (s.setFlag p f b).cnt = s.cnt := rfl
@[simp] theorem State.setFlag_snap (p : Nat) (f : Fld) (b : Bool) : (s.setFlag p f b).snap = s.snap := rfl
@[simp] theorem State.setFlag_tabs (p : Nat) (f : Fld) (b : Bool) : (s.setFlag p f b).tabs = s.tabs := rfl
@[simp] theorem State.setFlag_mram (p : Nat) (f : Fld) (b : Bool) : (s.setFlag p f b).mram = s.mram := rfl
@[simp] theorem State.setFlag_dram (p : Nat) (f : Fld) (b : Bool) : (s.setFlag p f b).dram = s.dram := rfl
@[simp] theorem State.setFlag_wqs (p : Nat) (f : Fld) (b : Bool) : (s.setFlag p f b).wqs = s.wqs := rfl
@[simp] theorem State.setFlag_reports (p : Nat) (f : Fld) (b : Bool) : (s.setFlag p f b).reports = s.reports := rfl
@[simp] theorem State.setFlag_lostPages (p : Nat) (f : Fld) (b : Bool) : (s.setFlag p f b).lostPages = s.lostPages := rfl
@[simp] theorem State.setFlag_runs (p : Nat) (f : Fld) (b : Bool) : (s.setFlag p f b).runs = s.runs := rfl
@[simp] theorem State.setFlag_wins (p : Nat) (f : Fld) (b : Bool) : (s.setFlag p f b).wins = s.wins := rfl
@[simp] theorem State.setFlag_resets (p : Nat) (f : Fld) (b : Bool) : (s.setFlag p f b).resets = s.resets := rfl
@[simp] theorem State.setFlag_snaps (p : Nat) (f : Fld) (b : Bool) : (s.setFlag p f b).snaps = s.snaps := rfl
@[simp] theorem State.setFlag_doms (p : Nat) (f : Fld) (b : Bool) : (s.setFlag p f b).doms = s.doms := rfl
@[simp] theorem State.setFlag_cans (p : Nat) (f : Fld) (b : Bool) : (s.setFlag p f b).cans = s.cans := rfl
@[simp] theorem State.setFlag_lins (p : Nat) (f : Fld) (b : Bool) : (s.setFlag p f b).lins = s.lins := rfl
@[simp] theorem State.setFlag_sers (p : Nat) (f : Fld) (b : Bool) : (s.setFlag p f b).sers = s.sers := rfl
@[simp] theorem State.setFlag_srt (p : Nat) (f : Fld) (b : Bool) : (s.setFlag p f b).srt = s.srt := rfl
@[simp] theorem State.setFlag_swc (p : Nat) (f : Fld) (b : Bool) : (s.setFlag p f b).swc = s.swc := rfl
@[simp] theorem State.setFlag_egress (p : Nat) (f : Fld) (b : Bool) : (s.setFlag p f b).egress = s.egress := rfl
@[simp] theorem State.setFlag_eths (p : Nat) (f : Fld) (b : Bool) : (s.setFlag p f b).eths = s.eths := rfl
@[simp] theorem State.setFlag_pipes (p : Nat) (f : Fld) (b : Bool) : (s.setFlag p f b).pipes = s.pipes := rfl
@[simp] theorem State.setFlag_fdbs (p : Nat) (f : Fld) (b : Bool) : (s.setFlag p f b).fdbs = s.fdbs := rfl
@[simp] theorem State.setFlag_frer (p : Nat) (f : Fld) (b : Bool) : (s.setFlag p f b).frer = s.frer := rfl
@[simp] theorem State.setFlag_eccSeen (p : Nat) (f : Fld) (b : Bool) : (s.setFlag p f b).eccSeen = s.eccSeen := rfl
@[simp] theorem State.setFlag_logOvf (p : Nat) (f : Fld) (b : Bool) : (s.setFlag p f b).logOvf = s.logOvf := rfl
@[simp] theorem State.setFlag_wdogBase (p : Nat) (f : Fld) (b : Bool) : (s.setFlag p f b).wdogBase = s.wdogBase := rfl
@[simp] theorem State.setFlag_perst (p : Nat) (f : Fld) (b : Bool) : (s.setFlag p f b).perst = s.perst := rfl
@[simp] theorem State.setFlag_trn (p : Nat) (f : Fld) (b : Bool) : (s.setFlag p f b).trn = s.trn := rfl
@[simp] theorem State.setFlag_capGen (p : Nat) (f : Fld) (b : Bool) : (s.setFlag p f b).capGen = s.capGen := rfl
@[simp] theorem State.setFlag_lastSlot (p : Nat) (f : Fld) (b : Bool) : (s.setFlag p f b).lastSlot = s.lastSlot := rfl
@[simp] theorem State.setFlag_time (p : Nat) (f : Fld) (b : Bool) : (s.setFlag p f b).time = s.time := rfl
@[simp] theorem State.setFlag_clusters (p : Nat) (f : Fld) (b : Bool) : (s.setFlag p f b).clusters = s.clusters := rfl
@[simp] theorem State.setFlag_ldie (p : Nat) (f : Fld) (b : Bool) : (s.setFlag p f b).ldie = s.ldie := rfl
@[simp] theorem State.setFlag_keys (p : Nat) (f : Fld) (b : Bool) : (s.setFlag p f b).keys = s.keys := rfl
@[simp] theorem State.setFlag_otp (p : Nat) (f : Fld) (b : Bool) : (s.setFlag p f b).otp = s.otp := rfl
@[simp] theorem State.setFlag_dbg (p : Nat) (f : Fld) (b : Bool) : (s.setFlag p f b).dbg = s.dbg := rfl
@[simp] theorem State.setFlag_emc (p : Nat) (f : Fld) (b : Bool) : (s.setFlag p f b).emc = s.emc := rfl
@[simp] theorem State.setFlag_pow (p : Nat) (f : Fld) (b : Bool) : (s.setFlag p f b).pow = s.pow := rfl
@[simp] theorem State.setFlag_freshSaved (p : Nat) (f : Fld) (b : Bool) : (s.setFlag p f b).freshSaved = s.freshSaved := rfl

@[simp] theorem State.store_pending (a : Nat) (v : Nat) : (s.store a v).pending = s.pending := by unfold State.store; split <;> rfl
@[simp] theorem State.store_out (a : Nat) (v : Nat) : (s.store a v).out = s.out := by unfold State.store; split <;> rfl
@[simp] theorem State.store_frc (a : Nat) (v : Nat) : (s.store a v).frc = s.frc := by unfold State.store; split <;> rfl
@[simp] theorem State.store_coarse (a : Nat) (v : Nat) : (s.store a v).coarse = s.coarse := by unfold State.store; split <;> rfl
@[simp] theorem State.store_draws (a : Nat) (v : Nat) : (s.store a v).draws = s.draws := by unfold State.store; split <;> rfl
@[simp] theorem State.store_boot (a : Nat) (v : Nat) : (s.store a v).boot = s.boot := by unfold State.store; split <;> rfl
@[simp] theorem State.store_pwr (a : Nat) (v : Nat) : (s.store a v).pwr = s.pwr := by unfold State.store; split <;> rfl
@[simp] theorem State.store_cnt (a : Nat) (v : Nat) : (s.store a v).cnt = s.cnt := by unfold State.store; split <;> rfl
@[simp] theorem State.store_snap (a : Nat) (v : Nat) : (s.store a v).snap = s.snap := by unfold State.store; split <;> rfl
@[simp] theorem State.store_tabs (a : Nat) (v : Nat) : (s.store a v).tabs = s.tabs := by unfold State.store; split <;> rfl
@[simp] theorem State.store_mram (a : Nat) (v : Nat) : (s.store a v).mram = s.mram := by unfold State.store; split <;> rfl
@[simp] theorem State.store_dram (a : Nat) (v : Nat) : (s.store a v).dram = s.dram := by unfold State.store; split <;> rfl
@[simp] theorem State.store_wqs (a : Nat) (v : Nat) : (s.store a v).wqs = s.wqs := by unfold State.store; split <;> rfl
@[simp] theorem State.store_reports (a : Nat) (v : Nat) : (s.store a v).reports = s.reports := by unfold State.store; split <;> rfl
@[simp] theorem State.store_lostPages (a : Nat) (v : Nat) : (s.store a v).lostPages = s.lostPages := by unfold State.store; split <;> rfl
@[simp] theorem State.store_runs (a : Nat) (v : Nat) : (s.store a v).runs = s.runs := by unfold State.store; split <;> rfl
@[simp] theorem State.store_wins (a : Nat) (v : Nat) : (s.store a v).wins = s.wins := by unfold State.store; split <;> rfl
@[simp] theorem State.store_resets (a : Nat) (v : Nat) : (s.store a v).resets = s.resets := by unfold State.store; split <;> rfl
@[simp] theorem State.store_snaps (a : Nat) (v : Nat) : (s.store a v).snaps = s.snaps := by unfold State.store; split <;> rfl
@[simp] theorem State.store_doms (a : Nat) (v : Nat) : (s.store a v).doms = s.doms := by unfold State.store; split <;> rfl
@[simp] theorem State.store_cans (a : Nat) (v : Nat) : (s.store a v).cans = s.cans := by unfold State.store; split <;> rfl
@[simp] theorem State.store_lins (a : Nat) (v : Nat) : (s.store a v).lins = s.lins := by unfold State.store; split <;> rfl
@[simp] theorem State.store_sers (a : Nat) (v : Nat) : (s.store a v).sers = s.sers := by unfold State.store; split <;> rfl
@[simp] theorem State.store_srt (a : Nat) (v : Nat) : (s.store a v).srt = s.srt := by unfold State.store; split <;> rfl
@[simp] theorem State.store_swc (a : Nat) (v : Nat) : (s.store a v).swc = s.swc := by unfold State.store; split <;> rfl
@[simp] theorem State.store_egress (a : Nat) (v : Nat) : (s.store a v).egress = s.egress := by unfold State.store; split <;> rfl
@[simp] theorem State.store_eths (a : Nat) (v : Nat) : (s.store a v).eths = s.eths := by unfold State.store; split <;> rfl
@[simp] theorem State.store_pipes (a : Nat) (v : Nat) : (s.store a v).pipes = s.pipes := by unfold State.store; split <;> rfl
@[simp] theorem State.store_fdbs (a : Nat) (v : Nat) : (s.store a v).fdbs = s.fdbs := by unfold State.store; split <;> rfl
@[simp] theorem State.store_frer (a : Nat) (v : Nat) : (s.store a v).frer = s.frer := by unfold State.store; split <;> rfl
@[simp] theorem State.store_eccSeen (a : Nat) (v : Nat) : (s.store a v).eccSeen = s.eccSeen := by unfold State.store; split <;> rfl
@[simp] theorem State.store_logOvf (a : Nat) (v : Nat) : (s.store a v).logOvf = s.logOvf := by unfold State.store; split <;> rfl
@[simp] theorem State.store_wdogBase (a : Nat) (v : Nat) : (s.store a v).wdogBase = s.wdogBase := by unfold State.store; split <;> rfl
@[simp] theorem State.store_perst (a : Nat) (v : Nat) : (s.store a v).perst = s.perst := by unfold State.store; split <;> rfl
@[simp] theorem State.store_trn (a : Nat) (v : Nat) : (s.store a v).trn = s.trn := by unfold State.store; split <;> rfl
@[simp] theorem State.store_capGen (a : Nat) (v : Nat) : (s.store a v).capGen = s.capGen := by unfold State.store; split <;> rfl
@[simp] theorem State.store_lastSlot (a : Nat) (v : Nat) : (s.store a v).lastSlot = s.lastSlot := by unfold State.store; split <;> rfl
@[simp] theorem State.store_time (a : Nat) (v : Nat) : (s.store a v).time = s.time := by unfold State.store; split <;> rfl
@[simp] theorem State.store_clusters (a : Nat) (v : Nat) : (s.store a v).clusters = s.clusters := by unfold State.store; split <;> rfl
@[simp] theorem State.store_ldie (a : Nat) (v : Nat) : (s.store a v).ldie = s.ldie := by unfold State.store; split <;> rfl
@[simp] theorem State.store_keys (a : Nat) (v : Nat) : (s.store a v).keys = s.keys := by unfold State.store; split <;> rfl
@[simp] theorem State.store_otp (a : Nat) (v : Nat) : (s.store a v).otp = s.otp := by unfold State.store; split <;> rfl
@[simp] theorem State.store_dbg (a : Nat) (v : Nat) : (s.store a v).dbg = s.dbg := by unfold State.store; split <;> rfl
@[simp] theorem State.store_emc (a : Nat) (v : Nat) : (s.store a v).emc = s.emc := by unfold State.store; split <;> rfl
@[simp] theorem State.store_pow (a : Nat) (v : Nat) : (s.store a v).pow = s.pow := by unfold State.store; split <;> rfl
@[simp] theorem State.store_freshSaved (a : Nat) (v : Nat) : (s.store a v).freshSaved = s.freshSaved := by unfold State.store; split <;> rfl

@[simp] theorem State.inc_pending (p : Nat) (off : Nat) : (s.inc p off).pending = s.pending := rfl
@[simp] theorem State.inc_out (p : Nat) (off : Nat) : (s.inc p off).out = s.out := rfl
@[simp] theorem State.inc_frc (p : Nat) (off : Nat) : (s.inc p off).frc = s.frc := rfl
@[simp] theorem State.inc_coarse (p : Nat) (off : Nat) : (s.inc p off).coarse = s.coarse := rfl
@[simp] theorem State.inc_draws (p : Nat) (off : Nat) : (s.inc p off).draws = s.draws := rfl
@[simp] theorem State.inc_boot (p : Nat) (off : Nat) : (s.inc p off).boot = s.boot := rfl
@[simp] theorem State.inc_pwr (p : Nat) (off : Nat) : (s.inc p off).pwr = s.pwr := rfl
@[simp] theorem State.inc_regs (p : Nat) (off : Nat) : (s.inc p off).regs = s.regs := rfl
@[simp] theorem State.inc_snap (p : Nat) (off : Nat) : (s.inc p off).snap = s.snap := rfl
@[simp] theorem State.inc_tabs (p : Nat) (off : Nat) : (s.inc p off).tabs = s.tabs := rfl
@[simp] theorem State.inc_mram (p : Nat) (off : Nat) : (s.inc p off).mram = s.mram := rfl
@[simp] theorem State.inc_dram (p : Nat) (off : Nat) : (s.inc p off).dram = s.dram := rfl
@[simp] theorem State.inc_wqs (p : Nat) (off : Nat) : (s.inc p off).wqs = s.wqs := rfl
@[simp] theorem State.inc_reports (p : Nat) (off : Nat) : (s.inc p off).reports = s.reports := rfl
@[simp] theorem State.inc_lostPages (p : Nat) (off : Nat) : (s.inc p off).lostPages = s.lostPages := rfl
@[simp] theorem State.inc_runs (p : Nat) (off : Nat) : (s.inc p off).runs = s.runs := rfl
@[simp] theorem State.inc_wins (p : Nat) (off : Nat) : (s.inc p off).wins = s.wins := rfl
@[simp] theorem State.inc_resets (p : Nat) (off : Nat) : (s.inc p off).resets = s.resets := rfl
@[simp] theorem State.inc_snaps (p : Nat) (off : Nat) : (s.inc p off).snaps = s.snaps := rfl
@[simp] theorem State.inc_doms (p : Nat) (off : Nat) : (s.inc p off).doms = s.doms := rfl
@[simp] theorem State.inc_cans (p : Nat) (off : Nat) : (s.inc p off).cans = s.cans := rfl
@[simp] theorem State.inc_lins (p : Nat) (off : Nat) : (s.inc p off).lins = s.lins := rfl
@[simp] theorem State.inc_sers (p : Nat) (off : Nat) : (s.inc p off).sers = s.sers := rfl
@[simp] theorem State.inc_srt (p : Nat) (off : Nat) : (s.inc p off).srt = s.srt := rfl
@[simp] theorem State.inc_swc (p : Nat) (off : Nat) : (s.inc p off).swc = s.swc := rfl
@[simp] theorem State.inc_egress (p : Nat) (off : Nat) : (s.inc p off).egress = s.egress := rfl
@[simp] theorem State.inc_eths (p : Nat) (off : Nat) : (s.inc p off).eths = s.eths := rfl
@[simp] theorem State.inc_pipes (p : Nat) (off : Nat) : (s.inc p off).pipes = s.pipes := rfl
@[simp] theorem State.inc_fdbs (p : Nat) (off : Nat) : (s.inc p off).fdbs = s.fdbs := rfl
@[simp] theorem State.inc_frer (p : Nat) (off : Nat) : (s.inc p off).frer = s.frer := rfl
@[simp] theorem State.inc_eccSeen (p : Nat) (off : Nat) : (s.inc p off).eccSeen = s.eccSeen := rfl
@[simp] theorem State.inc_logOvf (p : Nat) (off : Nat) : (s.inc p off).logOvf = s.logOvf := rfl
@[simp] theorem State.inc_wdogBase (p : Nat) (off : Nat) : (s.inc p off).wdogBase = s.wdogBase := rfl
@[simp] theorem State.inc_perst (p : Nat) (off : Nat) : (s.inc p off).perst = s.perst := rfl
@[simp] theorem State.inc_trn (p : Nat) (off : Nat) : (s.inc p off).trn = s.trn := rfl
@[simp] theorem State.inc_capGen (p : Nat) (off : Nat) : (s.inc p off).capGen = s.capGen := rfl
@[simp] theorem State.inc_lastSlot (p : Nat) (off : Nat) : (s.inc p off).lastSlot = s.lastSlot := rfl
@[simp] theorem State.inc_time (p : Nat) (off : Nat) : (s.inc p off).time = s.time := rfl
@[simp] theorem State.inc_clusters (p : Nat) (off : Nat) : (s.inc p off).clusters = s.clusters := rfl
@[simp] theorem State.inc_ldie (p : Nat) (off : Nat) : (s.inc p off).ldie = s.ldie := rfl
@[simp] theorem State.inc_keys (p : Nat) (off : Nat) : (s.inc p off).keys = s.keys := rfl
@[simp] theorem State.inc_otp (p : Nat) (off : Nat) : (s.inc p off).otp = s.otp := rfl
@[simp] theorem State.inc_dbg (p : Nat) (off : Nat) : (s.inc p off).dbg = s.dbg := rfl
@[simp] theorem State.inc_emc (p : Nat) (off : Nat) : (s.inc p off).emc = s.emc := rfl
@[simp] theorem State.inc_pow (p : Nat) (off : Nat) : (s.inc p off).pow = s.pow := rfl
@[simp] theorem State.inc_freshSaved (p : Nat) (off : Nat) : (s.inc p off).freshSaved = s.freshSaved := rfl

@[simp] theorem State.setEntF_pending (p : Nat) (tab : Nat) (bank : Nat) (idx : Nat) (f : Fld) (x : Nat) : (s.setEntF p tab bank idx f x).pending = s.pending := rfl
@[simp] theorem State.setEntF_out (p : Nat) (tab : Nat) (bank : Nat) (idx : Nat) (f : Fld) (x : Nat) : (s.setEntF p tab bank idx f x).out = s.out := rfl
@[simp] theorem State.setEntF_frc (p : Nat) (tab : Nat) (bank : Nat) (idx : Nat) (f : Fld) (x : Nat) : (s.setEntF p tab bank idx f x).frc = s.frc := rfl
@[simp] theorem State.setEntF_coarse (p : Nat) (tab : Nat) (bank : Nat) (idx : Nat) (f : Fld) (x : Nat) : (s.setEntF p tab bank idx f x).coarse = s.coarse := rfl
@[simp] theorem State.setEntF_draws (p : Nat) (tab : Nat) (bank : Nat) (idx : Nat) (f : Fld) (x : Nat) : (s.setEntF p tab bank idx f x).draws = s.draws := rfl
@[simp] theorem State.setEntF_boot (p : Nat) (tab : Nat) (bank : Nat) (idx : Nat) (f : Fld) (x : Nat) : (s.setEntF p tab bank idx f x).boot = s.boot := rfl
@[simp] theorem State.setEntF_pwr (p : Nat) (tab : Nat) (bank : Nat) (idx : Nat) (f : Fld) (x : Nat) : (s.setEntF p tab bank idx f x).pwr = s.pwr := rfl
@[simp] theorem State.setEntF_regs (p : Nat) (tab : Nat) (bank : Nat) (idx : Nat) (f : Fld) (x : Nat) : (s.setEntF p tab bank idx f x).regs = s.regs := rfl
@[simp] theorem State.setEntF_cnt (p : Nat) (tab : Nat) (bank : Nat) (idx : Nat) (f : Fld) (x : Nat) : (s.setEntF p tab bank idx f x).cnt = s.cnt := rfl
@[simp] theorem State.setEntF_snap (p : Nat) (tab : Nat) (bank : Nat) (idx : Nat) (f : Fld) (x : Nat) : (s.setEntF p tab bank idx f x).snap = s.snap := rfl
@[simp] theorem State.setEntF_mram (p : Nat) (tab : Nat) (bank : Nat) (idx : Nat) (f : Fld) (x : Nat) : (s.setEntF p tab bank idx f x).mram = s.mram := rfl
@[simp] theorem State.setEntF_dram (p : Nat) (tab : Nat) (bank : Nat) (idx : Nat) (f : Fld) (x : Nat) : (s.setEntF p tab bank idx f x).dram = s.dram := rfl
@[simp] theorem State.setEntF_wqs (p : Nat) (tab : Nat) (bank : Nat) (idx : Nat) (f : Fld) (x : Nat) : (s.setEntF p tab bank idx f x).wqs = s.wqs := rfl
@[simp] theorem State.setEntF_reports (p : Nat) (tab : Nat) (bank : Nat) (idx : Nat) (f : Fld) (x : Nat) : (s.setEntF p tab bank idx f x).reports = s.reports := rfl
@[simp] theorem State.setEntF_lostPages (p : Nat) (tab : Nat) (bank : Nat) (idx : Nat) (f : Fld) (x : Nat) : (s.setEntF p tab bank idx f x).lostPages = s.lostPages := rfl
@[simp] theorem State.setEntF_runs (p : Nat) (tab : Nat) (bank : Nat) (idx : Nat) (f : Fld) (x : Nat) : (s.setEntF p tab bank idx f x).runs = s.runs := rfl
@[simp] theorem State.setEntF_wins (p : Nat) (tab : Nat) (bank : Nat) (idx : Nat) (f : Fld) (x : Nat) : (s.setEntF p tab bank idx f x).wins = s.wins := rfl
@[simp] theorem State.setEntF_resets (p : Nat) (tab : Nat) (bank : Nat) (idx : Nat) (f : Fld) (x : Nat) : (s.setEntF p tab bank idx f x).resets = s.resets := rfl
@[simp] theorem State.setEntF_snaps (p : Nat) (tab : Nat) (bank : Nat) (idx : Nat) (f : Fld) (x : Nat) : (s.setEntF p tab bank idx f x).snaps = s.snaps := rfl
@[simp] theorem State.setEntF_doms (p : Nat) (tab : Nat) (bank : Nat) (idx : Nat) (f : Fld) (x : Nat) : (s.setEntF p tab bank idx f x).doms = s.doms := rfl
@[simp] theorem State.setEntF_cans (p : Nat) (tab : Nat) (bank : Nat) (idx : Nat) (f : Fld) (x : Nat) : (s.setEntF p tab bank idx f x).cans = s.cans := rfl
@[simp] theorem State.setEntF_lins (p : Nat) (tab : Nat) (bank : Nat) (idx : Nat) (f : Fld) (x : Nat) : (s.setEntF p tab bank idx f x).lins = s.lins := rfl
@[simp] theorem State.setEntF_sers (p : Nat) (tab : Nat) (bank : Nat) (idx : Nat) (f : Fld) (x : Nat) : (s.setEntF p tab bank idx f x).sers = s.sers := rfl
@[simp] theorem State.setEntF_srt (p : Nat) (tab : Nat) (bank : Nat) (idx : Nat) (f : Fld) (x : Nat) : (s.setEntF p tab bank idx f x).srt = s.srt := rfl
@[simp] theorem State.setEntF_swc (p : Nat) (tab : Nat) (bank : Nat) (idx : Nat) (f : Fld) (x : Nat) : (s.setEntF p tab bank idx f x).swc = s.swc := rfl
@[simp] theorem State.setEntF_egress (p : Nat) (tab : Nat) (bank : Nat) (idx : Nat) (f : Fld) (x : Nat) : (s.setEntF p tab bank idx f x).egress = s.egress := rfl
@[simp] theorem State.setEntF_eths (p : Nat) (tab : Nat) (bank : Nat) (idx : Nat) (f : Fld) (x : Nat) : (s.setEntF p tab bank idx f x).eths = s.eths := rfl
@[simp] theorem State.setEntF_pipes (p : Nat) (tab : Nat) (bank : Nat) (idx : Nat) (f : Fld) (x : Nat) : (s.setEntF p tab bank idx f x).pipes = s.pipes := rfl
@[simp] theorem State.setEntF_fdbs (p : Nat) (tab : Nat) (bank : Nat) (idx : Nat) (f : Fld) (x : Nat) : (s.setEntF p tab bank idx f x).fdbs = s.fdbs := rfl
@[simp] theorem State.setEntF_frer (p : Nat) (tab : Nat) (bank : Nat) (idx : Nat) (f : Fld) (x : Nat) : (s.setEntF p tab bank idx f x).frer = s.frer := rfl
@[simp] theorem State.setEntF_eccSeen (p : Nat) (tab : Nat) (bank : Nat) (idx : Nat) (f : Fld) (x : Nat) : (s.setEntF p tab bank idx f x).eccSeen = s.eccSeen := rfl
@[simp] theorem State.setEntF_logOvf (p : Nat) (tab : Nat) (bank : Nat) (idx : Nat) (f : Fld) (x : Nat) : (s.setEntF p tab bank idx f x).logOvf = s.logOvf := rfl
@[simp] theorem State.setEntF_wdogBase (p : Nat) (tab : Nat) (bank : Nat) (idx : Nat) (f : Fld) (x : Nat) : (s.setEntF p tab bank idx f x).wdogBase = s.wdogBase := rfl
@[simp] theorem State.setEntF_perst (p : Nat) (tab : Nat) (bank : Nat) (idx : Nat) (f : Fld) (x : Nat) : (s.setEntF p tab bank idx f x).perst = s.perst := rfl
@[simp] theorem State.setEntF_trn (p : Nat) (tab : Nat) (bank : Nat) (idx : Nat) (f : Fld) (x : Nat) : (s.setEntF p tab bank idx f x).trn = s.trn := rfl
@[simp] theorem State.setEntF_capGen (p : Nat) (tab : Nat) (bank : Nat) (idx : Nat) (f : Fld) (x : Nat) : (s.setEntF p tab bank idx f x).capGen = s.capGen := rfl
@[simp] theorem State.setEntF_lastSlot (p : Nat) (tab : Nat) (bank : Nat) (idx : Nat) (f : Fld) (x : Nat) : (s.setEntF p tab bank idx f x).lastSlot = s.lastSlot := rfl
@[simp] theorem State.setEntF_time (p : Nat) (tab : Nat) (bank : Nat) (idx : Nat) (f : Fld) (x : Nat) : (s.setEntF p tab bank idx f x).time = s.time := rfl
@[simp] theorem State.setEntF_clusters (p : Nat) (tab : Nat) (bank : Nat) (idx : Nat) (f : Fld) (x : Nat) : (s.setEntF p tab bank idx f x).clusters = s.clusters := rfl
@[simp] theorem State.setEntF_ldie (p : Nat) (tab : Nat) (bank : Nat) (idx : Nat) (f : Fld) (x : Nat) : (s.setEntF p tab bank idx f x).ldie = s.ldie := rfl
@[simp] theorem State.setEntF_keys (p : Nat) (tab : Nat) (bank : Nat) (idx : Nat) (f : Fld) (x : Nat) : (s.setEntF p tab bank idx f x).keys = s.keys := rfl
@[simp] theorem State.setEntF_otp (p : Nat) (tab : Nat) (bank : Nat) (idx : Nat) (f : Fld) (x : Nat) : (s.setEntF p tab bank idx f x).otp = s.otp := rfl
@[simp] theorem State.setEntF_dbg (p : Nat) (tab : Nat) (bank : Nat) (idx : Nat) (f : Fld) (x : Nat) : (s.setEntF p tab bank idx f x).dbg = s.dbg := rfl
@[simp] theorem State.setEntF_emc (p : Nat) (tab : Nat) (bank : Nat) (idx : Nat) (f : Fld) (x : Nat) : (s.setEntF p tab bank idx f x).emc = s.emc := rfl
@[simp] theorem State.setEntF_pow (p : Nat) (tab : Nat) (bank : Nat) (idx : Nat) (f : Fld) (x : Nat) : (s.setEntF p tab bank idx f x).pow = s.pow := rfl
@[simp] theorem State.setEntF_freshSaved (p : Nat) (tab : Nat) (bank : Nat) (idx : Nat) (f : Fld) (x : Nat) : (s.setEntF p tab bank idx f x).freshSaved = s.freshSaved := rfl

@[simp] theorem State.deliver_pending (d : Nat) (v : Nat) : (s.deliver d v).pending = s.pending := by unfold State.deliver; dsimp only; (repeat' split) <;> rfl
@[simp] theorem State.deliver_frc (d : Nat) (v : Nat) : (s.deliver d v).frc = s.frc := by unfold State.deliver; dsimp only; (repeat' split) <;> rfl
@[simp] theorem State.deliver_coarse (d : Nat) (v : Nat) : (s.deliver d v).coarse = s.coarse := by unfold State.deliver; dsimp only; (repeat' split) <;> rfl
@[simp] theorem State.deliver_draws (d : Nat) (v : Nat) : (s.deliver d v).draws = s.draws := by unfold State.deliver; dsimp only; (repeat' split) <;> rfl
@[simp] theorem State.deliver_boot (d : Nat) (v : Nat) : (s.deliver d v).boot = s.boot := by unfold State.deliver; dsimp only; (repeat' split) <;> rfl
@[simp] theorem State.deliver_pwr (d : Nat) (v : Nat) : (s.deliver d v).pwr = s.pwr := by unfold State.deliver; dsimp only; (repeat' split) <;> rfl
@[simp] theorem State.deliver_regs (d : Nat) (v : Nat) : (s.deliver d v).regs = s.regs := by unfold State.deliver; dsimp only; (repeat' split) <;> rfl
@[simp] theorem State.deliver_snap (d : Nat) (v : Nat) : (s.deliver d v).snap = s.snap := by unfold State.deliver; dsimp only; (repeat' split) <;> rfl
@[simp] theorem State.deliver_tabs (d : Nat) (v : Nat) : (s.deliver d v).tabs = s.tabs := by unfold State.deliver; dsimp only; (repeat' split) <;> rfl
@[simp] theorem State.deliver_mram (d : Nat) (v : Nat) : (s.deliver d v).mram = s.mram := by unfold State.deliver; dsimp only; (repeat' split) <;> rfl
@[simp] theorem State.deliver_dram (d : Nat) (v : Nat) : (s.deliver d v).dram = s.dram := by unfold State.deliver; dsimp only; (repeat' split) <;> rfl
@[simp] theorem State.deliver_wqs (d : Nat) (v : Nat) : (s.deliver d v).wqs = s.wqs := by unfold State.deliver; dsimp only; (repeat' split) <;> rfl
@[simp] theorem State.deliver_reports (d : Nat) (v : Nat) : (s.deliver d v).reports = s.reports := by unfold State.deliver; dsimp only; (repeat' split) <;> rfl
@[simp] theorem State.deliver_lostPages (d : Nat) (v : Nat) : (s.deliver d v).lostPages = s.lostPages := by unfold State.deliver; dsimp only; (repeat' split) <;> rfl
@[simp] theorem State.deliver_runs (d : Nat) (v : Nat) : (s.deliver d v).runs = s.runs := by unfold State.deliver; dsimp only; (repeat' split) <;> rfl
@[simp] theorem State.deliver_wins (d : Nat) (v : Nat) : (s.deliver d v).wins = s.wins := by unfold State.deliver; dsimp only; (repeat' split) <;> rfl
@[simp] theorem State.deliver_resets (d : Nat) (v : Nat) : (s.deliver d v).resets = s.resets := by unfold State.deliver; dsimp only; (repeat' split) <;> rfl
@[simp] theorem State.deliver_snaps (d : Nat) (v : Nat) : (s.deliver d v).snaps = s.snaps := by unfold State.deliver; dsimp only; (repeat' split) <;> rfl
@[simp] theorem State.deliver_cans (d : Nat) (v : Nat) : (s.deliver d v).cans = s.cans := by unfold State.deliver; dsimp only; (repeat' split) <;> rfl
@[simp] theorem State.deliver_lins (d : Nat) (v : Nat) : (s.deliver d v).lins = s.lins := by unfold State.deliver; dsimp only; (repeat' split) <;> rfl
@[simp] theorem State.deliver_sers (d : Nat) (v : Nat) : (s.deliver d v).sers = s.sers := by unfold State.deliver; dsimp only; (repeat' split) <;> rfl
@[simp] theorem State.deliver_srt (d : Nat) (v : Nat) : (s.deliver d v).srt = s.srt := by unfold State.deliver; dsimp only; (repeat' split) <;> rfl
@[simp] theorem State.deliver_swc (d : Nat) (v : Nat) : (s.deliver d v).swc = s.swc := by unfold State.deliver; dsimp only; (repeat' split) <;> rfl
@[simp] theorem State.deliver_egress (d : Nat) (v : Nat) : (s.deliver d v).egress = s.egress := by unfold State.deliver; dsimp only; (repeat' split) <;> rfl
@[simp] theorem State.deliver_eths (d : Nat) (v : Nat) : (s.deliver d v).eths = s.eths := by unfold State.deliver; dsimp only; (repeat' split) <;> rfl
@[simp] theorem State.deliver_pipes (d : Nat) (v : Nat) : (s.deliver d v).pipes = s.pipes := by unfold State.deliver; dsimp only; (repeat' split) <;> rfl
@[simp] theorem State.deliver_fdbs (d : Nat) (v : Nat) : (s.deliver d v).fdbs = s.fdbs := by unfold State.deliver; dsimp only; (repeat' split) <;> rfl
@[simp] theorem State.deliver_frer (d : Nat) (v : Nat) : (s.deliver d v).frer = s.frer := by unfold State.deliver; dsimp only; (repeat' split) <;> rfl
@[simp] theorem State.deliver_eccSeen (d : Nat) (v : Nat) : (s.deliver d v).eccSeen = s.eccSeen := by unfold State.deliver; dsimp only; (repeat' split) <;> rfl
@[simp] theorem State.deliver_logOvf (d : Nat) (v : Nat) : (s.deliver d v).logOvf = s.logOvf := by unfold State.deliver; dsimp only; (repeat' split) <;> rfl
@[simp] theorem State.deliver_wdogBase (d : Nat) (v : Nat) : (s.deliver d v).wdogBase = s.wdogBase := by unfold State.deliver; dsimp only; (repeat' split) <;> rfl
@[simp] theorem State.deliver_perst (d : Nat) (v : Nat) : (s.deliver d v).perst = s.perst := by unfold State.deliver; dsimp only; (repeat' split) <;> rfl
@[simp] theorem State.deliver_trn (d : Nat) (v : Nat) : (s.deliver d v).trn = s.trn := by unfold State.deliver; dsimp only; (repeat' split) <;> rfl
@[simp] theorem State.deliver_capGen (d : Nat) (v : Nat) : (s.deliver d v).capGen = s.capGen := by unfold State.deliver; dsimp only; (repeat' split) <;> rfl
@[simp] theorem State.deliver_lastSlot (d : Nat) (v : Nat) : (s.deliver d v).lastSlot = s.lastSlot := by unfold State.deliver; dsimp only; (repeat' split) <;> rfl
@[simp] theorem State.deliver_time (d : Nat) (v : Nat) : (s.deliver d v).time = s.time := by unfold State.deliver; dsimp only; (repeat' split) <;> rfl
@[simp] theorem State.deliver_clusters (d : Nat) (v : Nat) : (s.deliver d v).clusters = s.clusters := by unfold State.deliver; dsimp only; (repeat' split) <;> rfl
@[simp] theorem State.deliver_ldie (d : Nat) (v : Nat) : (s.deliver d v).ldie = s.ldie := by unfold State.deliver; dsimp only; (repeat' split) <;> rfl
@[simp] theorem State.deliver_keys (d : Nat) (v : Nat) : (s.deliver d v).keys = s.keys := by unfold State.deliver; dsimp only; (repeat' split) <;> rfl
@[simp] theorem State.deliver_otp (d : Nat) (v : Nat) : (s.deliver d v).otp = s.otp := by unfold State.deliver; dsimp only; (repeat' split) <;> rfl
@[simp] theorem State.deliver_dbg (d : Nat) (v : Nat) : (s.deliver d v).dbg = s.dbg := by unfold State.deliver; dsimp only; (repeat' split) <;> rfl
@[simp] theorem State.deliver_emc (d : Nat) (v : Nat) : (s.deliver d v).emc = s.emc := by unfold State.deliver; dsimp only; (repeat' split) <;> rfl
@[simp] theorem State.deliver_pow (d : Nat) (v : Nat) : (s.deliver d v).pow = s.pow := by unfold State.deliver; dsimp only; (repeat' split) <;> rfl
@[simp] theorem State.deliver_freshSaved (d : Nat) (v : Nat) : (s.deliver d v).freshSaved = s.freshSaved := by unfold State.deliver; dsimp only; (repeat' split) <;> rfl

@[simp] theorem State.notify_pending (p : Nat) : (s.notify p).pending = s.pending := by unfold State.notify; split <;> simp
@[simp] theorem State.notify_frc (p : Nat) : (s.notify p).frc = s.frc := by unfold State.notify; split <;> simp
@[simp] theorem State.notify_coarse (p : Nat) : (s.notify p).coarse = s.coarse := by unfold State.notify; split <;> simp
@[simp] theorem State.notify_draws (p : Nat) : (s.notify p).draws = s.draws := by unfold State.notify; split <;> simp
@[simp] theorem State.notify_boot (p : Nat) : (s.notify p).boot = s.boot := by unfold State.notify; split <;> simp
@[simp] theorem State.notify_pwr (p : Nat) : (s.notify p).pwr = s.pwr := by unfold State.notify; split <;> simp
@[simp] theorem State.notify_regs (p : Nat) : (s.notify p).regs = s.regs := by unfold State.notify; split <;> simp
@[simp] theorem State.notify_snap (p : Nat) : (s.notify p).snap = s.snap := by unfold State.notify; split <;> simp
@[simp] theorem State.notify_tabs (p : Nat) : (s.notify p).tabs = s.tabs := by unfold State.notify; split <;> simp
@[simp] theorem State.notify_mram (p : Nat) : (s.notify p).mram = s.mram := by unfold State.notify; split <;> simp
@[simp] theorem State.notify_dram (p : Nat) : (s.notify p).dram = s.dram := by unfold State.notify; split <;> simp
@[simp] theorem State.notify_wqs (p : Nat) : (s.notify p).wqs = s.wqs := by unfold State.notify; split <;> simp
@[simp] theorem State.notify_reports (p : Nat) : (s.notify p).reports = s.reports := by unfold State.notify; split <;> simp
@[simp] theorem State.notify_lostPages (p : Nat) : (s.notify p).lostPages = s.lostPages := by unfold State.notify; split <;> simp
@[simp] theorem State.notify_runs (p : Nat) : (s.notify p).runs = s.runs := by unfold State.notify; split <;> simp
@[simp] theorem State.notify_wins (p : Nat) : (s.notify p).wins = s.wins := by unfold State.notify; split <;> simp
@[simp] theorem State.notify_resets (p : Nat) : (s.notify p).resets = s.resets := by unfold State.notify; split <;> simp
@[simp] theorem State.notify_snaps (p : Nat) : (s.notify p).snaps = s.snaps := by unfold State.notify; split <;> simp
@[simp] theorem State.notify_cans (p : Nat) : (s.notify p).cans = s.cans := by unfold State.notify; split <;> simp
@[simp] theorem State.notify_lins (p : Nat) : (s.notify p).lins = s.lins := by unfold State.notify; split <;> simp
@[simp] theorem State.notify_sers (p : Nat) : (s.notify p).sers = s.sers := by unfold State.notify; split <;> simp
@[simp] theorem State.notify_srt (p : Nat) : (s.notify p).srt = s.srt := by unfold State.notify; split <;> simp
@[simp] theorem State.notify_swc (p : Nat) : (s.notify p).swc = s.swc := by unfold State.notify; split <;> simp
@[simp] theorem State.notify_egress (p : Nat) : (s.notify p).egress = s.egress := by unfold State.notify; split <;> simp
@[simp] theorem State.notify_eths (p : Nat) : (s.notify p).eths = s.eths := by unfold State.notify; split <;> simp
@[simp] theorem State.notify_pipes (p : Nat) : (s.notify p).pipes = s.pipes := by unfold State.notify; split <;> simp
@[simp] theorem State.notify_fdbs (p : Nat) : (s.notify p).fdbs = s.fdbs := by unfold State.notify; split <;> simp
@[simp] theorem State.notify_frer (p : Nat) : (s.notify p).frer = s.frer := by unfold State.notify; split <;> simp
@[simp] theorem State.notify_eccSeen (p : Nat) : (s.notify p).eccSeen = s.eccSeen := by unfold State.notify; split <;> simp
@[simp] theorem State.notify_logOvf (p : Nat) : (s.notify p).logOvf = s.logOvf := by unfold State.notify; split <;> simp
@[simp] theorem State.notify_wdogBase (p : Nat) : (s.notify p).wdogBase = s.wdogBase := by unfold State.notify; split <;> simp
@[simp] theorem State.notify_perst (p : Nat) : (s.notify p).perst = s.perst := by unfold State.notify; split <;> simp
@[simp] theorem State.notify_trn (p : Nat) : (s.notify p).trn = s.trn := by unfold State.notify; split <;> simp
@[simp] theorem State.notify_capGen (p : Nat) : (s.notify p).capGen = s.capGen := by unfold State.notify; split <;> simp
@[simp] theorem State.notify_lastSlot (p : Nat) : (s.notify p).lastSlot = s.lastSlot := by unfold State.notify; split <;> simp
@[simp] theorem State.notify_time (p : Nat) : (s.notify p).time = s.time := by unfold State.notify; split <;> simp
@[simp] theorem State.notify_clusters (p : Nat) : (s.notify p).clusters = s.clusters := by unfold State.notify; split <;> simp
@[simp] theorem State.notify_ldie (p : Nat) : (s.notify p).ldie = s.ldie := by unfold State.notify; split <;> simp
@[simp] theorem State.notify_keys (p : Nat) : (s.notify p).keys = s.keys := by unfold State.notify; split <;> simp
@[simp] theorem State.notify_otp (p : Nat) : (s.notify p).otp = s.otp := by unfold State.notify; split <;> simp
@[simp] theorem State.notify_dbg (p : Nat) : (s.notify p).dbg = s.dbg := by unfold State.notify; split <;> simp
@[simp] theorem State.notify_emc (p : Nat) : (s.notify p).emc = s.emc := by unfold State.notify; split <;> simp
@[simp] theorem State.notify_pow (p : Nat) : (s.notify p).pow = s.pow := by unfold State.notify; split <;> simp
@[simp] theorem State.notify_freshSaved (p : Nat) : (s.notify p).freshSaved = s.freshSaved := by unfold State.notify; split <;> simp

@[simp] theorem State.raise_pending (p : Nat) (b : Nat) : (s.raise p b).pending = s.pending := by simp [State.raise]
@[simp] theorem State.raise_frc (p : Nat) (b : Nat) : (s.raise p b).frc = s.frc := by simp [State.raise]
@[simp] theorem State.raise_coarse (p : Nat) (b : Nat) : (s.raise p b).coarse = s.coarse := by simp [State.raise]
@[simp] theorem State.raise_draws (p : Nat) (b : Nat) : (s.raise p b).draws = s.draws := by simp [State.raise]
@[simp] theorem State.raise_boot (p : Nat) (b : Nat) : (s.raise p b).boot = s.boot := by simp [State.raise]
@[simp] theorem State.raise_pwr (p : Nat) (b : Nat) : (s.raise p b).pwr = s.pwr := by simp [State.raise]
@[simp] theorem State.raise_snap (p : Nat) (b : Nat) : (s.raise p b).snap = s.snap := by simp [State.raise]
@[simp] theorem State.raise_tabs (p : Nat) (b : Nat) : (s.raise p b).tabs = s.tabs := by simp [State.raise]
@[simp] theorem State.raise_mram (p : Nat) (b : Nat) : (s.raise p b).mram = s.mram := by simp [State.raise]
@[simp] theorem State.raise_dram (p : Nat) (b : Nat) : (s.raise p b).dram = s.dram := by simp [State.raise]
@[simp] theorem State.raise_wqs (p : Nat) (b : Nat) : (s.raise p b).wqs = s.wqs := by simp [State.raise]
@[simp] theorem State.raise_reports (p : Nat) (b : Nat) : (s.raise p b).reports = s.reports := by simp [State.raise]
@[simp] theorem State.raise_lostPages (p : Nat) (b : Nat) : (s.raise p b).lostPages = s.lostPages := by simp [State.raise]
@[simp] theorem State.raise_runs (p : Nat) (b : Nat) : (s.raise p b).runs = s.runs := by simp [State.raise]
@[simp] theorem State.raise_wins (p : Nat) (b : Nat) : (s.raise p b).wins = s.wins := by simp [State.raise]
@[simp] theorem State.raise_resets (p : Nat) (b : Nat) : (s.raise p b).resets = s.resets := by simp [State.raise]
@[simp] theorem State.raise_snaps (p : Nat) (b : Nat) : (s.raise p b).snaps = s.snaps := by simp [State.raise]
@[simp] theorem State.raise_cans (p : Nat) (b : Nat) : (s.raise p b).cans = s.cans := by simp [State.raise]
@[simp] theorem State.raise_lins (p : Nat) (b : Nat) : (s.raise p b).lins = s.lins := by simp [State.raise]
@[simp] theorem State.raise_sers (p : Nat) (b : Nat) : (s.raise p b).sers = s.sers := by simp [State.raise]
@[simp] theorem State.raise_srt (p : Nat) (b : Nat) : (s.raise p b).srt = s.srt := by simp [State.raise]
@[simp] theorem State.raise_swc (p : Nat) (b : Nat) : (s.raise p b).swc = s.swc := by simp [State.raise]
@[simp] theorem State.raise_egress (p : Nat) (b : Nat) : (s.raise p b).egress = s.egress := by simp [State.raise]
@[simp] theorem State.raise_eths (p : Nat) (b : Nat) : (s.raise p b).eths = s.eths := by simp [State.raise]
@[simp] theorem State.raise_pipes (p : Nat) (b : Nat) : (s.raise p b).pipes = s.pipes := by simp [State.raise]
@[simp] theorem State.raise_fdbs (p : Nat) (b : Nat) : (s.raise p b).fdbs = s.fdbs := by simp [State.raise]
@[simp] theorem State.raise_frer (p : Nat) (b : Nat) : (s.raise p b).frer = s.frer := by simp [State.raise]
@[simp] theorem State.raise_eccSeen (p : Nat) (b : Nat) : (s.raise p b).eccSeen = s.eccSeen := by simp [State.raise]
@[simp] theorem State.raise_logOvf (p : Nat) (b : Nat) : (s.raise p b).logOvf = s.logOvf := by simp [State.raise]
@[simp] theorem State.raise_wdogBase (p : Nat) (b : Nat) : (s.raise p b).wdogBase = s.wdogBase := by simp [State.raise]
@[simp] theorem State.raise_perst (p : Nat) (b : Nat) : (s.raise p b).perst = s.perst := by simp [State.raise]
@[simp] theorem State.raise_trn (p : Nat) (b : Nat) : (s.raise p b).trn = s.trn := by simp [State.raise]
@[simp] theorem State.raise_capGen (p : Nat) (b : Nat) : (s.raise p b).capGen = s.capGen := by simp [State.raise]
@[simp] theorem State.raise_lastSlot (p : Nat) (b : Nat) : (s.raise p b).lastSlot = s.lastSlot := by simp [State.raise]
@[simp] theorem State.raise_time (p : Nat) (b : Nat) : (s.raise p b).time = s.time := by simp [State.raise]
@[simp] theorem State.raise_clusters (p : Nat) (b : Nat) : (s.raise p b).clusters = s.clusters := by simp [State.raise]
@[simp] theorem State.raise_ldie (p : Nat) (b : Nat) : (s.raise p b).ldie = s.ldie := by simp [State.raise]
@[simp] theorem State.raise_keys (p : Nat) (b : Nat) : (s.raise p b).keys = s.keys := by simp [State.raise]
@[simp] theorem State.raise_otp (p : Nat) (b : Nat) : (s.raise p b).otp = s.otp := by simp [State.raise]
@[simp] theorem State.raise_dbg (p : Nat) (b : Nat) : (s.raise p b).dbg = s.dbg := by simp [State.raise]
@[simp] theorem State.raise_emc (p : Nat) (b : Nat) : (s.raise p b).emc = s.emc := by simp [State.raise]
@[simp] theorem State.raise_pow (p : Nat) (b : Nat) : (s.raise p b).pow = s.pow := by simp [State.raise]
@[simp] theorem State.raise_freshSaved (p : Nat) (b : Nat) : (s.raise p b).freshSaved = s.freshSaved := by simp [State.raise]

@[simp] theorem State.latch_pending (r : Report) : (s.latch r).pending = s.pending := by unfold State.latch; split <;> simp
@[simp] theorem State.latch_frc (r : Report) : (s.latch r).frc = s.frc := by unfold State.latch; split <;> simp
@[simp] theorem State.latch_coarse (r : Report) : (s.latch r).coarse = s.coarse := by unfold State.latch; split <;> simp
@[simp] theorem State.latch_draws (r : Report) : (s.latch r).draws = s.draws := by unfold State.latch; split <;> simp
@[simp] theorem State.latch_boot (r : Report) : (s.latch r).boot = s.boot := by unfold State.latch; split <;> simp
@[simp] theorem State.latch_pwr (r : Report) : (s.latch r).pwr = s.pwr := by unfold State.latch; split <;> simp
@[simp] theorem State.latch_snap (r : Report) : (s.latch r).snap = s.snap := by unfold State.latch; split <;> simp
@[simp] theorem State.latch_tabs (r : Report) : (s.latch r).tabs = s.tabs := by unfold State.latch; split <;> simp
@[simp] theorem State.latch_mram (r : Report) : (s.latch r).mram = s.mram := by unfold State.latch; split <;> simp
@[simp] theorem State.latch_dram (r : Report) : (s.latch r).dram = s.dram := by unfold State.latch; split <;> simp
@[simp] theorem State.latch_wqs (r : Report) : (s.latch r).wqs = s.wqs := by unfold State.latch; split <;> simp
@[simp] theorem State.latch_reports (r : Report) : (s.latch r).reports = s.reports := by unfold State.latch; split <;> simp
@[simp] theorem State.latch_lostPages (r : Report) : (s.latch r).lostPages = s.lostPages := by unfold State.latch; split <;> simp
@[simp] theorem State.latch_runs (r : Report) : (s.latch r).runs = s.runs := by unfold State.latch; split <;> simp
@[simp] theorem State.latch_wins (r : Report) : (s.latch r).wins = s.wins := by unfold State.latch; split <;> simp
@[simp] theorem State.latch_resets (r : Report) : (s.latch r).resets = s.resets := by unfold State.latch; split <;> simp
@[simp] theorem State.latch_snaps (r : Report) : (s.latch r).snaps = s.snaps := by unfold State.latch; split <;> simp
@[simp] theorem State.latch_cans (r : Report) : (s.latch r).cans = s.cans := by unfold State.latch; split <;> simp
@[simp] theorem State.latch_lins (r : Report) : (s.latch r).lins = s.lins := by unfold State.latch; split <;> simp
@[simp] theorem State.latch_sers (r : Report) : (s.latch r).sers = s.sers := by unfold State.latch; split <;> simp
@[simp] theorem State.latch_srt (r : Report) : (s.latch r).srt = s.srt := by unfold State.latch; split <;> simp
@[simp] theorem State.latch_swc (r : Report) : (s.latch r).swc = s.swc := by unfold State.latch; split <;> simp
@[simp] theorem State.latch_egress (r : Report) : (s.latch r).egress = s.egress := by unfold State.latch; split <;> simp
@[simp] theorem State.latch_eths (r : Report) : (s.latch r).eths = s.eths := by unfold State.latch; split <;> simp
@[simp] theorem State.latch_pipes (r : Report) : (s.latch r).pipes = s.pipes := by unfold State.latch; split <;> simp
@[simp] theorem State.latch_fdbs (r : Report) : (s.latch r).fdbs = s.fdbs := by unfold State.latch; split <;> simp
@[simp] theorem State.latch_frer (r : Report) : (s.latch r).frer = s.frer := by unfold State.latch; split <;> simp
@[simp] theorem State.latch_eccSeen (r : Report) : (s.latch r).eccSeen = s.eccSeen := by unfold State.latch; split <;> simp
@[simp] theorem State.latch_logOvf (r : Report) : (s.latch r).logOvf = s.logOvf := by unfold State.latch; split <;> simp
@[simp] theorem State.latch_wdogBase (r : Report) : (s.latch r).wdogBase = s.wdogBase := by unfold State.latch; split <;> simp
@[simp] theorem State.latch_perst (r : Report) : (s.latch r).perst = s.perst := by unfold State.latch; split <;> simp
@[simp] theorem State.latch_trn (r : Report) : (s.latch r).trn = s.trn := by unfold State.latch; split <;> simp
@[simp] theorem State.latch_capGen (r : Report) : (s.latch r).capGen = s.capGen := by unfold State.latch; split <;> simp
@[simp] theorem State.latch_lastSlot (r : Report) : (s.latch r).lastSlot = s.lastSlot := by unfold State.latch; split <;> simp
@[simp] theorem State.latch_time (r : Report) : (s.latch r).time = s.time := by unfold State.latch; split <;> simp
@[simp] theorem State.latch_clusters (r : Report) : (s.latch r).clusters = s.clusters := by unfold State.latch; split <;> simp
@[simp] theorem State.latch_ldie (r : Report) : (s.latch r).ldie = s.ldie := by unfold State.latch; split <;> simp
@[simp] theorem State.latch_keys (r : Report) : (s.latch r).keys = s.keys := by unfold State.latch; split <;> simp
@[simp] theorem State.latch_otp (r : Report) : (s.latch r).otp = s.otp := by unfold State.latch; split <;> simp
@[simp] theorem State.latch_dbg (r : Report) : (s.latch r).dbg = s.dbg := by unfold State.latch; split <;> simp
@[simp] theorem State.latch_emc (r : Report) : (s.latch r).emc = s.emc := by unfold State.latch; split <;> simp
@[simp] theorem State.latch_pow (r : Report) : (s.latch r).pow = s.pow := by unfold State.latch; split <;> simp
@[simp] theorem State.latch_freshSaved (r : Report) : (s.latch r).freshSaved = s.freshSaved := by unfold State.latch; split <;> simp

@[simp] theorem State.pushReport_pending (r : Report) : (s.pushReport r).pending = s.pending := by unfold State.pushReport; split <;> rfl
@[simp] theorem State.pushReport_out (r : Report) : (s.pushReport r).out = s.out := by unfold State.pushReport; split <;> rfl
@[simp] theorem State.pushReport_frc (r : Report) : (s.pushReport r).frc = s.frc := by unfold State.pushReport; split <;> rfl
@[simp] theorem State.pushReport_coarse (r : Report) : (s.pushReport r).coarse = s.coarse := by unfold State.pushReport; split <;> rfl
@[simp] theorem State.pushReport_draws (r : Report) : (s.pushReport r).draws = s.draws := by unfold State.pushReport; split <;> rfl
@[simp] theorem State.pushReport_boot (r : Report) : (s.pushReport r).boot = s.boot := by unfold State.pushReport; split <;> rfl
@[simp] theorem State.pushReport_pwr (r : Report) : (s.pushReport r).pwr = s.pwr := by unfold State.pushReport; split <;> rfl
@[simp] theorem State.pushReport_regs (r : Report) : (s.pushReport r).regs = s.regs := by unfold State.pushReport; split <;> rfl
@[simp] theorem State.pushReport_snap (r : Report) : (s.pushReport r).snap = s.snap := by unfold State.pushReport; split <;> rfl
@[simp] theorem State.pushReport_tabs (r : Report) : (s.pushReport r).tabs = s.tabs := by unfold State.pushReport; split <;> rfl
@[simp] theorem State.pushReport_mram (r : Report) : (s.pushReport r).mram = s.mram := by unfold State.pushReport; split <;> rfl
@[simp] theorem State.pushReport_dram (r : Report) : (s.pushReport r).dram = s.dram := by unfold State.pushReport; split <;> rfl
@[simp] theorem State.pushReport_wqs (r : Report) : (s.pushReport r).wqs = s.wqs := by unfold State.pushReport; split <;> rfl
@[simp] theorem State.pushReport_runs (r : Report) : (s.pushReport r).runs = s.runs := by unfold State.pushReport; split <;> rfl
@[simp] theorem State.pushReport_wins (r : Report) : (s.pushReport r).wins = s.wins := by unfold State.pushReport; split <;> rfl
@[simp] theorem State.pushReport_resets (r : Report) : (s.pushReport r).resets = s.resets := by unfold State.pushReport; split <;> rfl
@[simp] theorem State.pushReport_snaps (r : Report) : (s.pushReport r).snaps = s.snaps := by unfold State.pushReport; split <;> rfl
@[simp] theorem State.pushReport_doms (r : Report) : (s.pushReport r).doms = s.doms := by unfold State.pushReport; split <;> rfl
@[simp] theorem State.pushReport_cans (r : Report) : (s.pushReport r).cans = s.cans := by unfold State.pushReport; split <;> rfl
@[simp] theorem State.pushReport_lins (r : Report) : (s.pushReport r).lins = s.lins := by unfold State.pushReport; split <;> rfl
@[simp] theorem State.pushReport_sers (r : Report) : (s.pushReport r).sers = s.sers := by unfold State.pushReport; split <;> rfl
@[simp] theorem State.pushReport_srt (r : Report) : (s.pushReport r).srt = s.srt := by unfold State.pushReport; split <;> rfl
@[simp] theorem State.pushReport_swc (r : Report) : (s.pushReport r).swc = s.swc := by unfold State.pushReport; split <;> rfl
@[simp] theorem State.pushReport_egress (r : Report) : (s.pushReport r).egress = s.egress := by unfold State.pushReport; split <;> rfl
@[simp] theorem State.pushReport_eths (r : Report) : (s.pushReport r).eths = s.eths := by unfold State.pushReport; split <;> rfl
@[simp] theorem State.pushReport_pipes (r : Report) : (s.pushReport r).pipes = s.pipes := by unfold State.pushReport; split <;> rfl
@[simp] theorem State.pushReport_fdbs (r : Report) : (s.pushReport r).fdbs = s.fdbs := by unfold State.pushReport; split <;> rfl
@[simp] theorem State.pushReport_frer (r : Report) : (s.pushReport r).frer = s.frer := by unfold State.pushReport; split <;> rfl
@[simp] theorem State.pushReport_eccSeen (r : Report) : (s.pushReport r).eccSeen = s.eccSeen := by unfold State.pushReport; split <;> rfl
@[simp] theorem State.pushReport_logOvf (r : Report) : (s.pushReport r).logOvf = s.logOvf := by unfold State.pushReport; split <;> rfl
@[simp] theorem State.pushReport_wdogBase (r : Report) : (s.pushReport r).wdogBase = s.wdogBase := by unfold State.pushReport; split <;> rfl
@[simp] theorem State.pushReport_perst (r : Report) : (s.pushReport r).perst = s.perst := by unfold State.pushReport; split <;> rfl
@[simp] theorem State.pushReport_trn (r : Report) : (s.pushReport r).trn = s.trn := by unfold State.pushReport; split <;> rfl
@[simp] theorem State.pushReport_capGen (r : Report) : (s.pushReport r).capGen = s.capGen := by unfold State.pushReport; split <;> rfl
@[simp] theorem State.pushReport_lastSlot (r : Report) : (s.pushReport r).lastSlot = s.lastSlot := by unfold State.pushReport; split <;> rfl
@[simp] theorem State.pushReport_time (r : Report) : (s.pushReport r).time = s.time := by unfold State.pushReport; split <;> rfl
@[simp] theorem State.pushReport_clusters (r : Report) : (s.pushReport r).clusters = s.clusters := by unfold State.pushReport; split <;> rfl
@[simp] theorem State.pushReport_ldie (r : Report) : (s.pushReport r).ldie = s.ldie := by unfold State.pushReport; split <;> rfl
@[simp] theorem State.pushReport_keys (r : Report) : (s.pushReport r).keys = s.keys := by unfold State.pushReport; split <;> rfl
@[simp] theorem State.pushReport_otp (r : Report) : (s.pushReport r).otp = s.otp := by unfold State.pushReport; split <;> rfl
@[simp] theorem State.pushReport_dbg (r : Report) : (s.pushReport r).dbg = s.dbg := by unfold State.pushReport; split <;> rfl
@[simp] theorem State.pushReport_emc (r : Report) : (s.pushReport r).emc = s.emc := by unfold State.pushReport; split <;> rfl
@[simp] theorem State.pushReport_pow (r : Report) : (s.pushReport r).pow = s.pow := by unfold State.pushReport; split <;> rfl
@[simp] theorem State.pushReport_freshSaved (r : Report) : (s.pushReport r).freshSaved = s.freshSaved := by unfold State.pushReport; split <;> rfl

@[simp] theorem State.report_pending (r : Report) : (s.report r).pending = s.pending := by simp [State.report]
@[simp] theorem State.report_frc (r : Report) : (s.report r).frc = s.frc := by simp [State.report]
@[simp] theorem State.report_coarse (r : Report) : (s.report r).coarse = s.coarse := by simp [State.report]
@[simp] theorem State.report_draws (r : Report) : (s.report r).draws = s.draws := by simp [State.report]
@[simp] theorem State.report_boot (r : Report) : (s.report r).boot = s.boot := by simp [State.report]
@[simp] theorem State.report_pwr (r : Report) : (s.report r).pwr = s.pwr := by simp [State.report]
@[simp] theorem State.report_snap (r : Report) : (s.report r).snap = s.snap := by simp [State.report]
@[simp] theorem State.report_tabs (r : Report) : (s.report r).tabs = s.tabs := by simp [State.report]
@[simp] theorem State.report_mram (r : Report) : (s.report r).mram = s.mram := by simp [State.report]
@[simp] theorem State.report_dram (r : Report) : (s.report r).dram = s.dram := by simp [State.report]
@[simp] theorem State.report_wqs (r : Report) : (s.report r).wqs = s.wqs := by simp [State.report]
@[simp] theorem State.report_runs (r : Report) : (s.report r).runs = s.runs := by simp [State.report]
@[simp] theorem State.report_wins (r : Report) : (s.report r).wins = s.wins := by simp [State.report]
@[simp] theorem State.report_resets (r : Report) : (s.report r).resets = s.resets := by simp [State.report]
@[simp] theorem State.report_snaps (r : Report) : (s.report r).snaps = s.snaps := by simp [State.report]
@[simp] theorem State.report_cans (r : Report) : (s.report r).cans = s.cans := by simp [State.report]
@[simp] theorem State.report_lins (r : Report) : (s.report r).lins = s.lins := by simp [State.report]
@[simp] theorem State.report_sers (r : Report) : (s.report r).sers = s.sers := by simp [State.report]
@[simp] theorem State.report_srt (r : Report) : (s.report r).srt = s.srt := by simp [State.report]
@[simp] theorem State.report_swc (r : Report) : (s.report r).swc = s.swc := by simp [State.report]
@[simp] theorem State.report_egress (r : Report) : (s.report r).egress = s.egress := by simp [State.report]
@[simp] theorem State.report_eths (r : Report) : (s.report r).eths = s.eths := by simp [State.report]
@[simp] theorem State.report_pipes (r : Report) : (s.report r).pipes = s.pipes := by simp [State.report]
@[simp] theorem State.report_fdbs (r : Report) : (s.report r).fdbs = s.fdbs := by simp [State.report]
@[simp] theorem State.report_frer (r : Report) : (s.report r).frer = s.frer := by simp [State.report]
@[simp] theorem State.report_eccSeen (r : Report) : (s.report r).eccSeen = s.eccSeen := by simp [State.report]
@[simp] theorem State.report_logOvf (r : Report) : (s.report r).logOvf = s.logOvf := by simp [State.report]
@[simp] theorem State.report_wdogBase (r : Report) : (s.report r).wdogBase = s.wdogBase := by simp [State.report]
@[simp] theorem State.report_perst (r : Report) : (s.report r).perst = s.perst := by simp [State.report]
@[simp] theorem State.report_trn (r : Report) : (s.report r).trn = s.trn := by simp [State.report]
@[simp] theorem State.report_capGen (r : Report) : (s.report r).capGen = s.capGen := by simp [State.report]
@[simp] theorem State.report_lastSlot (r : Report) : (s.report r).lastSlot = s.lastSlot := by simp [State.report]
@[simp] theorem State.report_time (r : Report) : (s.report r).time = s.time := by simp [State.report]
@[simp] theorem State.report_clusters (r : Report) : (s.report r).clusters = s.clusters := by simp [State.report]
@[simp] theorem State.report_ldie (r : Report) : (s.report r).ldie = s.ldie := by simp [State.report]
@[simp] theorem State.report_keys (r : Report) : (s.report r).keys = s.keys := by simp [State.report]
@[simp] theorem State.report_otp (r : Report) : (s.report r).otp = s.otp := by simp [State.report]
@[simp] theorem State.report_dbg (r : Report) : (s.report r).dbg = s.dbg := by simp [State.report]
@[simp] theorem State.report_emc (r : Report) : (s.report r).emc = s.emc := by simp [State.report]
@[simp] theorem State.report_pow (r : Report) : (s.report r).pow = s.pow := by simp [State.report]
@[simp] theorem State.report_freshSaved (r : Report) : (s.report r).freshSaved = s.freshSaved := by simp [State.report]

@[simp] theorem State.errBy_pending (src : Nat) (p : Nat) (code : Nat) (a0 : Nat) (a1 : Nat) : (s.errBy src p code a0 a1).pending = s.pending := by simp [State.errBy]
@[simp] theorem State.errBy_frc (src : Nat) (p : Nat) (code : Nat) (a0 : Nat) (a1 : Nat) : (s.errBy src p code a0 a1).frc = s.frc := by simp [State.errBy]
@[simp] theorem State.errBy_coarse (src : Nat) (p : Nat) (code : Nat) (a0 : Nat) (a1 : Nat) : (s.errBy src p code a0 a1).coarse = s.coarse := by simp [State.errBy]
@[simp] theorem State.errBy_draws (src : Nat) (p : Nat) (code : Nat) (a0 : Nat) (a1 : Nat) : (s.errBy src p code a0 a1).draws = s.draws := by simp [State.errBy]
@[simp] theorem State.errBy_boot (src : Nat) (p : Nat) (code : Nat) (a0 : Nat) (a1 : Nat) : (s.errBy src p code a0 a1).boot = s.boot := by simp [State.errBy]
@[simp] theorem State.errBy_pwr (src : Nat) (p : Nat) (code : Nat) (a0 : Nat) (a1 : Nat) : (s.errBy src p code a0 a1).pwr = s.pwr := by simp [State.errBy]
@[simp] theorem State.errBy_snap (src : Nat) (p : Nat) (code : Nat) (a0 : Nat) (a1 : Nat) : (s.errBy src p code a0 a1).snap = s.snap := by simp [State.errBy]
@[simp] theorem State.errBy_tabs (src : Nat) (p : Nat) (code : Nat) (a0 : Nat) (a1 : Nat) : (s.errBy src p code a0 a1).tabs = s.tabs := by simp [State.errBy]
@[simp] theorem State.errBy_mram (src : Nat) (p : Nat) (code : Nat) (a0 : Nat) (a1 : Nat) : (s.errBy src p code a0 a1).mram = s.mram := by simp [State.errBy]
@[simp] theorem State.errBy_dram (src : Nat) (p : Nat) (code : Nat) (a0 : Nat) (a1 : Nat) : (s.errBy src p code a0 a1).dram = s.dram := by simp [State.errBy]
@[simp] theorem State.errBy_wqs (src : Nat) (p : Nat) (code : Nat) (a0 : Nat) (a1 : Nat) : (s.errBy src p code a0 a1).wqs = s.wqs := by simp [State.errBy]
@[simp] theorem State.errBy_runs (src : Nat) (p : Nat) (code : Nat) (a0 : Nat) (a1 : Nat) : (s.errBy src p code a0 a1).runs = s.runs := by simp [State.errBy]
@[simp] theorem State.errBy_wins (src : Nat) (p : Nat) (code : Nat) (a0 : Nat) (a1 : Nat) : (s.errBy src p code a0 a1).wins = s.wins := by simp [State.errBy]
@[simp] theorem State.errBy_resets (src : Nat) (p : Nat) (code : Nat) (a0 : Nat) (a1 : Nat) : (s.errBy src p code a0 a1).resets = s.resets := by simp [State.errBy]
@[simp] theorem State.errBy_snaps (src : Nat) (p : Nat) (code : Nat) (a0 : Nat) (a1 : Nat) : (s.errBy src p code a0 a1).snaps = s.snaps := by simp [State.errBy]
@[simp] theorem State.errBy_cans (src : Nat) (p : Nat) (code : Nat) (a0 : Nat) (a1 : Nat) : (s.errBy src p code a0 a1).cans = s.cans := by simp [State.errBy]
@[simp] theorem State.errBy_lins (src : Nat) (p : Nat) (code : Nat) (a0 : Nat) (a1 : Nat) : (s.errBy src p code a0 a1).lins = s.lins := by simp [State.errBy]
@[simp] theorem State.errBy_sers (src : Nat) (p : Nat) (code : Nat) (a0 : Nat) (a1 : Nat) : (s.errBy src p code a0 a1).sers = s.sers := by simp [State.errBy]
@[simp] theorem State.errBy_srt (src : Nat) (p : Nat) (code : Nat) (a0 : Nat) (a1 : Nat) : (s.errBy src p code a0 a1).srt = s.srt := by simp [State.errBy]
@[simp] theorem State.errBy_swc (src : Nat) (p : Nat) (code : Nat) (a0 : Nat) (a1 : Nat) : (s.errBy src p code a0 a1).swc = s.swc := by simp [State.errBy]
@[simp] theorem State.errBy_egress (src : Nat) (p : Nat) (code : Nat) (a0 : Nat) (a1 : Nat) : (s.errBy src p code a0 a1).egress = s.egress := by simp [State.errBy]
@[simp] theorem State.errBy_eths (src : Nat) (p : Nat) (code : Nat) (a0 : Nat) (a1 : Nat) : (s.errBy src p code a0 a1).eths = s.eths := by simp [State.errBy]
@[simp] theorem State.errBy_pipes (src : Nat) (p : Nat) (code : Nat) (a0 : Nat) (a1 : Nat) : (s.errBy src p code a0 a1).pipes = s.pipes := by simp [State.errBy]
@[simp] theorem State.errBy_fdbs (src : Nat) (p : Nat) (code : Nat) (a0 : Nat) (a1 : Nat) : (s.errBy src p code a0 a1).fdbs = s.fdbs := by simp [State.errBy]
@[simp] theorem State.errBy_frer (src : Nat) (p : Nat) (code : Nat) (a0 : Nat) (a1 : Nat) : (s.errBy src p code a0 a1).frer = s.frer := by simp [State.errBy]
@[simp] theorem State.errBy_eccSeen (src : Nat) (p : Nat) (code : Nat) (a0 : Nat) (a1 : Nat) : (s.errBy src p code a0 a1).eccSeen = s.eccSeen := by simp [State.errBy]
@[simp] theorem State.errBy_logOvf (src : Nat) (p : Nat) (code : Nat) (a0 : Nat) (a1 : Nat) : (s.errBy src p code a0 a1).logOvf = s.logOvf := by simp [State.errBy]
@[simp] theorem State.errBy_wdogBase (src : Nat) (p : Nat) (code : Nat) (a0 : Nat) (a1 : Nat) : (s.errBy src p code a0 a1).wdogBase = s.wdogBase := by simp [State.errBy]
@[simp] theorem State.errBy_perst (src : Nat) (p : Nat) (code : Nat) (a0 : Nat) (a1 : Nat) : (s.errBy src p code a0 a1).perst = s.perst := by simp [State.errBy]
@[simp] theorem State.errBy_trn (src : Nat) (p : Nat) (code : Nat) (a0 : Nat) (a1 : Nat) : (s.errBy src p code a0 a1).trn = s.trn := by simp [State.errBy]
@[simp] theorem State.errBy_capGen (src : Nat) (p : Nat) (code : Nat) (a0 : Nat) (a1 : Nat) : (s.errBy src p code a0 a1).capGen = s.capGen := by simp [State.errBy]
@[simp] theorem State.errBy_lastSlot (src : Nat) (p : Nat) (code : Nat) (a0 : Nat) (a1 : Nat) : (s.errBy src p code a0 a1).lastSlot = s.lastSlot := by simp [State.errBy]
@[simp] theorem State.errBy_time (src : Nat) (p : Nat) (code : Nat) (a0 : Nat) (a1 : Nat) : (s.errBy src p code a0 a1).time = s.time := by simp [State.errBy]
@[simp] theorem State.errBy_clusters (src : Nat) (p : Nat) (code : Nat) (a0 : Nat) (a1 : Nat) : (s.errBy src p code a0 a1).clusters = s.clusters := by simp [State.errBy]
@[simp] theorem State.errBy_ldie (src : Nat) (p : Nat) (code : Nat) (a0 : Nat) (a1 : Nat) : (s.errBy src p code a0 a1).ldie = s.ldie := by simp [State.errBy]
@[simp] theorem State.errBy_keys (src : Nat) (p : Nat) (code : Nat) (a0 : Nat) (a1 : Nat) : (s.errBy src p code a0 a1).keys = s.keys := by simp [State.errBy]
@[simp] theorem State.errBy_otp (src : Nat) (p : Nat) (code : Nat) (a0 : Nat) (a1 : Nat) : (s.errBy src p code a0 a1).otp = s.otp := by simp [State.errBy]
@[simp] theorem State.errBy_dbg (src : Nat) (p : Nat) (code : Nat) (a0 : Nat) (a1 : Nat) : (s.errBy src p code a0 a1).dbg = s.dbg := by simp [State.errBy]
@[simp] theorem State.errBy_emc (src : Nat) (p : Nat) (code : Nat) (a0 : Nat) (a1 : Nat) : (s.errBy src p code a0 a1).emc = s.emc := by simp [State.errBy]
@[simp] theorem State.errBy_pow (src : Nat) (p : Nat) (code : Nat) (a0 : Nat) (a1 : Nat) : (s.errBy src p code a0 a1).pow = s.pow := by simp [State.errBy]
@[simp] theorem State.errBy_freshSaved (src : Nat) (p : Nat) (code : Nat) (a0 : Nat) (a1 : Nat) : (s.errBy src p code a0 a1).freshSaved = s.freshSaved := by simp [State.errBy]

@[simp] theorem State.err_pending (p : Nat) (code : Nat) (a0 : Nat) : (s.err p code a0).pending = s.pending := by simp [State.err]
@[simp] theorem State.err_frc (p : Nat) (code : Nat) (a0 : Nat) : (s.err p code a0).frc = s.frc := by simp [State.err]
@[simp] theorem State.err_coarse (p : Nat) (code : Nat) (a0 : Nat) : (s.err p code a0).coarse = s.coarse := by simp [State.err]
@[simp] theorem State.err_draws (p : Nat) (code : Nat) (a0 : Nat) : (s.err p code a0).draws = s.draws := by simp [State.err]
@[simp] theorem State.err_boot (p : Nat) (code : Nat) (a0 : Nat) : (s.err p code a0).boot = s.boot := by simp [State.err]
@[simp] theorem State.err_pwr (p : Nat) (code : Nat) (a0 : Nat) : (s.err p code a0).pwr = s.pwr := by simp [State.err]
@[simp] theorem State.err_snap (p : Nat) (code : Nat) (a0 : Nat) : (s.err p code a0).snap = s.snap := by simp [State.err]
@[simp] theorem State.err_tabs (p : Nat) (code : Nat) (a0 : Nat) : (s.err p code a0).tabs = s.tabs := by simp [State.err]
@[simp] theorem State.err_mram (p : Nat) (code : Nat) (a0 : Nat) : (s.err p code a0).mram = s.mram := by simp [State.err]
@[simp] theorem State.err_dram (p : Nat) (code : Nat) (a0 : Nat) : (s.err p code a0).dram = s.dram := by simp [State.err]
@[simp] theorem State.err_wqs (p : Nat) (code : Nat) (a0 : Nat) : (s.err p code a0).wqs = s.wqs := by simp [State.err]
@[simp] theorem State.err_runs (p : Nat) (code : Nat) (a0 : Nat) : (s.err p code a0).runs = s.runs := by simp [State.err]
@[simp] theorem State.err_wins (p : Nat) (code : Nat) (a0 : Nat) : (s.err p code a0).wins = s.wins := by simp [State.err]
@[simp] theorem State.err_resets (p : Nat) (code : Nat) (a0 : Nat) : (s.err p code a0).resets = s.resets := by simp [State.err]
@[simp] theorem State.err_snaps (p : Nat) (code : Nat) (a0 : Nat) : (s.err p code a0).snaps = s.snaps := by simp [State.err]
@[simp] theorem State.err_cans (p : Nat) (code : Nat) (a0 : Nat) : (s.err p code a0).cans = s.cans := by simp [State.err]
@[simp] theorem State.err_lins (p : Nat) (code : Nat) (a0 : Nat) : (s.err p code a0).lins = s.lins := by simp [State.err]
@[simp] theorem State.err_sers (p : Nat) (code : Nat) (a0 : Nat) : (s.err p code a0).sers = s.sers := by simp [State.err]
@[simp] theorem State.err_srt (p : Nat) (code : Nat) (a0 : Nat) : (s.err p code a0).srt = s.srt := by simp [State.err]
@[simp] theorem State.err_swc (p : Nat) (code : Nat) (a0 : Nat) : (s.err p code a0).swc = s.swc := by simp [State.err]
@[simp] theorem State.err_egress (p : Nat) (code : Nat) (a0 : Nat) : (s.err p code a0).egress = s.egress := by simp [State.err]
@[simp] theorem State.err_eths (p : Nat) (code : Nat) (a0 : Nat) : (s.err p code a0).eths = s.eths := by simp [State.err]
@[simp] theorem State.err_pipes (p : Nat) (code : Nat) (a0 : Nat) : (s.err p code a0).pipes = s.pipes := by simp [State.err]
@[simp] theorem State.err_fdbs (p : Nat) (code : Nat) (a0 : Nat) : (s.err p code a0).fdbs = s.fdbs := by simp [State.err]
@[simp] theorem State.err_frer (p : Nat) (code : Nat) (a0 : Nat) : (s.err p code a0).frer = s.frer := by simp [State.err]
@[simp] theorem State.err_eccSeen (p : Nat) (code : Nat) (a0 : Nat) : (s.err p code a0).eccSeen = s.eccSeen := by simp [State.err]
@[simp] theorem State.err_logOvf (p : Nat) (code : Nat) (a0 : Nat) : (s.err p code a0).logOvf = s.logOvf := by simp [State.err]
@[simp] theorem State.err_wdogBase (p : Nat) (code : Nat) (a0 : Nat) : (s.err p code a0).wdogBase = s.wdogBase := by simp [State.err]
@[simp] theorem State.err_perst (p : Nat) (code : Nat) (a0 : Nat) : (s.err p code a0).perst = s.perst := by simp [State.err]
@[simp] theorem State.err_trn (p : Nat) (code : Nat) (a0 : Nat) : (s.err p code a0).trn = s.trn := by simp [State.err]
@[simp] theorem State.err_capGen (p : Nat) (code : Nat) (a0 : Nat) : (s.err p code a0).capGen = s.capGen := by simp [State.err]
@[simp] theorem State.err_lastSlot (p : Nat) (code : Nat) (a0 : Nat) : (s.err p code a0).lastSlot = s.lastSlot := by simp [State.err]
@[simp] theorem State.err_time (p : Nat) (code : Nat) (a0 : Nat) : (s.err p code a0).time = s.time := by simp [State.err]
@[simp] theorem State.err_clusters (p : Nat) (code : Nat) (a0 : Nat) : (s.err p code a0).clusters = s.clusters := by simp [State.err]
@[simp] theorem State.err_ldie (p : Nat) (code : Nat) (a0 : Nat) : (s.err p code a0).ldie = s.ldie := by simp [State.err]
@[simp] theorem State.err_keys (p : Nat) (code : Nat) (a0 : Nat) : (s.err p code a0).keys = s.keys := by simp [State.err]
@[simp] theorem State.err_otp (p : Nat) (code : Nat) (a0 : Nat) : (s.err p code a0).otp = s.otp := by simp [State.err]
@[simp] theorem State.err_dbg (p : Nat) (code : Nat) (a0 : Nat) : (s.err p code a0).dbg = s.dbg := by simp [State.err]
@[simp] theorem State.err_emc (p : Nat) (code : Nat) (a0 : Nat) : (s.err p code a0).emc = s.emc := by simp [State.err]
@[simp] theorem State.err_pow (p : Nat) (code : Nat) (a0 : Nat) : (s.err p code a0).pow = s.pow := by simp [State.err]
@[simp] theorem State.err_freshSaved (p : Nat) (code : Nat) (a0 : Nat) : (s.err p code a0).freshSaved = s.freshSaved := by simp [State.err]

@[simp] theorem State.errAt_pending (p : Nat) (code : Nat) (a0 : Nat) (a1 : Nat) (t : Nat) : (s.errAt p code a0 a1 t).pending = s.pending := by simp [State.errAt]
@[simp] theorem State.errAt_frc (p : Nat) (code : Nat) (a0 : Nat) (a1 : Nat) (t : Nat) : (s.errAt p code a0 a1 t).frc = s.frc := by simp [State.errAt]
@[simp] theorem State.errAt_coarse (p : Nat) (code : Nat) (a0 : Nat) (a1 : Nat) (t : Nat) : (s.errAt p code a0 a1 t).coarse = s.coarse := by simp [State.errAt]
@[simp] theorem State.errAt_draws (p : Nat) (code : Nat) (a0 : Nat) (a1 : Nat) (t : Nat) : (s.errAt p code a0 a1 t).draws = s.draws := by simp [State.errAt]
@[simp] theorem State.errAt_boot (p : Nat) (code : Nat) (a0 : Nat) (a1 : Nat) (t : Nat) : (s.errAt p code a0 a1 t).boot = s.boot := by simp [State.errAt]
@[simp] theorem State.errAt_pwr (p : Nat) (code : Nat) (a0 : Nat) (a1 : Nat) (t : Nat) : (s.errAt p code a0 a1 t).pwr = s.pwr := by simp [State.errAt]
@[simp] theorem State.errAt_snap (p : Nat) (code : Nat) (a0 : Nat) (a1 : Nat) (t : Nat) : (s.errAt p code a0 a1 t).snap = s.snap := by simp [State.errAt]
@[simp] theorem State.errAt_tabs (p : Nat) (code : Nat) (a0 : Nat) (a1 : Nat) (t : Nat) : (s.errAt p code a0 a1 t).tabs = s.tabs := by simp [State.errAt]
@[simp] theorem State.errAt_mram (p : Nat) (code : Nat) (a0 : Nat) (a1 : Nat) (t : Nat) : (s.errAt p code a0 a1 t).mram = s.mram := by simp [State.errAt]
@[simp] theorem State.errAt_dram (p : Nat) (code : Nat) (a0 : Nat) (a1 : Nat) (t : Nat) : (s.errAt p code a0 a1 t).dram = s.dram := by simp [State.errAt]
@[simp] theorem State.errAt_wqs (p : Nat) (code : Nat) (a0 : Nat) (a1 : Nat) (t : Nat) : (s.errAt p code a0 a1 t).wqs = s.wqs := by simp [State.errAt]
@[simp] theorem State.errAt_runs (p : Nat) (code : Nat) (a0 : Nat) (a1 : Nat) (t : Nat) : (s.errAt p code a0 a1 t).runs = s.runs := by simp [State.errAt]
@[simp] theorem State.errAt_wins (p : Nat) (code : Nat) (a0 : Nat) (a1 : Nat) (t : Nat) : (s.errAt p code a0 a1 t).wins = s.wins := by simp [State.errAt]
@[simp] theorem State.errAt_resets (p : Nat) (code : Nat) (a0 : Nat) (a1 : Nat) (t : Nat) : (s.errAt p code a0 a1 t).resets = s.resets := by simp [State.errAt]
@[simp] theorem State.errAt_snaps (p : Nat) (code : Nat) (a0 : Nat) (a1 : Nat) (t : Nat) : (s.errAt p code a0 a1 t).snaps = s.snaps := by simp [State.errAt]
@[simp] theorem State.errAt_cans (p : Nat) (code : Nat) (a0 : Nat) (a1 : Nat) (t : Nat) : (s.errAt p code a0 a1 t).cans = s.cans := by simp [State.errAt]
@[simp] theorem State.errAt_lins (p : Nat) (code : Nat) (a0 : Nat) (a1 : Nat) (t : Nat) : (s.errAt p code a0 a1 t).lins = s.lins := by simp [State.errAt]
@[simp] theorem State.errAt_sers (p : Nat) (code : Nat) (a0 : Nat) (a1 : Nat) (t : Nat) : (s.errAt p code a0 a1 t).sers = s.sers := by simp [State.errAt]
@[simp] theorem State.errAt_srt (p : Nat) (code : Nat) (a0 : Nat) (a1 : Nat) (t : Nat) : (s.errAt p code a0 a1 t).srt = s.srt := by simp [State.errAt]
@[simp] theorem State.errAt_swc (p : Nat) (code : Nat) (a0 : Nat) (a1 : Nat) (t : Nat) : (s.errAt p code a0 a1 t).swc = s.swc := by simp [State.errAt]
@[simp] theorem State.errAt_egress (p : Nat) (code : Nat) (a0 : Nat) (a1 : Nat) (t : Nat) : (s.errAt p code a0 a1 t).egress = s.egress := by simp [State.errAt]
@[simp] theorem State.errAt_eths (p : Nat) (code : Nat) (a0 : Nat) (a1 : Nat) (t : Nat) : (s.errAt p code a0 a1 t).eths = s.eths := by simp [State.errAt]
@[simp] theorem State.errAt_pipes (p : Nat) (code : Nat) (a0 : Nat) (a1 : Nat) (t : Nat) : (s.errAt p code a0 a1 t).pipes = s.pipes := by simp [State.errAt]
@[simp] theorem State.errAt_fdbs (p : Nat) (code : Nat) (a0 : Nat) (a1 : Nat) (t : Nat) : (s.errAt p code a0 a1 t).fdbs = s.fdbs := by simp [State.errAt]
@[simp] theorem State.errAt_frer (p : Nat) (code : Nat) (a0 : Nat) (a1 : Nat) (t : Nat) : (s.errAt p code a0 a1 t).frer = s.frer := by simp [State.errAt]
@[simp] theorem State.errAt_eccSeen (p : Nat) (code : Nat) (a0 : Nat) (a1 : Nat) (t : Nat) : (s.errAt p code a0 a1 t).eccSeen = s.eccSeen := by simp [State.errAt]
@[simp] theorem State.errAt_logOvf (p : Nat) (code : Nat) (a0 : Nat) (a1 : Nat) (t : Nat) : (s.errAt p code a0 a1 t).logOvf = s.logOvf := by simp [State.errAt]
@[simp] theorem State.errAt_wdogBase (p : Nat) (code : Nat) (a0 : Nat) (a1 : Nat) (t : Nat) : (s.errAt p code a0 a1 t).wdogBase = s.wdogBase := by simp [State.errAt]
@[simp] theorem State.errAt_perst (p : Nat) (code : Nat) (a0 : Nat) (a1 : Nat) (t : Nat) : (s.errAt p code a0 a1 t).perst = s.perst := by simp [State.errAt]
@[simp] theorem State.errAt_trn (p : Nat) (code : Nat) (a0 : Nat) (a1 : Nat) (t : Nat) : (s.errAt p code a0 a1 t).trn = s.trn := by simp [State.errAt]
@[simp] theorem State.errAt_capGen (p : Nat) (code : Nat) (a0 : Nat) (a1 : Nat) (t : Nat) : (s.errAt p code a0 a1 t).capGen = s.capGen := by simp [State.errAt]
@[simp] theorem State.errAt_lastSlot (p : Nat) (code : Nat) (a0 : Nat) (a1 : Nat) (t : Nat) : (s.errAt p code a0 a1 t).lastSlot = s.lastSlot := by simp [State.errAt]
@[simp] theorem State.errAt_time (p : Nat) (code : Nat) (a0 : Nat) (a1 : Nat) (t : Nat) : (s.errAt p code a0 a1 t).time = s.time := by simp [State.errAt]
@[simp] theorem State.errAt_clusters (p : Nat) (code : Nat) (a0 : Nat) (a1 : Nat) (t : Nat) : (s.errAt p code a0 a1 t).clusters = s.clusters := by simp [State.errAt]
@[simp] theorem State.errAt_ldie (p : Nat) (code : Nat) (a0 : Nat) (a1 : Nat) (t : Nat) : (s.errAt p code a0 a1 t).ldie = s.ldie := by simp [State.errAt]
@[simp] theorem State.errAt_keys (p : Nat) (code : Nat) (a0 : Nat) (a1 : Nat) (t : Nat) : (s.errAt p code a0 a1 t).keys = s.keys := by simp [State.errAt]
@[simp] theorem State.errAt_otp (p : Nat) (code : Nat) (a0 : Nat) (a1 : Nat) (t : Nat) : (s.errAt p code a0 a1 t).otp = s.otp := by simp [State.errAt]
@[simp] theorem State.errAt_dbg (p : Nat) (code : Nat) (a0 : Nat) (a1 : Nat) (t : Nat) : (s.errAt p code a0 a1 t).dbg = s.dbg := by simp [State.errAt]
@[simp] theorem State.errAt_emc (p : Nat) (code : Nat) (a0 : Nat) (a1 : Nat) (t : Nat) : (s.errAt p code a0 a1 t).emc = s.emc := by simp [State.errAt]
@[simp] theorem State.errAt_pow (p : Nat) (code : Nat) (a0 : Nat) (a1 : Nat) (t : Nat) : (s.errAt p code a0 a1 t).pow = s.pow := by simp [State.errAt]
@[simp] theorem State.errAt_freshSaved (p : Nat) (code : Nat) (a0 : Nat) (a1 : Nat) (t : Nat) : (s.errAt p code a0 a1 t).freshSaved = s.freshSaved := by simp [State.errAt]

@[simp] theorem State.errRun_pending (p : Nat) (code : Nat) (place : Nat) (a0 : Nat) : (s.errRun p code place a0).pending = s.pending := by unfold State.errRun; split <;> simp
@[simp] theorem State.errRun_frc (p : Nat) (code : Nat) (place : Nat) (a0 : Nat) : (s.errRun p code place a0).frc = s.frc := by unfold State.errRun; split <;> simp
@[simp] theorem State.errRun_coarse (p : Nat) (code : Nat) (place : Nat) (a0 : Nat) : (s.errRun p code place a0).coarse = s.coarse := by unfold State.errRun; split <;> simp
@[simp] theorem State.errRun_draws (p : Nat) (code : Nat) (place : Nat) (a0 : Nat) : (s.errRun p code place a0).draws = s.draws := by unfold State.errRun; split <;> simp
@[simp] theorem State.errRun_boot (p : Nat) (code : Nat) (place : Nat) (a0 : Nat) : (s.errRun p code place a0).boot = s.boot := by unfold State.errRun; split <;> simp
@[simp] theorem State.errRun_pwr (p : Nat) (code : Nat) (place : Nat) (a0 : Nat) : (s.errRun p code place a0).pwr = s.pwr := by unfold State.errRun; split <;> simp
@[simp] theorem State.errRun_snap (p : Nat) (code : Nat) (place : Nat) (a0 : Nat) : (s.errRun p code place a0).snap = s.snap := by unfold State.errRun; split <;> simp
@[simp] theorem State.errRun_tabs (p : Nat) (code : Nat) (place : Nat) (a0 : Nat) : (s.errRun p code place a0).tabs = s.tabs := by unfold State.errRun; split <;> simp
@[simp] theorem State.errRun_mram (p : Nat) (code : Nat) (place : Nat) (a0 : Nat) : (s.errRun p code place a0).mram = s.mram := by unfold State.errRun; split <;> simp
@[simp] theorem State.errRun_dram (p : Nat) (code : Nat) (place : Nat) (a0 : Nat) : (s.errRun p code place a0).dram = s.dram := by unfold State.errRun; split <;> simp
@[simp] theorem State.errRun_wqs (p : Nat) (code : Nat) (place : Nat) (a0 : Nat) : (s.errRun p code place a0).wqs = s.wqs := by unfold State.errRun; split <;> simp
@[simp] theorem State.errRun_wins (p : Nat) (code : Nat) (place : Nat) (a0 : Nat) : (s.errRun p code place a0).wins = s.wins := by unfold State.errRun; split <;> simp
@[simp] theorem State.errRun_resets (p : Nat) (code : Nat) (place : Nat) (a0 : Nat) : (s.errRun p code place a0).resets = s.resets := by unfold State.errRun; split <;> simp
@[simp] theorem State.errRun_snaps (p : Nat) (code : Nat) (place : Nat) (a0 : Nat) : (s.errRun p code place a0).snaps = s.snaps := by unfold State.errRun; split <;> simp
@[simp] theorem State.errRun_cans (p : Nat) (code : Nat) (place : Nat) (a0 : Nat) : (s.errRun p code place a0).cans = s.cans := by unfold State.errRun; split <;> simp
@[simp] theorem State.errRun_lins (p : Nat) (code : Nat) (place : Nat) (a0 : Nat) : (s.errRun p code place a0).lins = s.lins := by unfold State.errRun; split <;> simp
@[simp] theorem State.errRun_sers (p : Nat) (code : Nat) (place : Nat) (a0 : Nat) : (s.errRun p code place a0).sers = s.sers := by unfold State.errRun; split <;> simp
@[simp] theorem State.errRun_srt (p : Nat) (code : Nat) (place : Nat) (a0 : Nat) : (s.errRun p code place a0).srt = s.srt := by unfold State.errRun; split <;> simp
@[simp] theorem State.errRun_swc (p : Nat) (code : Nat) (place : Nat) (a0 : Nat) : (s.errRun p code place a0).swc = s.swc := by unfold State.errRun; split <;> simp
@[simp] theorem State.errRun_egress (p : Nat) (code : Nat) (place : Nat) (a0 : Nat) : (s.errRun p code place a0).egress = s.egress := by unfold State.errRun; split <;> simp
@[simp] theorem State.errRun_eths (p : Nat) (code : Nat) (place : Nat) (a0 : Nat) : (s.errRun p code place a0).eths = s.eths := by unfold State.errRun; split <;> simp
@[simp] theorem State.errRun_pipes (p : Nat) (code : Nat) (place : Nat) (a0 : Nat) : (s.errRun p code place a0).pipes = s.pipes := by unfold State.errRun; split <;> simp
@[simp] theorem State.errRun_fdbs (p : Nat) (code : Nat) (place : Nat) (a0 : Nat) : (s.errRun p code place a0).fdbs = s.fdbs := by unfold State.errRun; split <;> simp
@[simp] theorem State.errRun_frer (p : Nat) (code : Nat) (place : Nat) (a0 : Nat) : (s.errRun p code place a0).frer = s.frer := by unfold State.errRun; split <;> simp
@[simp] theorem State.errRun_eccSeen (p : Nat) (code : Nat) (place : Nat) (a0 : Nat) : (s.errRun p code place a0).eccSeen = s.eccSeen := by unfold State.errRun; split <;> simp
@[simp] theorem State.errRun_logOvf (p : Nat) (code : Nat) (place : Nat) (a0 : Nat) : (s.errRun p code place a0).logOvf = s.logOvf := by unfold State.errRun; split <;> simp
@[simp] theorem State.errRun_wdogBase (p : Nat) (code : Nat) (place : Nat) (a0 : Nat) : (s.errRun p code place a0).wdogBase = s.wdogBase := by unfold State.errRun; split <;> simp
@[simp] theorem State.errRun_perst (p : Nat) (code : Nat) (place : Nat) (a0 : Nat) : (s.errRun p code place a0).perst = s.perst := by unfold State.errRun; split <;> simp
@[simp] theorem State.errRun_trn (p : Nat) (code : Nat) (place : Nat) (a0 : Nat) : (s.errRun p code place a0).trn = s.trn := by unfold State.errRun; split <;> simp
@[simp] theorem State.errRun_capGen (p : Nat) (code : Nat) (place : Nat) (a0 : Nat) : (s.errRun p code place a0).capGen = s.capGen := by unfold State.errRun; split <;> simp
@[simp] theorem State.errRun_lastSlot (p : Nat) (code : Nat) (place : Nat) (a0 : Nat) : (s.errRun p code place a0).lastSlot = s.lastSlot := by unfold State.errRun; split <;> simp
@[simp] theorem State.errRun_time (p : Nat) (code : Nat) (place : Nat) (a0 : Nat) : (s.errRun p code place a0).time = s.time := by unfold State.errRun; split <;> simp
@[simp] theorem State.errRun_clusters (p : Nat) (code : Nat) (place : Nat) (a0 : Nat) : (s.errRun p code place a0).clusters = s.clusters := by unfold State.errRun; split <;> simp
@[simp] theorem State.errRun_ldie (p : Nat) (code : Nat) (place : Nat) (a0 : Nat) : (s.errRun p code place a0).ldie = s.ldie := by unfold State.errRun; split <;> simp
@[simp] theorem State.errRun_keys (p : Nat) (code : Nat) (place : Nat) (a0 : Nat) : (s.errRun p code place a0).keys = s.keys := by unfold State.errRun; split <;> simp
@[simp] theorem State.errRun_otp (p : Nat) (code : Nat) (place : Nat) (a0 : Nat) : (s.errRun p code place a0).otp = s.otp := by unfold State.errRun; split <;> simp
@[simp] theorem State.errRun_dbg (p : Nat) (code : Nat) (place : Nat) (a0 : Nat) : (s.errRun p code place a0).dbg = s.dbg := by unfold State.errRun; split <;> simp
@[simp] theorem State.errRun_emc (p : Nat) (code : Nat) (place : Nat) (a0 : Nat) : (s.errRun p code place a0).emc = s.emc := by unfold State.errRun; split <;> simp
@[simp] theorem State.errRun_pow (p : Nat) (code : Nat) (place : Nat) (a0 : Nat) : (s.errRun p code place a0).pow = s.pow := by unfold State.errRun; split <;> simp
@[simp] theorem State.errRun_freshSaved (p : Nat) (code : Nat) (place : Nat) (a0 : Nat) : (s.errRun p code place a0).freshSaved = s.freshSaved := by unfold State.errRun; split <;> simp

@[simp] theorem State.errRunAt_pending (p : Nat) (code : Nat) (place : Nat) (a0 : Nat) (a1 : Nat) (t : Nat) : (s.errRunAt p code place a0 a1 t).pending = s.pending := by unfold State.errRunAt; split <;> simp
@[simp] theorem State.errRunAt_frc (p : Nat) (code : Nat) (place : Nat) (a0 : Nat) (a1 : Nat) (t : Nat) : (s.errRunAt p code place a0 a1 t).frc = s.frc := by unfold State.errRunAt; split <;> simp
@[simp] theorem State.errRunAt_coarse (p : Nat) (code : Nat) (place : Nat) (a0 : Nat) (a1 : Nat) (t : Nat) : (s.errRunAt p code place a0 a1 t).coarse = s.coarse := by unfold State.errRunAt; split <;> simp
@[simp] theorem State.errRunAt_draws (p : Nat) (code : Nat) (place : Nat) (a0 : Nat) (a1 : Nat) (t : Nat) : (s.errRunAt p code place a0 a1 t).draws = s.draws := by unfold State.errRunAt; split <;> simp
@[simp] theorem State.errRunAt_boot (p : Nat) (code : Nat) (place : Nat) (a0 : Nat) (a1 : Nat) (t : Nat) : (s.errRunAt p code place a0 a1 t).boot = s.boot := by unfold State.errRunAt; split <;> simp
@[simp] theorem State.errRunAt_pwr (p : Nat) (code : Nat) (place : Nat) (a0 : Nat) (a1 : Nat) (t : Nat) : (s.errRunAt p code place a0 a1 t).pwr = s.pwr := by unfold State.errRunAt; split <;> simp
@[simp] theorem State.errRunAt_snap (p : Nat) (code : Nat) (place : Nat) (a0 : Nat) (a1 : Nat) (t : Nat) : (s.errRunAt p code place a0 a1 t).snap = s.snap := by unfold State.errRunAt; split <;> simp
@[simp] theorem State.errRunAt_tabs (p : Nat) (code : Nat) (place : Nat) (a0 : Nat) (a1 : Nat) (t : Nat) : (s.errRunAt p code place a0 a1 t).tabs = s.tabs := by unfold State.errRunAt; split <;> simp
@[simp] theorem State.errRunAt_mram (p : Nat) (code : Nat) (place : Nat) (a0 : Nat) (a1 : Nat) (t : Nat) : (s.errRunAt p code place a0 a1 t).mram = s.mram := by unfold State.errRunAt; split <;> simp
@[simp] theorem State.errRunAt_dram (p : Nat) (code : Nat) (place : Nat) (a0 : Nat) (a1 : Nat) (t : Nat) : (s.errRunAt p code place a0 a1 t).dram = s.dram := by unfold State.errRunAt; split <;> simp
@[simp] theorem State.errRunAt_wqs (p : Nat) (code : Nat) (place : Nat) (a0 : Nat) (a1 : Nat) (t : Nat) : (s.errRunAt p code place a0 a1 t).wqs = s.wqs := by unfold State.errRunAt; split <;> simp
@[simp] theorem State.errRunAt_wins (p : Nat) (code : Nat) (place : Nat) (a0 : Nat) (a1 : Nat) (t : Nat) : (s.errRunAt p code place a0 a1 t).wins = s.wins := by unfold State.errRunAt; split <;> simp
@[simp] theorem State.errRunAt_resets (p : Nat) (code : Nat) (place : Nat) (a0 : Nat) (a1 : Nat) (t : Nat) : (s.errRunAt p code place a0 a1 t).resets = s.resets := by unfold State.errRunAt; split <;> simp
@[simp] theorem State.errRunAt_snaps (p : Nat) (code : Nat) (place : Nat) (a0 : Nat) (a1 : Nat) (t : Nat) : (s.errRunAt p code place a0 a1 t).snaps = s.snaps := by unfold State.errRunAt; split <;> simp
@[simp] theorem State.errRunAt_cans (p : Nat) (code : Nat) (place : Nat) (a0 : Nat) (a1 : Nat) (t : Nat) : (s.errRunAt p code place a0 a1 t).cans = s.cans := by unfold State.errRunAt; split <;> simp
@[simp] theorem State.errRunAt_lins (p : Nat) (code : Nat) (place : Nat) (a0 : Nat) (a1 : Nat) (t : Nat) : (s.errRunAt p code place a0 a1 t).lins = s.lins := by unfold State.errRunAt; split <;> simp
@[simp] theorem State.errRunAt_sers (p : Nat) (code : Nat) (place : Nat) (a0 : Nat) (a1 : Nat) (t : Nat) : (s.errRunAt p code place a0 a1 t).sers = s.sers := by unfold State.errRunAt; split <;> simp
@[simp] theorem State.errRunAt_srt (p : Nat) (code : Nat) (place : Nat) (a0 : Nat) (a1 : Nat) (t : Nat) : (s.errRunAt p code place a0 a1 t).srt = s.srt := by unfold State.errRunAt; split <;> simp
@[simp] theorem State.errRunAt_swc (p : Nat) (code : Nat) (place : Nat) (a0 : Nat) (a1 : Nat) (t : Nat) : (s.errRunAt p code place a0 a1 t).swc = s.swc := by unfold State.errRunAt; split <;> simp
@[simp] theorem State.errRunAt_egress (p : Nat) (code : Nat) (place : Nat) (a0 : Nat) (a1 : Nat) (t : Nat) : (s.errRunAt p code place a0 a1 t).egress = s.egress := by unfold State.errRunAt; split <;> simp
@[simp] theorem State.errRunAt_eths (p : Nat) (code : Nat) (place : Nat) (a0 : Nat) (a1 : Nat) (t : Nat) : (s.errRunAt p code place a0 a1 t).eths = s.eths := by unfold State.errRunAt; split <;> simp
@[simp] theorem State.errRunAt_pipes (p : Nat) (code : Nat) (place : Nat) (a0 : Nat) (a1 : Nat) (t : Nat) : (s.errRunAt p code place a0 a1 t).pipes = s.pipes := by unfold State.errRunAt; split <;> simp
@[simp] theorem State.errRunAt_fdbs (p : Nat) (code : Nat) (place : Nat) (a0 : Nat) (a1 : Nat) (t : Nat) : (s.errRunAt p code place a0 a1 t).fdbs = s.fdbs := by unfold State.errRunAt; split <;> simp
@[simp] theorem State.errRunAt_frer (p : Nat) (code : Nat) (place : Nat) (a0 : Nat) (a1 : Nat) (t : Nat) : (s.errRunAt p code place a0 a1 t).frer = s.frer := by unfold State.errRunAt; split <;> simp
@[simp] theorem State.errRunAt_eccSeen (p : Nat) (code : Nat) (place : Nat) (a0 : Nat) (a1 : Nat) (t : Nat) : (s.errRunAt p code place a0 a1 t).eccSeen = s.eccSeen := by unfold State.errRunAt; split <;> simp
@[simp] theorem State.errRunAt_logOvf (p : Nat) (code : Nat) (place : Nat) (a0 : Nat) (a1 : Nat) (t : Nat) : (s.errRunAt p code place a0 a1 t).logOvf = s.logOvf := by unfold State.errRunAt; split <;> simp
@[simp] theorem State.errRunAt_wdogBase (p : Nat) (code : Nat) (place : Nat) (a0 : Nat) (a1 : Nat) (t : Nat) : (s.errRunAt p code place a0 a1 t).wdogBase = s.wdogBase := by unfold State.errRunAt; split <;> simp
@[simp] theorem State.errRunAt_perst (p : Nat) (code : Nat) (place : Nat) (a0 : Nat) (a1 : Nat) (t : Nat) : (s.errRunAt p code place a0 a1 t).perst = s.perst := by unfold State.errRunAt; split <;> simp
@[simp] theorem State.errRunAt_trn (p : Nat) (code : Nat) (place : Nat) (a0 : Nat) (a1 : Nat) (t : Nat) : (s.errRunAt p code place a0 a1 t).trn = s.trn := by unfold State.errRunAt; split <;> simp
@[simp] theorem State.errRunAt_capGen (p : Nat) (code : Nat) (place : Nat) (a0 : Nat) (a1 : Nat) (t : Nat) : (s.errRunAt p code place a0 a1 t).capGen = s.capGen := by unfold State.errRunAt; split <;> simp
@[simp] theorem State.errRunAt_lastSlot (p : Nat) (code : Nat) (place : Nat) (a0 : Nat) (a1 : Nat) (t : Nat) : (s.errRunAt p code place a0 a1 t).lastSlot = s.lastSlot := by unfold State.errRunAt; split <;> simp
@[simp] theorem State.errRunAt_time (p : Nat) (code : Nat) (place : Nat) (a0 : Nat) (a1 : Nat) (t : Nat) : (s.errRunAt p code place a0 a1 t).time = s.time := by unfold State.errRunAt; split <;> simp
@[simp] theorem State.errRunAt_clusters (p : Nat) (code : Nat) (place : Nat) (a0 : Nat) (a1 : Nat) (t : Nat) : (s.errRunAt p code place a0 a1 t).clusters = s.clusters := by unfold State.errRunAt; split <;> simp
@[simp] theorem State.errRunAt_ldie (p : Nat) (code : Nat) (place : Nat) (a0 : Nat) (a1 : Nat) (t : Nat) : (s.errRunAt p code place a0 a1 t).ldie = s.ldie := by unfold State.errRunAt; split <;> simp
@[simp] theorem State.errRunAt_keys (p : Nat) (code : Nat) (place : Nat) (a0 : Nat) (a1 : Nat) (t : Nat) : (s.errRunAt p code place a0 a1 t).keys = s.keys := by unfold State.errRunAt; split <;> simp
@[simp] theorem State.errRunAt_otp (p : Nat) (code : Nat) (place : Nat) (a0 : Nat) (a1 : Nat) (t : Nat) : (s.errRunAt p code place a0 a1 t).otp = s.otp := by unfold State.errRunAt; split <;> simp
@[simp] theorem State.errRunAt_dbg (p : Nat) (code : Nat) (place : Nat) (a0 : Nat) (a1 : Nat) (t : Nat) : (s.errRunAt p code place a0 a1 t).dbg = s.dbg := by unfold State.errRunAt; split <;> simp
@[simp] theorem State.errRunAt_emc (p : Nat) (code : Nat) (place : Nat) (a0 : Nat) (a1 : Nat) (t : Nat) : (s.errRunAt p code place a0 a1 t).emc = s.emc := by unfold State.errRunAt; split <;> simp
@[simp] theorem State.errRunAt_pow (p : Nat) (code : Nat) (place : Nat) (a0 : Nat) (a1 : Nat) (t : Nat) : (s.errRunAt p code place a0 a1 t).pow = s.pow := by unfold State.errRunAt; split <;> simp
@[simp] theorem State.errRunAt_freshSaved (p : Nat) (code : Nat) (place : Nat) (a0 : Nat) (a1 : Nat) (t : Nat) : (s.errRunAt p code place a0 a1 t).freshSaved = s.freshSaved := by unfold State.errRunAt; split <;> simp

@[simp] theorem State.endRun_pending (p : Nat) (code : Nat) (place : Nat) : (s.endRun p code place).pending = s.pending := rfl
@[simp] theorem State.endRun_out (p : Nat) (code : Nat) (place : Nat) : (s.endRun p code place).out = s.out := rfl
@[simp] theorem State.endRun_frc (p : Nat) (code : Nat) (place : Nat) : (s.endRun p code place).frc = s.frc := rfl
@[simp] theorem State.endRun_coarse (p : Nat) (code : Nat) (place : Nat) : (s.endRun p code place).coarse = s.coarse := rfl
@[simp] theorem State.endRun_draws (p : Nat) (code : Nat) (place : Nat) : (s.endRun p code place).draws = s.draws := rfl
@[simp] theorem State.endRun_boot (p : Nat) (code : Nat) (place : Nat) : (s.endRun p code place).boot = s.boot := rfl
@[simp] theorem State.endRun_pwr (p : Nat) (code : Nat) (place : Nat) : (s.endRun p code place).pwr = s.pwr := rfl
@[simp] theorem State.endRun_regs (p : Nat) (code : Nat) (place : Nat) : (s.endRun p code place).regs = s.regs := rfl
@[simp] theorem State.endRun_cnt (p : Nat) (code : Nat) (place : Nat) : (s.endRun p code place).cnt = s.cnt := rfl
@[simp] theorem State.endRun_snap (p : Nat) (code : Nat) (place : Nat) : (s.endRun p code place).snap = s.snap := rfl
@[simp] theorem State.endRun_tabs (p : Nat) (code : Nat) (place : Nat) : (s.endRun p code place).tabs = s.tabs := rfl
@[simp] theorem State.endRun_mram (p : Nat) (code : Nat) (place : Nat) : (s.endRun p code place).mram = s.mram := rfl
@[simp] theorem State.endRun_dram (p : Nat) (code : Nat) (place : Nat) : (s.endRun p code place).dram = s.dram := rfl
@[simp] theorem State.endRun_wqs (p : Nat) (code : Nat) (place : Nat) : (s.endRun p code place).wqs = s.wqs := rfl
@[simp] theorem State.endRun_reports (p : Nat) (code : Nat) (place : Nat) : (s.endRun p code place).reports = s.reports := rfl
@[simp] theorem State.endRun_lostPages (p : Nat) (code : Nat) (place : Nat) : (s.endRun p code place).lostPages = s.lostPages := rfl
@[simp] theorem State.endRun_wins (p : Nat) (code : Nat) (place : Nat) : (s.endRun p code place).wins = s.wins := rfl
@[simp] theorem State.endRun_resets (p : Nat) (code : Nat) (place : Nat) : (s.endRun p code place).resets = s.resets := rfl
@[simp] theorem State.endRun_snaps (p : Nat) (code : Nat) (place : Nat) : (s.endRun p code place).snaps = s.snaps := rfl
@[simp] theorem State.endRun_doms (p : Nat) (code : Nat) (place : Nat) : (s.endRun p code place).doms = s.doms := rfl
@[simp] theorem State.endRun_cans (p : Nat) (code : Nat) (place : Nat) : (s.endRun p code place).cans = s.cans := rfl
@[simp] theorem State.endRun_lins (p : Nat) (code : Nat) (place : Nat) : (s.endRun p code place).lins = s.lins := rfl
@[simp] theorem State.endRun_sers (p : Nat) (code : Nat) (place : Nat) : (s.endRun p code place).sers = s.sers := rfl
@[simp] theorem State.endRun_srt (p : Nat) (code : Nat) (place : Nat) : (s.endRun p code place).srt = s.srt := rfl
@[simp] theorem State.endRun_swc (p : Nat) (code : Nat) (place : Nat) : (s.endRun p code place).swc = s.swc := rfl
@[simp] theorem State.endRun_egress (p : Nat) (code : Nat) (place : Nat) : (s.endRun p code place).egress = s.egress := rfl
@[simp] theorem State.endRun_eths (p : Nat) (code : Nat) (place : Nat) : (s.endRun p code place).eths = s.eths := rfl
@[simp] theorem State.endRun_pipes (p : Nat) (code : Nat) (place : Nat) : (s.endRun p code place).pipes = s.pipes := rfl
@[simp] theorem State.endRun_fdbs (p : Nat) (code : Nat) (place : Nat) : (s.endRun p code place).fdbs = s.fdbs := rfl
@[simp] theorem State.endRun_frer (p : Nat) (code : Nat) (place : Nat) : (s.endRun p code place).frer = s.frer := rfl
@[simp] theorem State.endRun_eccSeen (p : Nat) (code : Nat) (place : Nat) : (s.endRun p code place).eccSeen = s.eccSeen := rfl
@[simp] theorem State.endRun_logOvf (p : Nat) (code : Nat) (place : Nat) : (s.endRun p code place).logOvf = s.logOvf := rfl
@[simp] theorem State.endRun_wdogBase (p : Nat) (code : Nat) (place : Nat) : (s.endRun p code place).wdogBase = s.wdogBase := rfl
@[simp] theorem State.endRun_perst (p : Nat) (code : Nat) (place : Nat) : (s.endRun p code place).perst = s.perst := rfl
@[simp] theorem State.endRun_trn (p : Nat) (code : Nat) (place : Nat) : (s.endRun p code place).trn = s.trn := rfl
@[simp] theorem State.endRun_capGen (p : Nat) (code : Nat) (place : Nat) : (s.endRun p code place).capGen = s.capGen := rfl
@[simp] theorem State.endRun_lastSlot (p : Nat) (code : Nat) (place : Nat) : (s.endRun p code place).lastSlot = s.lastSlot := rfl
@[simp] theorem State.endRun_time (p : Nat) (code : Nat) (place : Nat) : (s.endRun p code place).time = s.time := rfl
@[simp] theorem State.endRun_clusters (p : Nat) (code : Nat) (place : Nat) : (s.endRun p code place).clusters = s.clusters := rfl
@[simp] theorem State.endRun_ldie (p : Nat) (code : Nat) (place : Nat) : (s.endRun p code place).ldie = s.ldie := rfl
@[simp] theorem State.endRun_keys (p : Nat) (code : Nat) (place : Nat) : (s.endRun p code place).keys = s.keys := rfl
@[simp] theorem State.endRun_otp (p : Nat) (code : Nat) (place : Nat) : (s.endRun p code place).otp = s.otp := rfl
@[simp] theorem State.endRun_dbg (p : Nat) (code : Nat) (place : Nat) : (s.endRun p code place).dbg = s.dbg := rfl
@[simp] theorem State.endRun_emc (p : Nat) (code : Nat) (place : Nat) : (s.endRun p code place).emc = s.emc := rfl
@[simp] theorem State.endRun_pow (p : Nat) (code : Nat) (place : Nat) : (s.endRun p code place).pow = s.pow := rfl
@[simp] theorem State.endRun_freshSaved (p : Nat) (code : Nat) (place : Nat) : (s.endRun p code place).freshSaved = s.freshSaved := rfl

@[simp] theorem State.refuse_pending (d : Nat) (a : Nat) (v : Nat) (code : Nat) : (s.refuse d a v code).pending = s.pending := by unfold State.refuse; dsimp only; (repeat' split) <;> simp
@[simp] theorem State.refuse_frc (d : Nat) (a : Nat) (v : Nat) (code : Nat) : (s.refuse d a v code).frc = s.frc := by unfold State.refuse; dsimp only; (repeat' split) <;> simp
@[simp] theorem State.refuse_coarse (d : Nat) (a : Nat) (v : Nat) (code : Nat) : (s.refuse d a v code).coarse = s.coarse := by unfold State.refuse; dsimp only; (repeat' split) <;> simp
@[simp] theorem State.refuse_draws (d : Nat) (a : Nat) (v : Nat) (code : Nat) : (s.refuse d a v code).draws = s.draws := by unfold State.refuse; dsimp only; (repeat' split) <;> simp
@[simp] theorem State.refuse_boot (d : Nat) (a : Nat) (v : Nat) (code : Nat) : (s.refuse d a v code).boot = s.boot := by unfold State.refuse; dsimp only; (repeat' split) <;> simp
@[simp] theorem State.refuse_pwr (d : Nat) (a : Nat) (v : Nat) (code : Nat) : (s.refuse d a v code).pwr = s.pwr := by unfold State.refuse; dsimp only; (repeat' split) <;> simp
@[simp] theorem State.refuse_snap (d : Nat) (a : Nat) (v : Nat) (code : Nat) : (s.refuse d a v code).snap = s.snap := by unfold State.refuse; dsimp only; (repeat' split) <;> simp
@[simp] theorem State.refuse_tabs (d : Nat) (a : Nat) (v : Nat) (code : Nat) : (s.refuse d a v code).tabs = s.tabs := by unfold State.refuse; dsimp only; (repeat' split) <;> simp
@[simp] theorem State.refuse_mram (d : Nat) (a : Nat) (v : Nat) (code : Nat) : (s.refuse d a v code).mram = s.mram := by unfold State.refuse; dsimp only; (repeat' split) <;> simp
@[simp] theorem State.refuse_dram (d : Nat) (a : Nat) (v : Nat) (code : Nat) : (s.refuse d a v code).dram = s.dram := by unfold State.refuse; dsimp only; (repeat' split) <;> simp
@[simp] theorem State.refuse_wqs (d : Nat) (a : Nat) (v : Nat) (code : Nat) : (s.refuse d a v code).wqs = s.wqs := by unfold State.refuse; dsimp only; (repeat' split) <;> simp
@[simp] theorem State.refuse_runs (d : Nat) (a : Nat) (v : Nat) (code : Nat) : (s.refuse d a v code).runs = s.runs := by unfold State.refuse; dsimp only; (repeat' split) <;> simp
@[simp] theorem State.refuse_wins (d : Nat) (a : Nat) (v : Nat) (code : Nat) : (s.refuse d a v code).wins = s.wins := by unfold State.refuse; dsimp only; (repeat' split) <;> simp
@[simp] theorem State.refuse_resets (d : Nat) (a : Nat) (v : Nat) (code : Nat) : (s.refuse d a v code).resets = s.resets := by unfold State.refuse; dsimp only; (repeat' split) <;> simp
@[simp] theorem State.refuse_snaps (d : Nat) (a : Nat) (v : Nat) (code : Nat) : (s.refuse d a v code).snaps = s.snaps := by unfold State.refuse; dsimp only; (repeat' split) <;> simp
@[simp] theorem State.refuse_cans (d : Nat) (a : Nat) (v : Nat) (code : Nat) : (s.refuse d a v code).cans = s.cans := by unfold State.refuse; dsimp only; (repeat' split) <;> simp
@[simp] theorem State.refuse_lins (d : Nat) (a : Nat) (v : Nat) (code : Nat) : (s.refuse d a v code).lins = s.lins := by unfold State.refuse; dsimp only; (repeat' split) <;> simp
@[simp] theorem State.refuse_sers (d : Nat) (a : Nat) (v : Nat) (code : Nat) : (s.refuse d a v code).sers = s.sers := by unfold State.refuse; dsimp only; (repeat' split) <;> simp
@[simp] theorem State.refuse_srt (d : Nat) (a : Nat) (v : Nat) (code : Nat) : (s.refuse d a v code).srt = s.srt := by unfold State.refuse; dsimp only; (repeat' split) <;> simp
@[simp] theorem State.refuse_swc (d : Nat) (a : Nat) (v : Nat) (code : Nat) : (s.refuse d a v code).swc = s.swc := by unfold State.refuse; dsimp only; (repeat' split) <;> simp
@[simp] theorem State.refuse_egress (d : Nat) (a : Nat) (v : Nat) (code : Nat) : (s.refuse d a v code).egress = s.egress := by unfold State.refuse; dsimp only; (repeat' split) <;> simp
@[simp] theorem State.refuse_eths (d : Nat) (a : Nat) (v : Nat) (code : Nat) : (s.refuse d a v code).eths = s.eths := by unfold State.refuse; dsimp only; (repeat' split) <;> simp
@[simp] theorem State.refuse_pipes (d : Nat) (a : Nat) (v : Nat) (code : Nat) : (s.refuse d a v code).pipes = s.pipes := by unfold State.refuse; dsimp only; (repeat' split) <;> simp
@[simp] theorem State.refuse_fdbs (d : Nat) (a : Nat) (v : Nat) (code : Nat) : (s.refuse d a v code).fdbs = s.fdbs := by unfold State.refuse; dsimp only; (repeat' split) <;> simp
@[simp] theorem State.refuse_frer (d : Nat) (a : Nat) (v : Nat) (code : Nat) : (s.refuse d a v code).frer = s.frer := by unfold State.refuse; dsimp only; (repeat' split) <;> simp
@[simp] theorem State.refuse_eccSeen (d : Nat) (a : Nat) (v : Nat) (code : Nat) : (s.refuse d a v code).eccSeen = s.eccSeen := by unfold State.refuse; dsimp only; (repeat' split) <;> simp
@[simp] theorem State.refuse_logOvf (d : Nat) (a : Nat) (v : Nat) (code : Nat) : (s.refuse d a v code).logOvf = s.logOvf := by unfold State.refuse; dsimp only; (repeat' split) <;> simp
@[simp] theorem State.refuse_wdogBase (d : Nat) (a : Nat) (v : Nat) (code : Nat) : (s.refuse d a v code).wdogBase = s.wdogBase := by unfold State.refuse; dsimp only; (repeat' split) <;> simp
@[simp] theorem State.refuse_perst (d : Nat) (a : Nat) (v : Nat) (code : Nat) : (s.refuse d a v code).perst = s.perst := by unfold State.refuse; dsimp only; (repeat' split) <;> simp
@[simp] theorem State.refuse_trn (d : Nat) (a : Nat) (v : Nat) (code : Nat) : (s.refuse d a v code).trn = s.trn := by unfold State.refuse; dsimp only; (repeat' split) <;> simp
@[simp] theorem State.refuse_capGen (d : Nat) (a : Nat) (v : Nat) (code : Nat) : (s.refuse d a v code).capGen = s.capGen := by unfold State.refuse; dsimp only; (repeat' split) <;> simp
@[simp] theorem State.refuse_lastSlot (d : Nat) (a : Nat) (v : Nat) (code : Nat) : (s.refuse d a v code).lastSlot = s.lastSlot := by unfold State.refuse; dsimp only; (repeat' split) <;> simp
@[simp] theorem State.refuse_time (d : Nat) (a : Nat) (v : Nat) (code : Nat) : (s.refuse d a v code).time = s.time := by unfold State.refuse; dsimp only; (repeat' split) <;> simp
@[simp] theorem State.refuse_clusters (d : Nat) (a : Nat) (v : Nat) (code : Nat) : (s.refuse d a v code).clusters = s.clusters := by unfold State.refuse; dsimp only; (repeat' split) <;> simp
@[simp] theorem State.refuse_ldie (d : Nat) (a : Nat) (v : Nat) (code : Nat) : (s.refuse d a v code).ldie = s.ldie := by unfold State.refuse; dsimp only; (repeat' split) <;> simp
@[simp] theorem State.refuse_keys (d : Nat) (a : Nat) (v : Nat) (code : Nat) : (s.refuse d a v code).keys = s.keys := by unfold State.refuse; dsimp only; (repeat' split) <;> simp
@[simp] theorem State.refuse_otp (d : Nat) (a : Nat) (v : Nat) (code : Nat) : (s.refuse d a v code).otp = s.otp := by unfold State.refuse; dsimp only; (repeat' split) <;> simp
@[simp] theorem State.refuse_dbg (d : Nat) (a : Nat) (v : Nat) (code : Nat) : (s.refuse d a v code).dbg = s.dbg := by unfold State.refuse; dsimp only; (repeat' split) <;> simp
@[simp] theorem State.refuse_emc (d : Nat) (a : Nat) (v : Nat) (code : Nat) : (s.refuse d a v code).emc = s.emc := by unfold State.refuse; dsimp only; (repeat' split) <;> simp
@[simp] theorem State.refuse_pow (d : Nat) (a : Nat) (v : Nat) (code : Nat) : (s.refuse d a v code).pow = s.pow := by unfold State.refuse; dsimp only; (repeat' split) <;> simp
@[simp] theorem State.refuse_freshSaved (d : Nat) (a : Nat) (v : Nat) (code : Nat) : (s.refuse d a v code).freshSaved = s.freshSaved := by unfold State.refuse; dsimp only; (repeat' split) <;> simp

@[simp] theorem State.wqPut_pending (k : Nat) (ws : List Nat) : (s.wqPut k ws).pending = s.pending := by unfold State.wqPut; dsimp only; split <;> split <;> simp
@[simp] theorem State.wqPut_frc (k : Nat) (ws : List Nat) : (s.wqPut k ws).frc = s.frc := by unfold State.wqPut; dsimp only; split <;> split <;> simp
@[simp] theorem State.wqPut_coarse (k : Nat) (ws : List Nat) : (s.wqPut k ws).coarse = s.coarse := by unfold State.wqPut; dsimp only; split <;> split <;> simp
@[simp] theorem State.wqPut_draws (k : Nat) (ws : List Nat) : (s.wqPut k ws).draws = s.draws := by unfold State.wqPut; dsimp only; split <;> split <;> simp
@[simp] theorem State.wqPut_boot (k : Nat) (ws : List Nat) : (s.wqPut k ws).boot = s.boot := by unfold State.wqPut; dsimp only; split <;> split <;> simp
@[simp] theorem State.wqPut_pwr (k : Nat) (ws : List Nat) : (s.wqPut k ws).pwr = s.pwr := by unfold State.wqPut; dsimp only; split <;> split <;> simp
@[simp] theorem State.wqPut_snap (k : Nat) (ws : List Nat) : (s.wqPut k ws).snap = s.snap := by unfold State.wqPut; dsimp only; split <;> split <;> simp
@[simp] theorem State.wqPut_tabs (k : Nat) (ws : List Nat) : (s.wqPut k ws).tabs = s.tabs := by unfold State.wqPut; dsimp only; split <;> split <;> simp
@[simp] theorem State.wqPut_mram (k : Nat) (ws : List Nat) : (s.wqPut k ws).mram = s.mram := by unfold State.wqPut; dsimp only; split <;> split <;> simp
@[simp] theorem State.wqPut_dram (k : Nat) (ws : List Nat) : (s.wqPut k ws).dram = s.dram := by unfold State.wqPut; dsimp only; split <;> split <;> simp
@[simp] theorem State.wqPut_wins (k : Nat) (ws : List Nat) : (s.wqPut k ws).wins = s.wins := by unfold State.wqPut; dsimp only; split <;> split <;> simp
@[simp] theorem State.wqPut_resets (k : Nat) (ws : List Nat) : (s.wqPut k ws).resets = s.resets := by unfold State.wqPut; dsimp only; split <;> split <;> simp
@[simp] theorem State.wqPut_snaps (k : Nat) (ws : List Nat) : (s.wqPut k ws).snaps = s.snaps := by unfold State.wqPut; dsimp only; split <;> split <;> simp
@[simp] theorem State.wqPut_cans (k : Nat) (ws : List Nat) : (s.wqPut k ws).cans = s.cans := by unfold State.wqPut; dsimp only; split <;> split <;> simp
@[simp] theorem State.wqPut_lins (k : Nat) (ws : List Nat) : (s.wqPut k ws).lins = s.lins := by unfold State.wqPut; dsimp only; split <;> split <;> simp
@[simp] theorem State.wqPut_sers (k : Nat) (ws : List Nat) : (s.wqPut k ws).sers = s.sers := by unfold State.wqPut; dsimp only; split <;> split <;> simp
@[simp] theorem State.wqPut_srt (k : Nat) (ws : List Nat) : (s.wqPut k ws).srt = s.srt := by unfold State.wqPut; dsimp only; split <;> split <;> simp
@[simp] theorem State.wqPut_swc (k : Nat) (ws : List Nat) : (s.wqPut k ws).swc = s.swc := by unfold State.wqPut; dsimp only; split <;> split <;> simp
@[simp] theorem State.wqPut_egress (k : Nat) (ws : List Nat) : (s.wqPut k ws).egress = s.egress := by unfold State.wqPut; dsimp only; split <;> split <;> simp
@[simp] theorem State.wqPut_eths (k : Nat) (ws : List Nat) : (s.wqPut k ws).eths = s.eths := by unfold State.wqPut; dsimp only; split <;> split <;> simp
@[simp] theorem State.wqPut_pipes (k : Nat) (ws : List Nat) : (s.wqPut k ws).pipes = s.pipes := by unfold State.wqPut; dsimp only; split <;> split <;> simp
@[simp] theorem State.wqPut_fdbs (k : Nat) (ws : List Nat) : (s.wqPut k ws).fdbs = s.fdbs := by unfold State.wqPut; dsimp only; split <;> split <;> simp
@[simp] theorem State.wqPut_frer (k : Nat) (ws : List Nat) : (s.wqPut k ws).frer = s.frer := by unfold State.wqPut; dsimp only; split <;> split <;> simp
@[simp] theorem State.wqPut_eccSeen (k : Nat) (ws : List Nat) : (s.wqPut k ws).eccSeen = s.eccSeen := by unfold State.wqPut; dsimp only; split <;> split <;> simp
@[simp] theorem State.wqPut_logOvf (k : Nat) (ws : List Nat) : (s.wqPut k ws).logOvf = s.logOvf := by unfold State.wqPut; dsimp only; split <;> split <;> simp
@[simp] theorem State.wqPut_wdogBase (k : Nat) (ws : List Nat) : (s.wqPut k ws).wdogBase = s.wdogBase := by unfold State.wqPut; dsimp only; split <;> split <;> simp
@[simp] theorem State.wqPut_perst (k : Nat) (ws : List Nat) : (s.wqPut k ws).perst = s.perst := by unfold State.wqPut; dsimp only; split <;> split <;> simp
@[simp] theorem State.wqPut_trn (k : Nat) (ws : List Nat) : (s.wqPut k ws).trn = s.trn := by unfold State.wqPut; dsimp only; split <;> split <;> simp
@[simp] theorem State.wqPut_capGen (k : Nat) (ws : List Nat) : (s.wqPut k ws).capGen = s.capGen := by unfold State.wqPut; dsimp only; split <;> split <;> simp
@[simp] theorem State.wqPut_lastSlot (k : Nat) (ws : List Nat) : (s.wqPut k ws).lastSlot = s.lastSlot := by unfold State.wqPut; dsimp only; split <;> split <;> simp
@[simp] theorem State.wqPut_time (k : Nat) (ws : List Nat) : (s.wqPut k ws).time = s.time := by unfold State.wqPut; dsimp only; split <;> split <;> simp
@[simp] theorem State.wqPut_clusters (k : Nat) (ws : List Nat) : (s.wqPut k ws).clusters = s.clusters := by unfold State.wqPut; dsimp only; split <;> split <;> simp
@[simp] theorem State.wqPut_ldie (k : Nat) (ws : List Nat) : (s.wqPut k ws).ldie = s.ldie := by unfold State.wqPut; dsimp only; split <;> split <;> simp
@[simp] theorem State.wqPut_keys (k : Nat) (ws : List Nat) : (s.wqPut k ws).keys = s.keys := by unfold State.wqPut; dsimp only; split <;> split <;> simp
@[simp] theorem State.wqPut_otp (k : Nat) (ws : List Nat) : (s.wqPut k ws).otp = s.otp := by unfold State.wqPut; dsimp only; split <;> split <;> simp
@[simp] theorem State.wqPut_dbg (k : Nat) (ws : List Nat) : (s.wqPut k ws).dbg = s.dbg := by unfold State.wqPut; dsimp only; split <;> split <;> simp
@[simp] theorem State.wqPut_emc (k : Nat) (ws : List Nat) : (s.wqPut k ws).emc = s.emc := by unfold State.wqPut; dsimp only; split <;> split <;> simp
@[simp] theorem State.wqPut_pow (k : Nat) (ws : List Nat) : (s.wqPut k ws).pow = s.pow := by unfold State.wqPut; dsimp only; split <;> split <;> simp
@[simp] theorem State.wqPut_freshSaved (k : Nat) (ws : List Nat) : (s.wqPut k ws).freshSaved = s.freshSaved := by unfold State.wqPut; dsimp only; split <;> split <;> simp

@[simp] theorem State.wqBroken_pending (k : Nat) : (s.wqBroken k).pending = s.pending := by simp [State.wqBroken]
@[simp] theorem State.wqBroken_frc (k : Nat) : (s.wqBroken k).frc = s.frc := by simp [State.wqBroken]
@[simp] theorem State.wqBroken_coarse (k : Nat) : (s.wqBroken k).coarse = s.coarse := by simp [State.wqBroken]
@[simp] theorem State.wqBroken_draws (k : Nat) : (s.wqBroken k).draws = s.draws := by simp [State.wqBroken]
@[simp] theorem State.wqBroken_boot (k : Nat) : (s.wqBroken k).boot = s.boot := by simp [State.wqBroken]
@[simp] theorem State.wqBroken_pwr (k : Nat) : (s.wqBroken k).pwr = s.pwr := by simp [State.wqBroken]
@[simp] theorem State.wqBroken_snap (k : Nat) : (s.wqBroken k).snap = s.snap := by simp [State.wqBroken]
@[simp] theorem State.wqBroken_tabs (k : Nat) : (s.wqBroken k).tabs = s.tabs := by simp [State.wqBroken]
@[simp] theorem State.wqBroken_mram (k : Nat) : (s.wqBroken k).mram = s.mram := by simp [State.wqBroken]
@[simp] theorem State.wqBroken_dram (k : Nat) : (s.wqBroken k).dram = s.dram := by simp [State.wqBroken]
@[simp] theorem State.wqBroken_runs (k : Nat) : (s.wqBroken k).runs = s.runs := by simp [State.wqBroken]
@[simp] theorem State.wqBroken_wins (k : Nat) : (s.wqBroken k).wins = s.wins := by simp [State.wqBroken]
@[simp] theorem State.wqBroken_resets (k : Nat) : (s.wqBroken k).resets = s.resets := by simp [State.wqBroken]
@[simp] theorem State.wqBroken_snaps (k : Nat) : (s.wqBroken k).snaps = s.snaps := by simp [State.wqBroken]
@[simp] theorem State.wqBroken_cans (k : Nat) : (s.wqBroken k).cans = s.cans := by simp [State.wqBroken]
@[simp] theorem State.wqBroken_lins (k : Nat) : (s.wqBroken k).lins = s.lins := by simp [State.wqBroken]
@[simp] theorem State.wqBroken_sers (k : Nat) : (s.wqBroken k).sers = s.sers := by simp [State.wqBroken]
@[simp] theorem State.wqBroken_srt (k : Nat) : (s.wqBroken k).srt = s.srt := by simp [State.wqBroken]
@[simp] theorem State.wqBroken_swc (k : Nat) : (s.wqBroken k).swc = s.swc := by simp [State.wqBroken]
@[simp] theorem State.wqBroken_egress (k : Nat) : (s.wqBroken k).egress = s.egress := by simp [State.wqBroken]
@[simp] theorem State.wqBroken_eths (k : Nat) : (s.wqBroken k).eths = s.eths := by simp [State.wqBroken]
@[simp] theorem State.wqBroken_pipes (k : Nat) : (s.wqBroken k).pipes = s.pipes := by simp [State.wqBroken]
@[simp] theorem State.wqBroken_fdbs (k : Nat) : (s.wqBroken k).fdbs = s.fdbs := by simp [State.wqBroken]
@[simp] theorem State.wqBroken_frer (k : Nat) : (s.wqBroken k).frer = s.frer := by simp [State.wqBroken]
@[simp] theorem State.wqBroken_eccSeen (k : Nat) : (s.wqBroken k).eccSeen = s.eccSeen := by simp [State.wqBroken]
@[simp] theorem State.wqBroken_logOvf (k : Nat) : (s.wqBroken k).logOvf = s.logOvf := by simp [State.wqBroken]
@[simp] theorem State.wqBroken_wdogBase (k : Nat) : (s.wqBroken k).wdogBase = s.wdogBase := by simp [State.wqBroken]
@[simp] theorem State.wqBroken_perst (k : Nat) : (s.wqBroken k).perst = s.perst := by simp [State.wqBroken]
@[simp] theorem State.wqBroken_trn (k : Nat) : (s.wqBroken k).trn = s.trn := by simp [State.wqBroken]
@[simp] theorem State.wqBroken_capGen (k : Nat) : (s.wqBroken k).capGen = s.capGen := by simp [State.wqBroken]
@[simp] theorem State.wqBroken_lastSlot (k : Nat) : (s.wqBroken k).lastSlot = s.lastSlot := by simp [State.wqBroken]
@[simp] theorem State.wqBroken_time (k : Nat) : (s.wqBroken k).time = s.time := by simp [State.wqBroken]
@[simp] theorem State.wqBroken_clusters (k : Nat) : (s.wqBroken k).clusters = s.clusters := by simp [State.wqBroken]
@[simp] theorem State.wqBroken_ldie (k : Nat) : (s.wqBroken k).ldie = s.ldie := by simp [State.wqBroken]
@[simp] theorem State.wqBroken_keys (k : Nat) : (s.wqBroken k).keys = s.keys := by simp [State.wqBroken]
@[simp] theorem State.wqBroken_otp (k : Nat) : (s.wqBroken k).otp = s.otp := by simp [State.wqBroken]
@[simp] theorem State.wqBroken_dbg (k : Nat) : (s.wqBroken k).dbg = s.dbg := by simp [State.wqBroken]
@[simp] theorem State.wqBroken_emc (k : Nat) : (s.wqBroken k).emc = s.emc := by simp [State.wqBroken]
@[simp] theorem State.wqBroken_pow (k : Nat) : (s.wqBroken k).pow = s.pow := by simp [State.wqBroken]
@[simp] theorem State.wqBroken_freshSaved (k : Nat) : (s.wqBroken k).freshSaved = s.freshSaved := by simp [State.wqBroken]

/-! ### Registers, counters and entries -/

/-- Two reads of one register word agree when the stores agree. -/
theorem State.reg_congr {s u : State} (h : u.regs = s.regs) (a : Nat) : u.reg a = s.reg a := by simp [State.reg, h]

theorem State.fld_congr {s u : State} (h : u.regs = s.regs) (p : Nat) (f : Fld) : u.fld p f = s.fld p f := by
  simp [State.fld, State.reg_congr h]

theorem State.count_congr {s u : State} (h : u.cnt = s.cnt) (p off : Nat) : u.count p off = s.count p off := by
  simp [State.count, h]

theorem State.ent_congr {s u : State} (h : u.tabs = s.tabs) (p tab bank idx : Nat) :
    u.ent p tab bank idx = s.ent p tab bank idx := by simp [State.ent, h]

/-- A register reads what was stored in it. -/
@[simp] theorem State.reg_setReg_same (a : Nat) (v : Word) : (s.setReg a v).reg a = v := by simp [State.reg, State.setReg]

/-- Storing one register leaves every other register alone. -/
theorem State.reg_setReg_ne {a b : Nat} (h : b ≠ a) (v : Word) : (s.setReg a v).reg b = s.reg b := by
  simp [State.reg, State.setReg, smGet_smSet_ne _ _ h]

/-- A field reads what was put in it, cut to its width. -/
theorem State.fld_setFld_same (p : Nat) (f : Fld) (x : Nat) (h : f.lo + f.w ≤ 32) :
    (s.setFld p f x).fld p f = x % 2 ^ f.w := by
  simp [State.fld, State.setFld, fget_fput_same _ f x h]

/-- Putting a field leaves the other fields of its register alone. -/
theorem State.fld_setFld_word (p : Nat) (f g : Fld) (x : Nat) (h : f.lo + f.w ≤ 32) (ho : g.off = f.off)
    (hd : g.lo + g.w ≤ f.lo ∨ f.lo + f.w ≤ g.lo) : (s.setFld p f x).fld p g = s.fld p g := by
  simp [State.fld, State.setFld, ho, fget_fput_ne _ f g x h hd]

/-- Putting a field leaves every other register alone. -/
theorem State.fld_setFld_ne (p q : Nat) (f g : Fld) (x : Nat) (h : q * 4096 + g.off ≠ p * 4096 + f.off) :
    (s.setFld p f x).fld q g = s.fld q g := by
  simp [State.fld, State.setFld, State.reg_setReg_ne _ h]

theorem State.reg_setFld_ne (p a : Nat) (f : Fld) (x : Nat) (h : a ≠ p * 4096 + f.off) : (s.setFld p f x).reg a = s.reg a := by
  simp [State.setFld, State.reg_setReg_ne _ h]

theorem State.reg_wr_ne (p a off v : Nat) (h : a ≠ p * 4096 + off) : (s.wr p off v).reg a = s.reg a := by
  simp [State.wr, State.reg_setReg_ne _ h]

theorem State.fld_wr_ne (p q off v : Nat) (g : Fld) (h : q * 4096 + g.off ≠ p * 4096 + off) :
    (s.wr p off v).fld q g = s.fld q g := by
  simp [State.fld, State.reg_wr_ne _ _ _ _ _ h]

/-- A register reads the number stored in it, cut to 32 bits. -/
theorem State.rd_wr_same (p off v : Nat) : (s.wr p off v).rd p off = v % 2 ^ 32 := by simp [State.rd, State.wr]

theorem State.flag_setFlag_same (p : Nat) (f : Fld) (b : Bool) (h : f.lo + f.w ≤ 32) (hw : f.w = 1) :
    (s.setFlag p f b).flag p f = b := by
  simp only [State.flag, State.setFlag, State.fld_setFld_same _ _ _ _ h, hw]
  cases b <;> simp [b2n]

/-- One event adds one to its counter (R39). -/
theorem State.count_inc_same (p off : Nat) : (s.inc p off).count p off = (s.count p off + 1) % 2 ^ 64 := by
  simp [State.inc, State.addCnt, State.count, BitVec.toNat_add]

theorem State.count_addCnt_ne (p off n q o : Nat) (h : q * 4096 + o ≠ p * 4096 + off) :
    (s.addCnt p off n).count q o = s.count q o := by
  simp [State.addCnt, State.count, smGet_smSet_ne _ _ h]

@[simp] theorem State.ent_setEnt_same (p tab bank idx : Nat) (e : Entry) : (s.setEnt p tab bank idx e).ent p tab bank idx = e := by
  simp [State.ent, State.setEnt]

theorem State.ent_setEnt_ne (p tab bank idx p' tab' bank' idx' : Nat) (e : Entry)
    (h : tkey p' tab' bank' idx' ≠ tkey p tab bank idx) :
    (s.setEnt p tab bank idx e).ent p' tab' bank' idx' = s.ent p' tab' bank' idx' := by
  simp [State.ent, State.setEnt, smGet_smSet_ne _ _ h]

@[simp] theorem State.dom_setDom_same (d : Nat) (x : Dom) : (s.setDom d x).dom d = x := by simp [State.dom, State.setDom]

theorem State.dom_setDom_ne {d e : Nat} (h : e ≠ d) (x : Dom) : (s.setDom d x).dom e = s.dom e := by
  simp [State.dom, State.setDom, smGet_smSet_ne _ _ h]

@[simp] theorem State.wq_setWq_same (k : Nat) (q : WordQ) : (s.setWq k q).wq k = q := by simp [State.wq, State.setWq]

/-! ### Where interrupts and errors write -/

/-- A source bit latches in IRQ_STAT of its page (R32). -/
theorem State.raise_irq (p b : Nat) : (s.raise p b).rd p Reg.IRQ_STAT = (s.rd p Reg.IRQ_STAT ||| 2 ^ b) % 2 ^ 32 := by
  unfold State.raise State.rd
  rw [State.reg_congr (State.notify_regs _ _)]
  exact State.rd_wr_same _ _ _ _

/-- Raising a source touches no register but IRQ_STAT of its page. -/
theorem State.raise_reg (p b a : Nat) (h : a ≠ p * 4096 + Reg.IRQ_STAT) : (s.raise p b).reg a = s.reg a := by
  unfold State.raise
  rw [State.reg_congr (State.notify_regs _ _), State.reg_wr_ne _ _ _ _ _ h]

/-- Latching an error touches no register but ERR_CODE, the error stamp and IRQ_STAT of its page (R37). -/
theorem State.latch_reg (r : Report) (a : Nat) (h : a ∉ errRegs r.page) : (s.latch r).reg a = s.reg a := by
  simp only [errRegs, List.mem_cons, List.not_mem_nil, or_false, not_or] at h
  obtain ⟨h1, h2, h3, h4⟩ := h
  unfold State.latch
  split
  · exact State.reg_setFld_ne _ _ _ _ _ (by simpa using h1)
  · rw [State.raise_reg _ _ _ _ h4]
    unfold State.wr64
    rw [State.reg_wr_ne _ _ _ _ _ (by simpa using h3), State.reg_wr_ne _ _ _ _ _ h2, State.reg_wr_ne _ _ _ _ _ h1]

theorem State.report_reg (r : Report) (a : Nat) (h : a ∉ errRegs r.page) : (s.report r).reg a = s.reg a := by
  unfold State.report
  rw [State.reg_congr (State.pushReport_regs _ _), State.latch_reg _ _ _ h]

theorem State.errBy_reg (src p code a0 a1 a : Nat) (h : a ∉ errRegs p) : (s.errBy src p code a0 a1).reg a = s.reg a :=
  State.report_reg _ _ _ h

theorem State.err_reg (p code a0 a : Nat) (h : a ∉ errRegs p) : (s.err p code a0).reg a = s.reg a := State.report_reg _ _ _ h

theorem State.errAt_reg (p code a0 a1 t a : Nat) (h : a ∉ errRegs p) : (s.errAt p code a0 a1 t).reg a = s.reg a :=
  State.report_reg _ _ _ h

theorem State.errRun_reg (p code place a0 a : Nat) (h : a ∉ errRegs p) : (s.errRun p code place a0).reg a = s.reg a := by
  unfold State.errRun
  split
  · rfl
  · rw [State.err_reg _ _ _ _ _ h]; rfl

/-- A refused access touches no register but those in which its page latches the error (R37, R38). -/
theorem State.refuse_reg (d b v code a : Nat) (h : a ∉ errRegs (refusePage b)) : (s.refuse d b v code).reg a = s.reg a := by
  unfold State.refuse
  dsimp only
  (repeat' split) <;> exact State.errBy_reg _ _ _ _ _ _ _ h

/-- The first error of a page is latched with its code and the causing domain (R37). -/
theorem State.latch_first (r : Report) (h : s.flag r.page Fd.ERR_VALID = false) :
    (s.latch r).rd r.page Reg.ERR_CODE = 2 ^ 31 + r.src % 8 * 65536 + r.code % 65536 := by
  have e : ∀ q : Nat, q * 4096 + Reg.ERR_CODE ≠ q * 4096 + Reg.IRQ_STAT := fun q h => absurd (Nat.add_left_cancel h) (by decide)
  unfold State.latch
  rw [if_neg (by simp [h])]
  unfold State.rd
  dsimp only
  rw [State.raise_reg _ _ _ _ (e _)]
  unfold State.wr64
  rw [State.reg_wr_ne _ _ _ _ _ (by intro h; exact absurd (Nat.add_left_cancel h) (by decide)), State.reg_wr_ne _ _ _ _ _ (by intro h; exact absurd (Nat.add_left_cancel h) (by decide))]
  have := State.rd_wr_same s r.page Reg.ERR_CODE (2 ^ 31 + r.src % 8 * 65536 + r.code % 65536)
  unfold State.rd at this
  rw [this]
  omega

/-! ### Commands -/

@[simp] theorem State.live_advance (t : Nat) : (s.advance t).live = s.live := by simp [State.live]

@[simp] theorem State.runs_advance (t : Nat) : (s.advance t).runs? = s.runs? := by simp [State.runs?]

@[simp] theorem State.reg_advance (t a : Nat) : (s.advance t).reg a = s.reg a := State.reg_congr (by simp) a

@[simp] theorem State.fld_advance (t p : Nat) (f : Fld) : (s.advance t).fld p f = s.fld p f := State.fld_congr (by simp) p f

@[simp] theorem State.flag_advance (t p : Nat) (f : Fld) : (s.advance t).flag p f = s.flag p f := by simp [State.flag]

@[simp] theorem State.rd_advance (t p off : Nat) : (s.advance t).rd p off = s.rd p off := by simp [State.rd]

@[simp] theorem State.count_advance (t p off : Nat) : (s.advance t).count p off = s.count p off := State.count_congr (by simp) p off

@[simp] theorem State.ent_advance (t p tab bank idx : Nat) : (s.advance t).ent p tab bank idx = s.ent p tab bank idx :=
  State.ent_congr (by simp) p tab bank idx

@[simp] theorem State.owns_advance (t d p : Nat) : (s.advance t).owns d p = s.owns d p := by simp [State.owns]

@[simp] theorem State.secure_advance (t d : Nat) : (s.advance t).secure d = s.secure d := by simp [State.secure]

/-- The judgement of a write does not depend on the time. -/
@[simp] theorem State.judge_advance (t d a bits v : Nat) : (s.advance t).judge d a bits v = s.judge d a bits v := by
  simp [State.judge, State.mayClearErr, State.guardOf, State.inScope, State.holdsBracket, State.resetting]

/-- What the register port does in the states in which it answers. -/
theorem live_of {t : Nat} {f : State → State} (h : s.live = true) : live t s f = .next (s.queueOf (f (s.advance t))) := by
  simp [live, always, h]

/-- What a function of the device does in the states in which it runs. -/
theorem running_of {t : Nat} {f : State → State} (h : s.runs? = true) :
    running t s f = .next (s.queueOf (f (s.advance t))) := by
  simp [running, always, h]

/-- A command completes as its meaning does. -/
theorem completes_of {c : Instr} {s : State} {Q : State → Prop} (r : Res) (he : exec c s = r)
    (h : ∃ u, r = .next u ∧ Q u) : Completes c s Q := by
  obtain ⟨u, hu, hq⟩ := h; exact ⟨u, he.trans hu, hq⟩

/-- A meaning of the register port ends in its effect. -/
theorem next_live {s : State} {t : Nat} {f : State → State} {Q : State → Prop} (h : s.live = true)
    (hq : Q (s.queueOf (f (s.advance t)))) : ∃ u, live t s f = .next u ∧ Q u := ⟨_, live_of s h, hq⟩

/-- A meaning of a function of the device ends in its effect. -/
theorem next_running {s : State} {t : Nat} {f : State → State} {Q : State → Prop} (h : s.runs? = true)
    (hq : Q (s.queueOf (f (s.advance t)))) : ∃ u, running t s f = .next u ∧ Q u := ⟨_, running_of s h, hq⟩

/-- A meaning of the line die ends in its effect. -/
theorem next_always {s : State} {t : Nat} {f : State → State} {Q : State → Prop}
    (hq : Q (s.queueOf (f (s.advance t)))) : ∃ u, always t s f = .next u ∧ Q u := ⟨_, rfl, hq⟩

/-- A write that passes checks 1 to 6 of R555 is carried out. -/
theorem State.judged_ok {d a bits v : Nat} {f : State → State} (h : s.judge d a bits v = none) : s.judged d a bits v f = f s := by
  simp [State.judged, h]

/-- A write that fails one of them is refused with its code. -/
theorem State.judged_bad {d a bits v c : Nat} {f : State → State} (h : s.judge d a bits v = some c) :
    s.judged d a bits v f = s.refuse d a v c := by
  simp [State.judged, h]

end Sys2Proof.Machine
end

