-- ==== Sys2Proof/Tests/Slice0.lean ====
section
/-!
SUPPORT. Tests: worked examples of the spec, single commands, ill-formed commands that WellFormed refuses, and for every
obligation with hypotheses a state and operands that meet them, clause by clause.
-/

open Sys2Proof Sys2Proof.Machine

namespace Sys2Proof.Tests

set_option Elab.async false

/-! ### States -/

/-- READY, every register at its reset value. -/
def up : State := { boot := .ready }
/-- Fields of registers set. -/
def flds (l : List (Nat × Fld × Nat)) (s : State) : State := l.foldl (fun s x => s.setFld x.1 x.2.1 x.2.2) s
/-- Fields of window table entries set: page, table, bank, index. -/
def ents (l : List (Nat × Nat × Nat × Nat × Fld × Nat)) (s : State) : State :=
  l.foldl (fun s x => s.setEntF x.1 x.2.1 x.2.2.1 x.2.2.2.1 x.2.2.2.2.1 x.2.2.2.2.2) s
/-- D0 owns page `p`. -/
def own (p : Nat) (s : State) : State := s.wr p Reg.OWNER 0
/-- What holds of every content of an empty option. -/
theorem of_none {α : Type} {P : α → Prop} {x : Option α} (h : x = none) : ∀ a, x = some a → P a := by
  intro a e; rw [h] at e; cases e
/-- CAN channel `n` in mode `m`. -/
def can (n m : Nat) : State := flds [(pCANC n, Fd.CANC_MODE_CUR, m)] up
/-- The same, with `REQ` at `q`. -/
def canq (n m q : Nat) : State := flds [(pCANC n, Fd.CANC_MODE_CUR, m), (pCANC n, Fd.CANC_MODE_REQ, q)] up
/-- LIN channel `n` in mode `m`, REQ at RUN, of role `r` (0 master, 1 slave). -/
def lin (n m r : Nat) : State := flds [(pLINC n, Fd.LINC_MODE_CUR, m), (pLINC n, Fd.LINC_MODE_REQ, 1), (pLINC n, Fd.LINC_CFG_ROLE, r)] up
/-- Serial line `k` in mode `m`, REQ at RUN. -/
def ser (k m : Nat) : State := flds [(pSER k, Fd.SER_MODE_CUR, m), (pSER k, Fd.SER_MODE_REQ, 1)] up
/-- The router enabled, inputs `l` held. -/
def rt (l : List RIn) : State := { flds [(pSRT, Fd.CTRL_ENABLE, 1)] up with srt := { field := l } }
/-- Ethernet port `p` in state `st` with link `l`. -/
def eth (p st l : Nat) : State := flds [(pEPRT p, Fd.CTRL_ENABLE, 1), (pEPRT p, Fd.EPRT_STATE_STATE, st), (pEPRT p, Fd.EPRT_STATE_LINK, l)] up
/-- 60 bytes to MAC address 5 from MAC address 9, and their FCS. -/
def frame64 : List Nat := let b := [0, 0, 0, 0, 0, 5, 0, 0, 0, 0, 0, 9] ++ List.replicate 48 0; b ++ fcsOf b
/-- A copy of that frame, admitted on port `p`. -/
def cp (p : Nat) : Copy := { pkt := none, bytes := frame64, mem := 1, enq := 0, info := { port := p } }
/-- The switch core, egress and database 1 enabled. -/
def sw : State := flds [(pSWC, Fd.CTRL_ENABLE, 1), (pEGR, Fd.CTRL_ENABLE, 1), (pFDB 1, Fd.CTRL_ENABLE, 1), (pPIPE 1, Fd.CTRL_ENABLE, 1)] up
/-- The switch with a copy at the front of pipeline 1 whose destination stands in the stash of database 1. -/
def atFront : State := { ents [(pFDB 1, 1, 0, 1, En.VLAN_LEARN_EN, 0), (pPIPE 1, 0, 0, 20, En.PPORT_LANE_MASK, 0), (pFDB 1, 0, 0, 16384, En.FENT_VALID, 1), (pFDB 1, 0, 0, 16384, En.FENT_MAC, 5), (pFDB 1, 0, 0, 16384, En.FENT_DEST, 21), (pFDB 1, 0, 0, 16384, En.FENT_FID, 1)] sw with swc := { front := [(1, [cp 20])] } }
/-- D3's ring `r` of table `tab`: valid, running, in host memory, 16 entries, TAIL 5. -/
def ring (tab : Nat) : State :=
  { ents [(pHDOM 3, tab, 0, 3, En.RING_VALID, 1), (pHDOM 3, tab, 0, 3, En.RING_STATE, 1), (pHDOM 3, tab, 0, 3, En.RING_LOC, 0), (pHDOM 3, tab, 0, 3, En.RING_TAIL, 5), (pHDOM 3, tab, 0, 3, En.RING_SRC_PORT, 33), (pHDOM 3, tab, 0, 3, En.RING_QMASK, 255)] sw with doms := [(3, { bme := true })] }
/-- A descriptor with its ownership bit, a buffer at `a` and length `n`. -/
def descr (n : Nat) : List Nat := leBytes 8 4096 ++ leBytes 2 n ++ [1] ++ List.replicate 21 0
/-- The Transcript enabled, with entry `e` of the Quotation table in state `st`, its window from `a` to `b`. -/
def qt (e st a b : Nat) : State :=
  ents [(pTRN, 2, 0, e, En.QENT_STATE, st), (pTRN, 2, 0, e, En.QENT_START, a), (pTRN, 2, 0, e, En.QENT_END, b)] (flds [(pTRN, Fd.CTRL_ENABLE, 1), (pTRN, Fd.TRN_QCFG_SRC_EN, 3)] up)
/-- Low record. -/
def rec0 : Rec := ⟨false, 5, 1, 0, 0, 7, [1, 2, 3]⟩
/-- The key store enabled, life-cycle state 3, D0 owner of key port `k`, KEY_ATTR `a`, KEY_SUBJ `h`, and slot 9 valid with
generation 1 and attributes `b`. -/
def key (k a h b : Nat) : State :=
  ents [(pKEY 0, 0, 0, 9, En.KSLOT_VALID, 1), (pKEY 0, 0, 0, 9, En.KSLOT_GEN, 1), (pKEY 0, 0, 0, 9, En.KSLOT_ATTR, b / 16)]
    (flds [(pOTP, Fd.OTP_STATUS_LC, 3), (pKEY 0, Fd.CTRL_ENABLE, 1), (pKEY k, ⟨Reg.KEY_ATTR, 0, 32⟩, a), (pKEY k, ⟨Reg.KEY_SUBJ, 0, 32⟩, h)] (own (pKEY k) up))
/-- Cluster `c` enabled in state `st`, and NM. -/
def nm (c st : Nat) : State :=
  flds [(pNM, Fd.CTRL_ENABLE, 1), (pNM, Fd.NM_CL_CFG_ENABLE.at 0x40 c, 1), (pNM, Fd.NM_CL_STATE_STATE.at 0x40 c, st), (pNM, Fd.NM_CL_CAN_CH.at 0x40 c, 2 ^ 15), (pNM, Fd.NM_CL_SEG_T1S.at 0x40 c, 128)] up
/-- The OTP macro of life-cycle state `x`, owned by D0. -/
def otp (x : Nat) : State := flds [(pOTP, Fd.OTP_STATUS_LC, x)] (own pOTP up)
/-- External memory enabled with a host region of 1 MiB. -/
def emc : State := flds [(pEMC, Fd.CTRL_ENABLE, 1), (pEMC, Fd.EMC_HOST_LOG2, 1), (pEMC, Fd.EMC_HOST_ACTIVE_LOG2, 1)] up
/-- A report of the switch core. -/
def rep : Report := ⟨pSWC, Er.SWC_SPILL_ECC, 7, 5, 0, 3, 0, false, true, false⟩

/-! ### Worked examples of the spec -/

/-- The identity example of 00_scope.md: the page at 0x010_3000 is CANC[3], and bits [15:8] of its ID hold 3. -/
theorem test_page_identity : pCANC 3 = 0x103 ∧ fget (resetWord 0x103000) ⟨0, 8, 8⟩ = 3 := by decide +kernel

/-- 500 kbit/s with a 4 Mbit/s data phase (04_can_controllers.md): the reset words, and 160 and 20 mtq per bit. -/
theorem test_can_timing :
    resetWord (pCANC 0 * 4096 + Reg.CANC_NBTIM) = 0x007E3E7C ∧ resetWord (pCANC 0 * 4096 + Reg.CANC_DBTIM) = 0x01A42000 ∧
    bitMtq 0 126 31 31 = some 160 ∧ bitMtq 0 13 4 4 = some 20 ∧ up.canTiming 0 = true := by decide +kernel

/-- A 10 ms slot at 19.2 kbit/s (05_lin_serial.md): LINC_BAUD, 6.458 ms for an 8-byte frame, 9.042 ms with RESP_PCT. -/
theorem test_lin_frame_time :
    resetWord (pLINC 0 * 4096 + Reg.LINC_BAUD) = 0x1046B ∧ up.linFrameNs 0 8 = 6458365 ∧
    up.linFrameNs 0 8 * up.fld (pLINC 0) Fd.LINC_TIMING_RESP_PCT / 100 = 9041711 := by decide +kernel

/-- Converting a stamp across two journal entries (03_time_base.md): in the first piece, at the boundary, in the second. -/
theorem test_view_conversion :
    let a : Piece := ⟨10 ^ 9 * 65536, 18 * 10 ^ 17 * 65536, 819200, true⟩
    let b : Piece := ⟨61 * 10 ^ 9 * 65536, 1800000060000000750 * 65536, -475136, false⟩
    chainValue [b, a] (31 * 10 ^ 9 * 65536) = some (1800000030000000375 * 65536) ∧
    chainValue [b, a] (61 * 10 ^ 9 * 65536) = some (1800000060000000750 * 65536) ∧
    chainValue [b, a] (151 * 10 ^ 9 * 65536) = some (1800000150000000097 * 65536 + 0x8000) := by decide +kernel

/-- J1939 signals onto CAN FD (06_signal_router.md): maps 200 and 202 on the data 00 00 34 12 00 20 F6 4E. -/
theorem test_signal_fields :
    let x := leNat [0, 0, 0x34, 0x12, 0, 0x20, 0xF6, 0x4E]
    getField x (fieldPos 0 16 16) = 0x1234 ∧ getField x (fieldPos 0 44 2) = 2 ∧ getField x (fieldPos 0 48 12) = 0xEF6 ∧
    leBytes 8 (putField 0 (fieldPos 1 55 16) 0x1234) = [0, 0, 0, 0, 0, 0, 0x12, 0x34] ∧
    leBytes 11 (putField 0 (fieldPos 1 79 16) 0xFEF6) = [0, 0, 0, 0, 0, 0, 0, 0, 0, 0xFE, 0xF6] := by decide +kernel

/-- CAN frames into one 1722 PDU (06_signal_router.md): 24 bytes with acf_msg_length 6, and 80 with 20. -/
theorem test_acf_lengths :
    let x : RSrc := { route := 0, bank := 0, cls := 0, f := {}, stamp := 0 }
    let m := up.acfMsg x { fmt := 1, id := 5, len := 8, data := List.replicate 8 1 } false
    let l := up.acfMsg x { fmt := 3, id := 5, len := 64, data := List.replicate 64 1 } false
    m.length = 24 ∧ m.take 2 = [2, 6] ∧ l.length = 80 ∧ l.take 2 = [2, 20] := by decide +kernel

/-- A 6 ms flap on a camera port (07_ethernet_ports.md): the head of queue 6 is exactly 5.0 ms old and kept, 5.1 ms old and aged. -/
theorem test_age_check :
    let s := flds [(pEPRT 4, Fd.EPRT_AGE_LIMIT.at 4 6, 50)] up
    s.aged 4 6 1003800000 998800000 = false ∧ s.aged 4 6 1003900000 998800000 = true ∧
    s.aged 4 2 1003900000 998800000 = false := by decide +kernel

/-- A learn with one relocation (09_forwarding.md): the slots of bucket 0x155 on side 0, 0x3A2 and 0x6F0 on side 1. -/
theorem test_fdb_slots :
    bucketSlots 0 0x155 = [1364, 1365, 1366, 1367] ∧ bucketSlots 1 0x3A2 = [11912, 11913, 11914, 11915] ∧
    bucketSlots 1 0x6F0 = [15296, 15297, 15298, 15299] := by decide +kernel

/-- A 1 ms cycle for door commands and cameras (11_egress_redundancy.md): entry 0 to 100 µs, entry 1 for the rest. -/
theorem test_gate_segments :
    let s := ents [(pEGR, 3, 0, 4, En.GLP_LEN, 2), (pEGR, 3, 0, 4, En.GLP_CYCLE, 1000000), (pEGR, 2, 0, 1024, En.GLE_INTERVAL, 100000), (pEGR, 2, 0, 1025, En.GLE_INTERVAL, 900000)] up
    (s.segsOf 4 0).map (fun g => (g.e, g.lo, g.hi)) = [(0, 0, 100000), (1, 100000, 1000000)] := by decide +kernel

/-- A serial fault burst (20_fault_log.md): a report 0.8 ms after the newest entry's stamp merges, one 1.2 ms after it does not. -/
theorem test_log_merge :
    let s := ents [(pLOG, 0, 0, 0, ⟨0, 80, 16⟩, Er.SER_PARITY), (pLOG, 0, 0, 0, ⟨0, 0, 64⟩, 5000000), (pLOG, 0, 0, 0, ⟨0, 128, 16⟩, pSER 2)]
      (flds [(pLOG, Fd.LOG_STATUS_HEAD, 1), (pLOG, Fd.LOG_STATUS_COUNT, 1), (pLOG, Fd.LOG_CFG_MERGE_US, 1000)] up)
    s.logMerges ⟨pSER 2, Er.SER_PARITY, 7, 5800000, 0, 0, 0, false, true, false⟩ = true ∧
    s.logMerges ⟨pSER 2, Er.SER_PARITY, 7, 6200000, 0, 0, 0, false, true, false⟩ = false := by decide +kernel

/-! ### Single commands -/

/-- The next state of an outcome. -/
def nextOf (s : State) : Host.Outcome State Fault Refusal → State
  | .next u => u
  | _ => s

/-- A domain that does not own a page cannot write its registers: the code is latched with the domain (R34, R37). -/
theorem test_write_refused :
    let u := nextOf up (step { up with pending := [.registerWrite 0 1 (pLOG * 4096 + Reg.IRQ_EN) 32 5 false false] })
    u.rd pLOG Reg.IRQ_EN = 0 ∧ u.fld pLOG Fd.ERR_CODE = Er.REG_NOT_OWNER ∧ u.fld pLOG Fd.ERR_SRC_DOMAIN = 1 := by decide +kernel

/-- Two window commands wait: the second of them runs in the second step (first in, first out). -/
theorem test_queue_order :
    let s := { up with pending := [.ownerClaim 0 2 pLOG, .registerWrite 0 2 (pLOG * 4096 + Reg.IRQ_EN) 32 5 false false] }
    let u := nextOf s (step s)
    u.owns 2 pLOG = true ∧ u.rd pLOG Reg.IRQ_EN = 0 ∧ (nextOf u (step u)).rd pLOG Reg.IRQ_EN = 5 ∧
    (nextOf u (step u)).pending = [] := by decide +kernel

/-- An item of the log FIFO is popped word by word, the idle word follows (R97). -/
theorem test_word_queue :
    let s := { own pLOG up with wqs := [(37, { a := [5, 6], aUsed := 2 })] }
    let u := nextOf s (exec (.wordQueuePop 0 0 37 false) s)
    (u.wq 37).a = [6] ∧ u.out = [.read 0 (pLOG * 4096 + Reg.LOG_FIFO) 5] := by decide +kernel

/-- FIPS 197, appendix C.1: the example of AES-128. -/
theorem test_aes_128 : beNat (aesBlock (aesKeys 128 0x000102030405060708090A0B0C0D0E0F)
    (beBytes 16 0x00112233445566778899AABBCCDDEEFF)) = 0x69C4E0D86A7B0430D8CDB78070B4C55A := by decide +kernel

/-- RFC 4493, example 3: AES-CMAC of 40 bytes. -/
theorem test_cmac_40_bytes : cmac 128 0x2B7E151628AED2A6ABF7158809CF4F3C
    (beBytes 40 0x6BC1BEE22E409F96E93D7E117393172AAE2D8A571E03AC9C9EB76FAC45AF8E5130C81C46A35CE411)
    = 0xDFA66747DE9AE63030CA32611497C827 := by decide +kernel

/-- The GCM specification, test case 2: the tag over one enciphered block of zeros. -/
theorem test_gcm_one_block : gcmTag 128 0 0 [] (gcmStream 128 0 0 16) = 0xAB6E47D42CEC13BDF53A67B21257BDDF := by decide +kernel

/-- FIPS 180-4: SHA-256 of "abc". -/
theorem test_sha256_abc :
    sha256 [0x61, 0x62, 0x63] = 0xBA7816BF8F01CFEA414140DE5DAE2223B00361A396177A9CB410FF61F20015AD := by decide +kernel

/-- RFC 6979, A.2.5: the public key of the P-256 example. -/
theorem test_p256_public : (p256Public 0xC9AFA9D845BA75166B5C215767B1D6934E50C3DB36E89B127B8A622B120F6721).1 =
    0x60FED4BA255A9D31C961EB74C6356D68C049B8923B61FA6CE669622E60F29FB6 := by decide +kernel
/-- The table gives no command a word. -/
theorem test_no_word : decodeTableWord 0 0 = none ∧ (up.withFetchWord 16 5).pending = [] := by decide +kernel

/-! ### Ill-formed commands, one for each operand that has a range -/

theorem test_ill_formed_registers : (
    [.registerWrite 0 (2 ^ 80) 0 32 0 false false, .registerWrite 0 0 (2 ^ 80) 32 0 false false,
    .registerWrite 0 0 0 (2 ^ 80) 0 false false, .registerWrite 0 0 0 32 (2 ^ 80) false false,
    .rcRead 0 (2 ^ 80) 0 32 false false false, .rcRead 0 0 (2 ^ 80) 32 false false false,
    .rcRead 0 0 0 (2 ^ 80) false false false, .wordQueuePop 0 (2 ^ 80) 0 false, .wordQueuePop 0 0 (2 ^ 80) false,
    .keyMaterialRead 0 (2 ^ 80) pLOG, .keyMaterialRead 0 0 (2 ^ 80), .errCodeClear 0 (2 ^ 80) 0, .errCodeClear 0 0 (2 ^ 80),
    .irqTest 0 (2 ^ 80) 0 0, .irqTest 0 0 (2 ^ 80) 0, .irqTest 0 0 0 (2 ^ 80), .ctrlEnable 0 (2 ^ 80) 0 false,
    .ctrlEnable 0 0 (2 ^ 80) false, .ctrlFreeze 0 (2 ^ 80) 0 false, .ctrlFreeze 0 0 (2 ^ 80) false, .softReset 0 (2 ^ 80) 0,
    .softReset 0 0 (2 ^ 80), .softResetDone 0 (2 ^ 80), .ctrlCommit 0 (2 ^ 80) 0, .ctrlCommit 0 0 (2 ^ 80),
    .bankSwitch 0 (2 ^ 80), .drainDone 0 (2 ^ 80), .ownerClaim 0 (2 ^ 80) 0, .ownerClaim 0 0 (2 ^ 80),
    .ownerTransfer 0 (2 ^ 80) 0 0, .ownerTransfer 0 0 (2 ^ 80) 0, .ownerTransfer 0 0 0 (2 ^ 80), .ownerRelease 0 (2 ^ 80) 0,
    .ownerRelease 0 0 (2 ^ 80), .ownerAdoption 0 (2 ^ 80) 0, .ownerAdoption 0 0 (2 ^ 80), .takeOver 0 (2 ^ 80) 0,
    .takeOver 0 0 (2 ^ 80), .snap 0 (2 ^ 80) 0, .snap 0 0 (2 ^ 80)] ++ [.cntClear 0 (2 ^ 80) 0 false,
    .cntClear 0 0 (2 ^ 80) false, .snapshotDone 0 (2 ^ 80)] : List Instr).all (fun c => !c.wf) = true := by
  decide +kernel

theorem test_ill_formed_windows : (
    [.winRead 0 (2 ^ 80) pLOG false false, .winRead 0 0 (2 ^ 80) false false, .winWrite 0 (2 ^ 80) pLOG false,
    .winWrite 0 0 (2 ^ 80) false, .winInvalidate 0 (2 ^ 80) pLOG, .winInvalidate 0 0 (2 ^ 80),
    .winFill 0 (2 ^ 80) pLOG 0 false, .winFill 0 0 (2 ^ 80) 0 false, .winFill 0 0 pLOG (2 ^ 80) false,
    .winCopy 0 (2 ^ 80) pLOG 0, .winCopy 0 0 (2 ^ 80) 0, .winCopy 0 0 pLOG (2 ^ 80), .winCmdDone 0 (2 ^ 80),
    .readClr 0 (2 ^ 80) pLOG false, .readClr 0 0 (2 ^ 80) false] : List Instr).all (fun c => !c.wf) = true := by
  decide +kernel

theorem test_ill_formed_time : (
    [.viewArm 0 (2 ^ 80) 0, .viewArm 0 0 (2 ^ 80), .viewStep 0 (2 ^ 80) 0, .viewStep 0 0 (2 ^ 80), .viewUpdate 0 (2 ^ 80) 0,
    .viewUpdate 0 0 (2 ^ 80), .viewRearm 0 (2 ^ 80) 0, .viewRearm 0 0 (2 ^ 80), .viewEnable 0 (2 ^ 80) 0 0,
    .viewEnable 0 0 (2 ^ 80) 0, .viewEnable 0 0 0 (2 ^ 80), .viewDisable 0 (2 ^ 80) 0 0, .viewDisable 0 0 (2 ^ 80) 0,
    .viewDisable 0 0 0 (2 ^ 80), .timeSnap 0 (2 ^ 80) 0, .timeSnap 0 0 (2 ^ 80), .frcRead 0 (2 ^ 80),
    .syncReceive 0 (2 ^ 80) 0 ⟨0, 0, 0, 0, 0⟩, .syncReceive 0 0 (2 ^ 80) ⟨0, 0, 0, 0, 0⟩,
    .syncReceive 0 0 0 ⟨2 ^ 16, 0, 0, 0, 0⟩, .syncRelay 0 (2 ^ 80) 0, .syncRelay 0 0 (2 ^ 80), .followUpRelay 0 (2 ^ 80) 0,
    .followUpRelay 0 0 (2 ^ 80), .syncOriginate 0 (2 ^ 80), .gptpSyncTimeout 0 (2 ^ 80), .pdelayRequest 0 (2 ^ 80),
    .pdelayResponse 0 (2 ^ 80) none, .ctmEnqueue 0 (2 ^ 80)] : List Instr).all (fun c => !c.wf) = true := by
  decide +kernel

theorem test_ill_formed_can : (
    [.cancModeReq 0 (2 ^ 80) 0 0, .cancModeReq 0 0 (2 ^ 80) 0, .cancModeReq 0 0 0 (2 ^ 80), .integrationDone 0 (2 ^ 80),
    .modeChangeAtIdle 0 (2 ^ 80), .ardDwellExpiry 0 (2 ^ 80), .ardLock 0 (2 ^ 80), .canFrameReceived 0 (2 ^ 80) {} 0 0,
    .canFrameReceived 0 0 { id := 2048 } 0 0, .canFrameReceived 0 0 {} (2 ^ 80) 0, .canFrameReceived 0 0 {} 0 (2 ^ 80),
    .protocolException 0 (2 ^ 80), .canErrorDetected 0 (2 ^ 80) ⟨.stuff, false, false, 0, 0⟩, .recover 0 (2 ^ 80) 0 0,
    .recover 0 0 (2 ^ 80) 0, .recover 0 0 0 (2 ^ 80), .busOn 0 (2 ^ 80), .canTxbReq 0 (2 ^ 80) 0 0,
    .canTxbReq 0 0 (2 ^ 80) 0, .canTxbReq 0 0 0 (2 ^ 80), .canTxbCancel 0 (2 ^ 80) 0 0, .canTxbCancel 0 0 (2 ^ 80) 0,
    .canTxbCancel 0 0 0 (2 ^ 80), .rtqEntry 0 (2 ^ 80) {}, .rtqEntry 0 0 { id := 2048 }, .txArbitration 0 (2 ^ 80) 0,
    .txArbitration 0 0 (2 ^ 80), .canTxSuccess 0 (2 ^ 80) 0 0 0, .canTxSuccess 0 0 (2 ^ 80) 0 0,
    .canTxSuccess 0 0 0 (2 ^ 80) 0, .canDominantTimeout 0 (2 ^ 80), .driverThermalShutdown 0 false (2 ^ 80) false] : List Instr).all (fun c => !c.wf) = true := by
  decide +kernel

theorem test_ill_formed_lin_serial : (
    [.scheduleSlot 0 (2 ^ 80), .schedSwitch 0 (2 ^ 80) 0 0, .schedSwitch 0 0 (2 ^ 80) 0, .schedSwitch 0 0 0 (2 ^ 80),
    .schedGo 0 (2 ^ 80) 0 0, .schedGo 0 0 (2 ^ 80) 0, .schedGo 0 0 0 (2 ^ 80), .linHeaderReceived 0 (2 ^ 80) 0 0 0,
    .linHeaderReceived 0 0 (2 ^ 80) 0 0, .linHeaderReceived 0 0 0 (2 ^ 80) 0, .linFrameEnd 0 (2 ^ 80) ⟨[], true, false, 0⟩,
    .linFrameEnd 0 0 ⟨[256], true, false, 0⟩, .linResponseTimeout 0 (2 ^ 80) [], .linResponseTimeout 0 0 [2 ^ 40],
    .linWake 0 (2 ^ 80) 0 0, .linWake 0 0 (2 ^ 80) 0, .linWake 0 0 0 (2 ^ 80), .linWakeReceived 0 (2 ^ 80) 0,
    .linIdleSleep 0 (2 ^ 80), .linWakeHoldoffEnd 0 (2 ^ 80), .linDominantTimeout 0 (2 ^ 80), .lincModeReq 0 (2 ^ 80) 0 0,
    .lincModeReq 0 0 (2 ^ 80) 0, .lincModeReq 0 0 0 (2 ^ 80), .serModeReq 0 (2 ^ 80) 0 0, .serModeReq 0 0 (2 ^ 80) 0,
    .serModeReq 0 0 0 (2 ^ 80), .serCharacterReceived 0 (2 ^ 80) ⟨0, 0, 0, false, false⟩,
    .serCharacterReceived 0 0 ⟨512, 0, 0, false, false⟩, .serGapExpiry 0 (2 ^ 80), .serTxReq 0 (2 ^ 80) 0 0,
    .serTxReq 0 0 (2 ^ 80) 0, .serTxReq 0 0 0 (2 ^ 80), .serTxCancel 0 (2 ^ 80) 0 0, .serTxCancel 0 0 (2 ^ 80) 0,
    .serTxCancel 0 0 0 (2 ^ 80), .serRtqEntry 0 (2 ^ 80) [], .serRtqEntry 0 0 [2 ^ 40], .serTxStart 0 (2 ^ 80),
    .serTxDone 0 (2 ^ 80)] : List Instr).all (fun c => !c.wf) = true := by
  decide +kernel

theorem test_ill_formed_router : (
    [.srtTimeout 0 (2 ^ 80), .redundancyWindowEnd 0 (2 ^ 80), .cyclicTick 0 (2 ^ 80), .imageSend 0 (2 ^ 80),
    .pduWindowEnd 0 (2 ^ 80), .srtRelease 0 (2 ^ 80) 0, .srtRelease 0 0 (2 ^ 80), .superviseEnable 0 (2 ^ 80) 0,
    .superviseEnable 0 0 (2 ^ 80)] : List Instr).all (fun c => !c.wf) = true := by
  decide +kernel

theorem test_ill_formed_ethernet : (
    [.ethFrameReceived 0 (2 ^ 80) ⟨[], 0, 0, false, 0, 0⟩ [], .ethFrameReceived 0 0 ⟨[256], 0, 0, false, 0, 0⟩ [],
    .ethFrameReceived 0 0 ⟨[], 0, 0, false, 0, 0⟩ [(2 ^ 64, 0)], .ethFrameReceived 0 0 ⟨[], 0, 0, false, 0, 0⟩ [(0, 2 ^ 64)],
    .ethFrameTransmitted 0 (2 ^ 80) 0 0 0, .ethFrameTransmitted 0 0 (2 ^ 80) 0 0, .ethFrameTransmitted 0 0 0 (2 ^ 80) 0,
    .ethFrameTransmitted 0 0 0 0 (2 ^ 80), .ethLinkDown 0 (2 ^ 80) 0, .ethLinkDown 0 0 (2 ^ 80), .linkUp 0 (2 ^ 80) 0,
    .linkUp 0 0 (2 ^ 80), .ethHoldFlush 0 (2 ^ 80), .ageCheck 0 (2 ^ 80), .anCodeWord 0 (2 ^ 80) 0 false,
    .anCodeWord 0 0 (2 ^ 80) false, .sqiRefresh 0 (2 ^ 80) 0, .sqiRefresh 0 12 (2 ^ 80), .plcaStatusChange 0 (2 ^ 80) false,
    .mmVerify 0 (2 ^ 80) false, .sleepReq 0 (2 ^ 80) 12, .sleepReq 0 0 (2 ^ 80), .wakeReq 0 (2 ^ 80) 12,
    .wakeReq 0 0 (2 ^ 80), .tc10SleepReceived 0 (2 ^ 80), .tc10Nack 0 (2 ^ 80), .tc10Wake 0 (2 ^ 80) 0,
    .tc10Wake 0 12 (2 ^ 80), .tc10WakingTimeout 0 (2 ^ 80)] : List Instr).all (fun c => !c.wf) = true := by
  decide +kernel

theorem test_ill_formed_pipeline_fdb : (
    [.pipelineEntry 0 (2 ^ 80) [] 0 [], .pipelineEntry 0 0 [(2 ^ 64, 0)] 0 [], .pipelineEntry 0 0 [(0, 2 ^ 64)] 0 [],
    .learnApply 0 (2 ^ 80), .xlearnOfferApply 0 (2 ^ 80), .agingSweepStep 0 (2 ^ 80), .search 0 (2 ^ 80) 0,
    .search 0 0 (2 ^ 80), .fdbNext 0 (2 ^ 80) 0, .fdbNext 0 0 (2 ^ 80), .insert 0 (2 ^ 80) 0, .insert 0 0 (2 ^ 80),
    .delete 0 (2 ^ 80) 0, .delete 0 0 (2 ^ 80), .flushPort 0 (2 ^ 80) 0, .flushPort 0 0 (2 ^ 80), .rehash 0 (2 ^ 80) 0,
    .rehash 0 0 (2 ^ 80), .rehashDone 0 (2 ^ 80), .fdbHash 0 (2 ^ 80) 0, .fdbHash 0 0 (2 ^ 80)] : List Instr).all (fun c => !c.wf) = true := by
  decide +kernel

theorem test_ill_formed_switch_egress : (
    [.copyEnqueue 0 [(2 ^ 64, 0)] 0, .copyEnqueue 0 [(0, 2 ^ 64)] 0, .refillDone 0 (2 ^ 80) false,
    .flushReleaseDone 0 (2 ^ 80), .transmissionSelection 0 (2 ^ 80) none 0 [],
    .transmissionSelection 0 0 none 0 [(2 ^ 64, 0)], .transmissionSelection 0 0 none 0 [(0, 2 ^ 64)],
    .gateEvent 0 (2 ^ 80) none, .macHoldAssert 0 (2 ^ 80), .gclCommit 0 (2 ^ 80) 0, .gclCommit 0 0 (2 ^ 80),
    .gclCancel 0 (2 ^ 80) 0, .gclCancel 0 0 (2 ^ 80), .gclChanged 0 (2 ^ 80), .frerReset 0 (2 ^ 80)] : List Instr).all (fun c => !c.wf) = true := by
  decide +kernel

theorem test_ill_formed_host : (
    [.hostTxFetch 0 (2 ^ 80) [] [] false, .hostTxFetch 0 0 [2 ^ 40] [] false, .hostTxFetch 0 0 [] [2 ^ 40] false,
    .hostRxDelivery 0 (2 ^ 80) [] false, .hostRxDelivery 0 32 [2 ^ 40] false, .txCompletion 0 (2 ^ 80) 0,
    .txCompletion 0 0 (2 ^ 80), .noStamp 0 (2 ^ 80) 0, .noStamp 0 0 (2 ^ 80), .doorbell 0 (2 ^ 80) 0 0 0,
    .doorbell 0 0 (2 ^ 80) 0 0, .doorbell 0 0 0 (2 ^ 80) 0, .doorbell 0 0 0 0 (2 ^ 80), .coalTimer 0 (2 ^ 80) 0 0,
    .coalTimer 0 0 (2 ^ 80) 0, .coalTimer 0 0 0 (2 ^ 80), .vecEoi 0 (2 ^ 80) 0, .vecEoi 0 0 (2 ^ 80),
    .msixUnmask 0 (2 ^ 80) false 0, .msixUnmask 0 0 false (2 ^ 80), .bar4Access 0 (2 ^ 80) 0 none 0 none,
    .bar4Access 0 0 0 (some [256]) 0 none, .bar4Access 0 0 0 none (2 ^ 80) none,
    .spiRead 0 (2 ^ 80) 0 0 false false false false, .spiRead 0 4 (2 ^ 80) 0 false false false false,
    .spiRead 0 4 0 (2 ^ 80) false false false false, .qread 0 (2 ^ 80) 0 0 false false false false,
    .qread 0 4 (2 ^ 80) 0 false false false false, .qread 0 4 0 (2 ^ 80) false false false false,
    .spiWrite 0 (2 ^ 80) 0 [] false, .spiWrite 0 4 (2 ^ 80) [] false, .spiWrite 0 4 0 [2 ^ 40] false,
    .qwrite 0 (2 ^ 80) 0 [] false, .qwrite 0 4 (2 ^ 80) [] false, .qwrite 0 4 0 [2 ^ 40] false,
    .spiWriteWord 0 (2 ^ 80) false false, .spiStatus 0 (2 ^ 80) 0, .spiId 0 (2 ^ 80), .resetEnable 0 (2 ^ 80),
    .spiReset 0 (2 ^ 80)] ++ [.flr 0 (2 ^ 80), .hotReset 0 (2 ^ 80), .hdomLinkDown 0 (2 ^ 80), .pcieLinkUp 0 (2 ^ 80),
    .perstDeassert 0 (2 ^ 80), .resetDone 0 (2 ^ 80), .hdomWdogKick 0 (2 ^ 80) 0, .hdomWdogKick 0 0 (2 ^ 80),
    .hdomWdog 0 (2 ^ 80), .acquire 0 (2 ^ 80) 0, .acquire 0 0 (2 ^ 80), .release 0 (2 ^ 80) 0, .release 0 0 (2 ^ 80),
    .clearBroken 0 (2 ^ 80) 0, .clearBroken 0 0 (2 ^ 80)] : List Instr).all (fun c => !c.wf) = true := by
  decide +kernel

theorem test_ill_formed_transcript : (
    [.segmentMaxAge 0 (2 ^ 80), .qtrig 0 (2 ^ 80) 0, .qtrig 0 0 (2 ^ 80), .heldTriggerOffer 0 (2 ^ 80),
    .quotationWindowClose 0 (2 ^ 80), .qrel 0 (2 ^ 80) 0, .qrel 0 0 (2 ^ 80), .xcmd 0 (2 ^ 80) 0, .xcmd 0 0 (2 ^ 80),
    .exportDone 0 (2 ^ 80), .trnFind 0 (2 ^ 80), .trnNext 0 (2 ^ 80), .erase 0 (2 ^ 80) 0, .erase 0 0 (2 ^ 80),
    .mramWrite 0 (2 ^ 80) 0x400000 32 0, .mramWrite 0 0 (2 ^ 80) 32 0, .mramWrite 0 0 0x400000 (2 ^ 80) 0,
    .mramWrite 0 0 0x400000 32 (2 ^ 80)] : List Instr).all (fun c => !c.wf) = true := by
  decide +kernel

theorem test_ill_formed_sleep : (
    [.nmClusterEnable 0 (2 ^ 80) 0 0, .nmClusterEnable 0 0 (2 ^ 80) 0, .nmClusterEnable 0 0 0 (2 ^ 80),
    .awake 0 (2 ^ 80) 0 0, .awake 0 0 (2 ^ 80) 0, .awake 0 0 0 (2 ^ 80), .rmr 0 (2 ^ 80) 0 0, .rmr 0 0 (2 ^ 80) 0,
    .rmr 0 0 0 (2 ^ 80), .nmFrameSend 0 (2 ^ 80), .repeatMessageEnd 0 (2 ^ 80), .nmTimeout 0 (2 ^ 80),
    .sleepCommit 0 (2 ^ 80), .commitComplete 0 (2 ^ 80), .nmFalseWake 0 (2 ^ 80), .nmOffender 0 (2 ^ 80),
    .wakeInEdge 0 (2 ^ 80) false 0 0, .wakeInEdge 0 0 false (2 ^ 80) 0, .canWup 0 (2 ^ 80) 0, .canWup 0 0 (2 ^ 80),
    .canWuf 0 (2 ^ 80) {} 0, .canWuf 0 0 { id := 2048 } 0, .canWuf 0 0 {} (2 ^ 80), .canErrcnt 0 (2 ^ 80) 0 0,
    .canErrcnt 0 0 (2 ^ 80) 0, .canErrcnt 0 0 0 (2 ^ 80), .t1sAct 0 (2 ^ 80) [], .t1sAct 0 24 [(2 ^ 64, 0)],
    .t1sAct 0 24 [(0, 2 ^ 64)]] : List Instr).all (fun c => !c.wf) = true := by
  decide +kernel

theorem test_ill_formed_keys_otp : (
    [.generate 0 (2 ^ 80) 0 0, .generate 0 0 (2 ^ 80) 0, .generate 0 0 0 (2 ^ 80), .keyImport 0 (2 ^ 80) 0 0,
    .keyImport 0 0 (2 ^ 80) 0, .keyImport 0 0 0 (2 ^ 80), .derive 0 (2 ^ 80) 0 0, .derive 0 0 (2 ^ 80) 0,
    .derive 0 0 0 (2 ^ 80), .destroy 0 (2 ^ 80) 0 0, .destroy 0 0 (2 ^ 80) 0, .destroy 0 0 0 (2 ^ 80),
    .restrict 0 (2 ^ 80) 0 0, .restrict 0 0 (2 ^ 80) 0, .restrict 0 0 0 (2 ^ 80), .attest 0 (2 ^ 80) 0 0,
    .attest 0 0 (2 ^ 80) 0, .attest 0 0 0 (2 ^ 80), .keySign 0 (2 ^ 80) 0 0, .keySign 0 0 (2 ^ 80) 0,
    .keySign 0 0 0 (2 ^ 80), .pubkey 0 (2 ^ 80) 0 0, .pubkey 0 0 (2 ^ 80) 0, .pubkey 0 0 0 (2 ^ 80), .program 0 (2 ^ 80),
    .lcAdvance 0 (2 ^ 80) 0, .lcAdvance 0 0 (2 ^ 80), .retire 0 (2 ^ 80) 0, .retire 0 0 (2 ^ 80), .otpCmdDone 0 (2 ^ 80),
    .debugLcRequest 0 (2 ^ 80), .unlockResp 0 (2 ^ 512), .returnResp 0 (2 ^ 512)] : List Instr).all (fun c => !c.wf) = true := by
  decide +kernel

theorem test_ill_formed_memory_start : (
    [.trainingDone 0 (2 ^ 80) 0 0, .trainingDone 0 0 (2 ^ 80) 0, .trainingDone 0 0 0 (2 ^ 80), .retrain 0 (2 ^ 80),
    .arbiterGrant 0 0 [(2 ^ 64, 0)] [] 0 [] 0, .arbiterGrant 0 0 [] [2 ^ 40] 0 [] 0, .refresh 0 0 (2 ^ 80),
    .scrubLine 0 (2 ^ 80) 0, .scrubLine 0 0 (2 ^ 80), .emcTemp 0 (2 ^ 80), .glbReset 0 (2 ^ 80) 0, .glbReset 0 0 (2 ^ 80),
    .logicDieResetRelease 0 false false [2 ^ 40] 0 0 0, .logicDieResetRelease 0 false false [] 0 (2 ^ 80) 0,
    .logicDieResetRelease 0 false false [] 0 0 (2 ^ 80), .refCheck 0 false false [2 ^ 40] 0 0 0,
    .refCheck 0 false false [] 0 (2 ^ 80) 0, .refCheck 0 false false [] 0 0 (2 ^ 80), .selfTestDone 0 (2 ^ 80) 0,
    .selfTestDone 0 0 (2 ^ 80), .vbatSample 0 (2 ^ 80) 0, .vbatSample 0 0 (2 ^ 80)] : List Instr).all (fun c => !c.wf) = true := by
  decide +kernel

theorem test_ill_formed_power_log : (
    [.commaRequest 0 (2 ^ 80), .periodRequest 0 (2 ^ 80) false, .hostAccessWake 0 0 (2 ^ 80), .powerFail 0 (2 ^ 80),
    .faultReport 0 (2 ^ 80), .logParity 0 (2 ^ 80) 0, .logParity 0 0 (2 ^ 80), .logClear 0 (2 ^ 80), .pinAck 0 (2 ^ 80),
    .logWdogKick 0 (2 ^ 80) 0, .logWdogKick 0 0 (2 ^ 80), .pdelayReqReceived 0 (2 ^ 80) 0 0,
    .pdelayReqReceived 0 0 (2 ^ 80) 0, .pdelayReqReceived 0 0 0 (2 ^ 80),
    .debugMemoryAccess 0 0 (some [256]) 0, .debugMemoryAccess 0 0 none (2 ^ 80), .busMasterEnable 0 (2 ^ 80) false] : List Instr).all (fun c => !c.wf) = true := by
  decide +kernel

theorem test_ill_formed_frc : [Instr.routerInput (2 ^ 80), Instr.frcRealign (2 ^ 80), Instr.winCmdDone (2 ^ 80) pLOG].all (fun c => !c.wf) = true := by
  decide +kernel

/-! ### Witnesses: the hypotheses of each obligation can be met, clause by clause -/

/-- StepRunsTheFrontCommand. -/
theorem witness_StepRunsTheFrontCommand :
    ∃ (s : State) (c : Instr) (rest : List Instr), s.pending = c :: rest :=
  ⟨{ up with pending := [.frcRealign 0] }, .frcRealign 0, [], by decide +kernel⟩

/-- StepKeepsWaitingCommandsWellFormed. -/
theorem witness_StepKeepsWaitingCommandsWellFormed :
    ∃ (s : State) (u : State), (∀ c ∈ s.pending, c.wf) ∧ step s = .next u :=
  ⟨up, up.queueOf (up.advance 163840), by refine ⟨by decide, ?_⟩; rfl⟩

/-- IdleStepTicksTheFrc. -/
theorem witness_IdleStepTicksTheFrc :
    ∃ (s : State), s.pending = [] :=
  ⟨up, by decide +kernel⟩

/-- RegisterWriteStoresOrIsRefusedWhole. -/
theorem witness_RegisterWriteStoresOrIsRefusedWhole :
    (∃ (s : State) (d : Nat) (p : Nat) (v : Nat), p < 4096 ∧ hasHeader p = true ∧ v < 2 ^ 32 ∧ p ≠ pTIME ∧
    s.takes d (p * 4096 + Reg.IRQ_EN) v) ∧
    (∃ (s : State) (d : Nat) (p : Nat) (v : Nat), p < 4096 ∧ hasHeader p = true ∧ v < 2 ^ 32 ∧ p ≠ pTIME ∧
    v / 256 % 256 ≤ 31 ∧ v % 8 ≤ 5 ∧ s.takes d (p * 4096 + Reg.IRQ_ROUTE) v) ∧
    (∃ (s : State) (d : Nat) (a : Nat) (v : Nat) (c : Nat), a < 2 ^ 24 ∧ a / 4096 ≠ pTIME ∧ v < 2 ^ 32 ∧ s.live = true ∧
    s.judge d a 32 v = some c ∧ a % 4 = 0) ∧
    (∃ (s : State) (a : Nat) (bits : Nat), a < 2 ^ 24 ∧ a / 4096 ≠ pTIME ∧ s.live = true ∧ (bits < 32 ∨ a % 4 ≠ 0) ∧
    s.flag (refusePage a) Fd.ERR_VALID = false) :=
  ⟨⟨own pLOG up, 0, pLOG, 1, by simp only [State.takes]; decide +kernel⟩,
    ⟨own pLOG up, 0, pLOG, 31 * 256 + 5, by simp only [State.takes]; decide +kernel⟩,
    ⟨up, 0, pLOG * 4096 + Reg.IRQ_EN, 1, Er.REG_NOT_OWNER, by decide +kernel⟩,
    ⟨up, pLOG * 4096 + 1, 16, by decide +kernel⟩⟩

/-- PortCommandsOfOneRegister. -/
theorem witness_PortCommandsOfOneRegister :
    (∃ (s : State) (d : Nat) (p : Nat), p < 4096 ∧ hasHeader p = true ∧ p ≠ pTIME ∧
    s.takes d (p * 4096 + Reg.ERR_CODE) (2 ^ 31)) ∧
    (∃ (s : State) (d : Nat) (p : Nat) (v : Nat), p < 4096 ∧ hasHeader p = true ∧ p ≠ pTIME ∧ v < 2 ^ 32 ∧
    s.takes d (p * 4096 + Reg.IRQ_TEST) v) ∧
    (∃ (s : State) (a : Nat) (r : RegDef), a < 2 ^ 24 ∧ a % 4 = 0 ∧ s.live = true ∧ onLineDie (a / 4096) (a % 4096) = false ∧
    inMramWindow (a / 4096) = false ∧ regDef a = some r ∧ queueAt (a / 4096) (a % 4096) = none ∧
    a ≠ pTIME * 4096 + Reg.TIME_FRC_LO ∧ a ≠ pSWC * 4096 + Reg.SWC_FREE_MIN ∧ a ≠ pSRT * 4096 + Reg.SRT_INQ_STAT) ∧
    (∃ (s : State) (d : Nat) (k : Nat) (w : Nat) (q : WordQ), k < 38 ∧ s.live = true ∧ s.owns d (wqAt k).page = true ∧
    (s.wq k).pop = some (w, q)) ∧
    (∃ (s : State) (d : Nat) (k : Nat), k < 38 ∧ s.live = true ∧ s.owns d (wqAt k).page = false) :=
  ⟨⟨own pLOG up, 0, pLOG, by simp only [State.takes]; decide +kernel⟩,
    ⟨own pLOG up, 0, pLOG, 2 ^ 32 - 1, by simp only [State.takes]; decide +kernel⟩,
    ⟨up, pLOG * 4096 + Reg.IRQ_EN, (regDef (pLOG * 4096 + Reg.IRQ_EN)).getD ⟨0, 0, 0, 0, 0, 0, 0, 0, 0⟩, by decide +kernel⟩,
    ⟨{ own pLOG up with wqs := [(37, { a := [5], aUsed := 1 })] }, 0, 37, 5, { a := [], aUsed := 1 }, by decide +kernel⟩,
    ⟨up, 0, 37, by decide +kernel⟩⟩

/-- ControlRegisterCommands. -/
theorem witness_ControlRegisterCommands :
    (∃ (s : State) (d : Nat) (p : Nat) (on : Bool), (p = pPIPE 0 ∨ p = pPIPE 1 ∨ p = pSWC) ∧
    s.takes d (p * 4096 + Reg.CTRL) (b2n on + 4 * b2n (s.frozen p))) ∧
    (∃ (s : State) (d : Nat) (p : Nat) (on : Bool), (p = pPIPE 0 ∨ p = pPIPE 1 ∨ p = pSWC) ∧
    s.takes d (p * 4096 + Reg.CTRL) (b2n (s.enabled p) + 4 * b2n on)) ∧
    (∃ (s : State) (d : Nat) (p : Nat) (b : Blk), isControlPage p = true ∧ blkOf p = some b ∧ alwaysEnabled b = false ∧
    b ≠ .emc ∧ s.takes d (p * 4096 + Reg.CTRL) (s.ctrlNow p + 2)) ∧
    (∃ (s : State) (p : Nat), s.live = true ∧ p ∈ s.resets ∧ s.enabled p = false) ∧
    (∃ (s : State) (d : Nat) (p : Nat), (p = pSRT ∨ p = pPIPE 0 ∨ p = pPIPE 1) ∧ s.flag p Fd.STATUS_DRAINING = false ∧
    s.takes d (p * 4096 + Reg.CTRL) (s.ctrlNow p + 8)) :=
  ⟨⟨own pSWC up, 0, pSWC, true, by simp only [State.takes]; decide +kernel⟩,
    ⟨own pSWC up, 0, pSWC, true, by simp only [State.takes]; decide +kernel⟩,
    ⟨own pSWC up, 0, pSWC, .swc, by simp only [State.takes]; decide +kernel⟩,
    ⟨{ up with resets := [pSWC] }, pSWC, by decide +kernel⟩,
    ⟨own pSRT up, 0, pSRT, by simp only [State.takes]; decide +kernel⟩⟩

/-- BankSwitchAndDrain. -/
theorem witness_BankSwitchAndDrain :
    (∃ (s : State), s.runs? = true ∧ s.flag pSRT Fd.STATUS_COMMIT_PENDING = true) ∧
    (∃ (s : State) (i : Nat), i < 2 ∧ s.runs? = true ∧ s.flag (pFDB i) Fd.STATUS_COMMIT_PENDING = true) ∧
    (∃ (s : State) (i : Nat), i < 2 ∧ s.runs? = true ∧ s.flag (pFDB i) Fd.STATUS_DRAINING = true) ∧
    (∃ (s : State) (i : Nat), i < 2 ∧ s.runs? = true ∧ s.flag (pPIPE i) Fd.STATUS_DRAINING = true ∧
    s.fld (pPIPE i) Fd.PIPE_INFLIGHT_PREV_COUNT = 0) :=
  ⟨⟨flds [(pSRT, Fd.STATUS_COMMIT_PENDING, 1)] up, by decide +kernel⟩,
    ⟨flds [(pFDB 1, Fd.STATUS_COMMIT_PENDING, 1)] up, 1, by decide +kernel⟩,
    ⟨flds [(pFDB 1, Fd.STATUS_DRAINING, 1)] up, 1, by decide +kernel⟩,
    ⟨flds [(pPIPE 1, Fd.STATUS_DRAINING, 1)] up, 1, by decide +kernel⟩⟩

/-- OwnershipMovesAlongTable9. -/
theorem witness_OwnershipMovesAlongTable9 :
    (∃ (s : State) (d : Nat) (p : Nat), d < 6 ∧ hasHeader p = true ∧ s.takes d (p * 4096 + Reg.OWNER) d ∧
    s.flag p Fd.OWNER_UNOWNED = true ∧ s.flag p Fd.OWNER_LOCKED = false ∧ (securePage p = true → s.secure d = true)) ∧
    (∃ (s : State) (d : Nat) (p : Nat) (x : Nat), d < 6 ∧ x < 6 ∧ x ≠ d ∧ hasHeader p = true ∧
    s.takes d (p * 4096 + Reg.OWNER) x ∧ s.owns d p = true ∧ s.flag p Fd.OWNER_ORPHANED = false ∧
    s.flag p Fd.OWNER_LOCKED = false ∧ (securePage p = true → s.secure x = true)) ∧
    (∃ (s : State) (d : Nat) (p : Nat), d < 6 ∧ hasHeader p = true ∧ s.takes d (p * 4096 + Reg.OWNER) (8 + d) ∧
    s.owns d p = true ∧ s.flag p Fd.OWNER_ORPHANED = false ∧ s.flag p Fd.OWNER_LOCKED = false) ∧
    (∃ (s : State) (d : Nat) (p : Nat), d < 6 ∧ hasHeader p = true ∧ s.takes d (p * 4096 + Reg.OWNER) (16 + d) ∧
    s.owns d p = true ∧ s.flag p Fd.OWNER_ORPHANED = true) ∧
    (∃ (s : State) (d : Nat) (p : Nat), d < 6 ∧ hasHeader p = true ∧ s.takes d (p * 4096 + Reg.OWNER) d ∧
    s.flag p Fd.OWNER_UNOWNED = false ∧ s.flag p Fd.OWNER_ORPHANED = true ∧ s.flag p Fd.OWNER_LOCKED = false ∧
    s.fld p Fd.OWNER_DOMAIN ≠ d ∧ s.secure d = s.secure (s.fld p Fd.OWNER_DOMAIN)) :=
  ⟨⟨up, 5, pLOG, by simp only [State.takes]; decide +kernel⟩,
    ⟨own pLOG up, 0, pLOG, 5, by simp only [State.takes]; decide +kernel⟩,
    ⟨own pLOG up, 0, pLOG, by simp only [State.takes]; decide +kernel⟩,
    ⟨flds [(pLOG, Fd.OWNER_ORPHANED, 1)] (own pLOG up), 0, pLOG, by simp only [State.takes]; decide +kernel⟩,
    ⟨flds [(pLOG, Fd.OWNER_ORPHANED, 1)] (own pLOG up), 1, pLOG, by simp only [State.takes]; decide +kernel⟩⟩

/-- CounterSnapshotAndClear. -/
theorem witness_CounterSnapshotAndClear :
    (∃ (s : State) (d : Nat) (p : Nat), s.takes d (p * 4096 + Reg.CNT_CTRL) 1 ∧ s.flag p Fd.CNT_BUSY = false) ∧
    (∃ (s : State) (d : Nat) (p : Nat) (snap : Bool), s.takes d (p * 4096 + Reg.CNT_CTRL) (2 + b2n snap) ∧
    s.flag p Fd.CNT_BUSY = false) ∧
    (∃ (s : State), s.live = true) :=
  ⟨⟨own pLOG up, 0, pLOG, by simp only [State.takes]; decide +kernel⟩,
    ⟨own pLOG up, 0, pLOG, true, by simp only [State.takes]; decide +kernel⟩,
    ⟨up, by decide +kernel⟩⟩

/-- WindowReads. -/
theorem witness_WindowReads :
    (∃ (s : State) (d : Nat) (p : Nat), s.commands d p 1 ∧ blkOf p ≠ some .egr ∧ blkOf p ≠ some .otp ∧
    winSecret p (s.winTab p) (s.winIdx p) = false) ∧
    (∃ (s : State) (d : Nat) (p : Nat), s.commands d p 1) ∧
    (∃ (s : State) (d : Nat), s.commands d pSWC 8) ∧
    (∃ (s : State) (d : Nat) (k : Nat), k < 4 ∧ s.winTab (pKEY k) = 1 ∧ s.commands d (pKEY k) 1 ∧
    s.flag (pKEY k) Fd.ERR_VALID = false) :=
  ⟨⟨own pLOG up, 0, pLOG, by simp only [State.takes, State.commands]; decide +kernel⟩,
    ⟨own pLOG up, 0, pLOG, by simp only [State.takes, State.commands]; decide +kernel⟩,
    ⟨flds [(pSWC, Fd.WIN_TABLE, 1), (pSWC, Fd.WIN_INDEX, 288)] (own pSWC up), 0,
    by simp only [State.takes, State.commands]; decide +kernel⟩,
    ⟨flds [(pKEY 3, Fd.WIN_TABLE, 1)] (own (pKEY 3) up), 0, 3, by simp only [State.takes, State.commands]; decide +kernel⟩⟩

/-- WindowWrites. -/
theorem witness_WindowWrites :
    (∃ (s : State) (d : Nat) (i : Nat), i < 2 ∧ s.commands d (pPIPE i) 2 ∧ 1 ≤ s.winTab (pPIPE i) ∧ s.winTab (pPIPE i) ≤ 5 ∧
    pipeCheck (s.winTab (pPIPE i)) (s.winData (pPIPE i)) = none) ∧
    (∃ (s : State) (d : Nat) (i : Nat), i < 2 ∧ s.commands d (pPIPE i) 3) ∧
    (∃ (s : State) (d : Nat) (i : Nat) (cnt : Nat), i < 2 ∧ cnt < 65536 ∧ s.commands d (pPIPE i) (cnt * 65536 + 4) ∧
    s.winTab (pPIPE i) = 2 ∧ s.winIdx (pPIPE i) + max cnt 1 ≤ 2 ^ 24) ∧
    (∃ (s : State) (d : Nat) (i : Nat) (cnt : Nat), i < 2 ∧ cnt < 65536 ∧ s.commands d (pPIPE i) (cnt * 65536 + 5) ∧
    s.winIdx (pPIPE i) + max cnt 1 ≤ 2 ^ 24 ∧ s.bankOf (pPIPE i) ≤ 1) :=
  ⟨⟨flds [(pPIPE 1, Fd.WIN_TABLE, 5), (pPIPE 1, Fd.WIN_BANK, 1)] (own (pPIPE 1) up), 0, 1,
    by simp only [State.takes, State.commands]; decide +kernel⟩,
    ⟨flds [(pPIPE 1, Fd.WIN_TABLE, 2), (pPIPE 1, Fd.WIN_BANK, 1)] (own (pPIPE 1) up), 0, 1,
    by simp only [State.takes, State.commands]; decide +kernel⟩,
    ⟨flds [(pPIPE 1, Fd.WIN_TABLE, 2), (pPIPE 1, Fd.WIN_BANK, 1)] (own (pPIPE 1) up), 0, 1, 2,
    by simp only [State.takes, State.commands]; decide +kernel⟩,
    ⟨flds [(pPIPE 1, Fd.WIN_TABLE, 2), (pPIPE 1, Fd.WIN_BANK, 1)] (own (pPIPE 1) up), 0, 1, 2,
    by simp only [State.takes, State.commands]; decide +kernel⟩⟩

/-- WindowCommandDone. -/
theorem witness_WindowCommandDone :
    ∃ (s : State) (p : Nat) (r : WinRun), s.live = true ∧ blkOf p ≠ some .fdb ∧ (s.wins.find? (fun x => x.page = p) = some r) :=
  ⟨{ up with wins := [⟨pLOG, 0, 0⟩] }, pLOG, ⟨pLOG, 0, 0⟩, by decide +kernel⟩

/-- FrcHandoverAndReading. -/
theorem witness_FrcHandoverAndReading :
    (∃ (s : State), s.time.handover = true ∧ s.coarse = false ∧ s.boot ≠ .off) ∧
    (∃ (s : State), s.coarse = true ∧ s.boot ≠ .off ∧ s.pwr ≠ .comma ∧ s.pwr ≠ .periodPending) ∧
    (∃ (s : State), s.boot = .ready ∧ s.coarse = false) ∧
    (∃ (s : State), s.live = true) ∧
    (∃ (s : State) (d : Nat) (w : Nat), w % 2 = 1 ∧ s.takes d (pTIME * 4096 + Reg.TIME_SNAP_CTRL) w) :=
  ⟨⟨{ up with time := { handover := true } }, by decide +kernel⟩,
    ⟨{ up with coarse := true }, by decide +kernel⟩,
    ⟨up, by decide +kernel⟩,
    ⟨up, by decide +kernel⟩,
    ⟨own pTIME up, 0, 1, by simp only [State.takes]; decide +kernel⟩⟩

/-- ViewCommands. -/
theorem witness_ViewCommands :
    (∃ (s : State) (d : Nat) (v : Nat) (w : Nat), 1 ≤ v ∧ v < 8 ∧ s.viewOn v = false ∧ w % 4 = 1 ∧ w / 65536 % 65536 ≠ 0 ∧
    s.takes d (viewAddr Reg.TIME_VIEW_CFG v) w) ∧
    (∃ (s : State) (d : Nat) (v : Nat) (w : Nat), 1 ≤ v ∧ v < 8 ∧ s.viewOn v = true ∧ w % 4 = 0 ∧ w < 2 ^ 32 ∧
    w / 65536 % 65536 ≠ 0 ∧ (∀ p, p < 32 → s.gclBound p v = false) ∧ s.takes d (viewAddr Reg.TIME_VIEW_CFG v) w) ∧
    (∃ (s : State) (d : Nat) (v : Nat), 1 ≤ v ∧ v < 8 ∧ s.viewOn v = true ∧
    s.flag pTIME (vFld Fd.TIME_VIEW_STATE_ARMED v) = false ∧ (s.view v).everArmed = false ∧
    s.takes d (viewAddr Reg.TIME_VIEW_CMD v) 1) ∧
    (∃ (s : State) (d : Nat) (w : Nat), w % 8 ≠ 0 ∧ w / 65536 = 0x7A3E ∧ s.viewOn (w % 8) = true ∧
    s.flag pTIME (vFld Fd.TIME_VIEW_STATE_ARMED (w % 8)) = false ∧
    (s.flag pTIME Fd.TIME_CFG_REARM_SECURE = true → s.secure d = true) ∧ s.takes d (pTIME * 4096 + Reg.TIME_REARM) w) ∧
    (∃ (s : State) (t : Nat) (d : Nat) (v : Nat), 1 ≤ v ∧ v < 8 ∧ s.viewOn v = true ∧
    s.flag pTIME (vFld Fd.TIME_VIEW_CFG_SOURCE v) = false ∧ (s.advance t).viewStepOk v (s.viewDelta v) = true ∧
    (∀ p, p < 32 → s.gclBound p v = false) ∧ s.takes d (viewAddr Reg.TIME_VIEW_CMD v) 2) ∧
    (∃ (s : State) (d : Nat) (v : Nat), 1 ≤ v ∧ v < 8 ∧ s.viewOn v = true ∧
    s.flag pTIME (vFld Fd.TIME_VIEW_CFG_SOURCE v) = false ∧ rateOk (s.viewReq v) = true ∧
    ((s.viewDelta v).natAbs ≤ s.rd pTIME (Reg.TIME_VIEW_JUMP_THR + 0x40 * v) * 65536 ∨ s.rd pTIME (Reg.TIME_VIEW_JUMP_THR + 0x40 * v) = 0) ∧
    s.takes d (viewAddr Reg.TIME_VIEW_CMD v) 3) :=
  ⟨⟨own pTIME up, 0, 7, 65536 * 65535 + 1, by simp only [State.takes]; decide +kernel⟩,
    ⟨flds [(pTIME, vFld Fd.TIME_VIEW_STATE_ENABLED 7, 1)] (own pTIME up), 0, 7, 65536,
    by simp only [State.takes]; decide +kernel⟩,
    ⟨flds [(pTIME, vFld Fd.TIME_VIEW_STATE_ENABLED 7, 1)] (own pTIME up), 0, 7, by simp only [State.takes]; decide +kernel⟩,
    ⟨flds [(pTIME, vFld Fd.TIME_VIEW_STATE_ENABLED 7, 1)] (own pTIME (up.setFlag (pHDOM 0) Fd.HDOM_STATE_WORLD true)), 0,
    0x7A3E0007, by simp only [State.takes]; decide +kernel⟩,
    ⟨flds [(pTIME, vFld Fd.TIME_VIEW_STATE_ENABLED 7, 1), (pTIME, vFld Fd.TIME_VIEW_STATE_ARMED 7, 1)] (own pTIME up), 0, 0,
    7, by simp only [State.takes]; decide +kernel⟩,
    ⟨flds [(pTIME, vFld Fd.TIME_VIEW_STATE_ENABLED 7, 1)] (own pTIME up), 0, 7, by simp only [State.takes]; decide +kernel⟩⟩

/-- TimeEngines. -/
theorem witness_TimeEngines :
    (∃ (s : State), s.runs? = true ∧ s.time.wait ≠ 0 ∧ s.flag pTIME Fd.TIME_CFG_JNL_COPY = true ∧ s.enabled pTRN = true) ∧
    (∃ (s : State) (domain : Nat) (port : Nat) (i : Nat) (m : SyncMsg), s.runs? = true ∧ port < 24 ∧
    s.gptpOf domain port = some i ∧ s.flag pTIME (vFld Fd.TIME_VIEW_CFG_SOURCE (i + 1)) = false ∧
    (∀ D, s.syncDeadline i = some D → m.ingress / 65536 ≤ D) ∧ s.giF i Fd.GPTP_INST_STATE_SYNC_TIMEOUT = 0) ∧
    (∃ (s : State) (i : Nat) (port : Nat) (r : Relay), s.runs? = true ∧ s.gActive i = true ∧
    (s.ginst i).relays.find? (fun r => r.port = port && r.egress.isNone) = some r) ∧
    (∃ (s : State) (i : Nat) (port : Nat) (r : Relay), s.runs? = true ∧ s.gActive i = true ∧
    (s.ginst i).relays.find? (fun r => r.port = port && r.egress.isSome) = some r) ∧
    (∃ (s : State) (t : Nat) (i : Nat), s.runs? = true ∧ s.gActive i = true ∧ s.giF i Fd.GPTP_INST_CFG_GM ≠ 0 ∧
    (∀ l, (s.ginst i).lastOrig = some l → l + s.syncInterval i ≤ (s.advance t).now)) ∧
    (∃ (s : State) (t : Nat) (i : Nat) (D : Nat), s.runs? = true ∧ s.gActive i = true ∧
    s.giF i Fd.GPTP_INST_STATE_SYNC_TIMEOUT = 0 ∧ s.syncDeadline i = some D ∧ D + 4000 ≤ (s.advance t).now) ∧
    (∃ (s : State) (port : Nat), s.runs? = true ∧ s.pdOn port = true ∧ (s.pdPort port).req = none) ∧
    (∃ (s : State) (port : Nat) (t1 : Nat) (r : PdelayResp), s.runs? = true ∧ s.pdOn port = true ∧
    (s.pdPort port).req = some t1 ∧ (s.pdPort port).prev = none ∧ s.gpF port En.GPORT_NRR = 0 ∧
    Int.fdiv ((r.t4 : Int) - t1 - ((r.t3 : Int) - r.t2)) 2 ≤ s.gpF port En.GPORT_DELAY_THRESH * 65536) ∧
    (∃ (s : State) (port : Nat), s.runs? = true ∧ s.pdOn port = true) ∧
    (∃ (s : State) (t : Nat) (m : Nat), s.runs? = true ∧ m < 4 ∧ s.flag pTIME (ctmFld Fd.TIME_CTM_CFG_ENABLE m) = true ∧
    (s.ctm m).f0 + (s.ctm m).k * (s.rd pTIME (Reg.TIME_CTM_PERIOD + 0x10 * m) * 1000) ≤ (s.advance t).now ∧
    s.rtqRefuses (s.fld pTIME (ctmFld Fd.TIME_CTM_CFG_CHANNEL m)) = false ∧
    s.flag pTIME (ctmFld Fd.TIME_CTM_STATUS_PENDING m) = false ∧
    s.canMode (s.fld pTIME (ctmFld Fd.TIME_CTM_CFG_CHANNEL m)) ≠ 3) :=
  ⟨⟨flds [(pTIME, Fd.TIME_CFG_JNL_COPY, 1), (pTRN, Fd.CTRL_ENABLE, 1)] { up with time := { wait := 1 } }, by decide +kernel⟩,
    ⟨flds [(pGPTP, Fd.CTRL_ENABLE, 1), (pGPTP, vFld Fd.GPTP_INST_CFG_ENABLE 3, 1), (pGPTP, vFld Fd.GPTP_INST_CFG_DOMAIN_NUM 3, 9), (pGPTP, vFld Fd.GPTP_INST_STATE_SLAVE_PORT 3, 23), (pTIME, vFld Fd.TIME_VIEW_CFG_SOURCE 4, 0)] up,
    9, 23, 3, ⟨0, 65536, 0, 0, 0⟩,
    by refine ⟨by decide +kernel, by decide +kernel, by decide +kernel, by decide +kernel, of_none (by decide +kernel), by decide +kernel⟩⟩,
    ⟨{ flds [(pGPTP, Fd.CTRL_ENABLE, 1), (pGPTP, vFld Fd.GPTP_INST_CFG_ENABLE 3, 1)] up with time := { insts := [(3, { relays := [⟨23, 1, 0, 0, 0, 0, none⟩] })] } },
    3, 23, ⟨23, 1, 0, 0, 0, 0, none⟩, by decide +kernel⟩,
    ⟨{ flds [(pGPTP, Fd.CTRL_ENABLE, 1), (pGPTP, vFld Fd.GPTP_INST_CFG_ENABLE 3, 1)] up with time := { insts := [(3, { relays := [⟨23, 1, 0, 0, 0, 0, some 65536⟩] })] } },
    3, 23, ⟨23, 1, 0, 0, 0, 0, some 65536⟩, by decide +kernel⟩,
    ⟨flds [(pGPTP, Fd.CTRL_ENABLE, 1), (pGPTP, vFld Fd.GPTP_INST_CFG_ENABLE 3, 1), (pGPTP, vFld Fd.GPTP_INST_CFG_GM 3, 1)] up,
    0, 3, by refine ⟨by decide +kernel, by decide +kernel, by decide +kernel, of_none (by decide +kernel)⟩⟩,
    ⟨{ flds [(pGPTP, Fd.CTRL_ENABLE, 1), (pGPTP, vFld Fd.GPTP_INST_CFG_ENABLE 3, 1)] up with time := { insts := [(3, { last := some 0 })] } },
    2 ^ 70, 3, 3 * 125000000, by decide +kernel⟩,
    ⟨ents [(pGPTP, 0, 0, 23, En.GPORT_PDELAY_EN, 1)] (flds [(pGPTP, Fd.CTRL_ENABLE, 1)] up), 23, by decide +kernel⟩,
    ⟨{ ents [(pGPTP, 0, 0, 23, En.GPORT_PDELAY_EN, 1)] (flds [(pGPTP, Fd.CTRL_ENABLE, 1)] up) with time := { pds := [(23, { req := some 0 })] } },
    23, 0, ⟨131072, 262144, 524288⟩, by decide +kernel⟩,
    ⟨ents [(pGPTP, 0, 0, 23, En.GPORT_PDELAY_EN, 1)] (flds [(pGPTP, Fd.CTRL_ENABLE, 1)] up), 23, by decide +kernel⟩,
    ⟨flds [(pTIME, ctmFld Fd.TIME_CTM_CFG_ENABLE 3, 1), (pCANC 0, Fd.CANC_MODE_CUR, 1)] up, 0, 3, by decide +kernel⟩⟩

/-- CanModeChanges. -/
theorem witness_CanModeChanges :
    (∃ (s : State) (d : Nat) (n : Nat) (v : Nat), n < 24 ∧ s.takes d (pCANC n * 4096 + Reg.CANC_MODE) v ∧ s.canMode n = 0 ∧
    v % 16 ≠ 0 ∧ v % 16 ≤ 6 ∧ v / 4096 % 2 = 0 ∧ s.flag (pCANC n) Fd.CANC_MODE_NM_HELD = false ∧ s.canReqCheck n = none) ∧
    (∃ (s : State) (d : Nat) (n : Nat) (v : Nat), n < 24 ∧ s.takes d (pCANC n * 4096 + Reg.CANC_MODE) (v ||| 4096) ∧
    s.canMode n = 9 ∧ v % 16 ≤ 6) ∧
    (∃ (s : State) (n : Nat), n < 24 ∧ s.canClocked n = true ∧ s.canMode n = 8 ∧ s.frozen (pCANC n) = false ∧
    s.canWants n ≠ 6) ∧
    (∃ (s : State) (n : Nat), n < 24 ∧ s.canClocked n = true ∧ canOnBus (s.canMode n) = true ∧ s.canMode n ≠ 8 ∧
    (s.can n).attempt = none ∧ (s.can n).comma = false ∧ s.frozen (pCANC n) = false ∧ s.canWants n ≠ s.canMode n ∧
    s.canWants n ≠ 6) ∧
    (∃ (s : State) (n : Nat), n < 24 ∧ s.canClocked n = true ∧ s.canMode n = 10 ∧ s.canWants n ≠ 6) ∧
    (∃ (s : State) (t : Nat) (n : Nat) (k : Nat), n < 24 ∧ s.canClocked n = true ∧ s.canMode n = 6 ∧
    (s.can n).ardFrom + s.fld (pCANC n) Fd.CANC_ARD_CFG_DWELL_MS * 1000000 ≤ (s.advance t).now ∧
    (List.range 8).find? (fun k => s.fld (pCANC n) Fd.CANC_ARD_STATUS_INDEX + 1 ≤ k && (k ≤ s.fld (pCANC n) Fd.CANC_ARD_CFG_LAST && s.ardOk n k)) = some k) ∧
    (∃ (s : State) (n : Nat), n < 24 ∧ s.canClocked n = true ∧ s.canMode n = 6 ∧
    s.fld (pCANC n) Fd.CANC_ARD_CFG_MATCH ≤ (s.can n).ardMatch) :=
  ⟨⟨own (pCANC 23) (can 23 0), 0, 23, 6, by simp only [State.takes]; decide +kernel⟩,
    ⟨own (pCANC 23) (can 23 9), 0, 23, 6, by simp only [State.takes]; decide +kernel⟩,
    ⟨canq 23 8 1, 23, by decide +kernel⟩,
    ⟨canq 23 6 1, 23, by decide +kernel⟩,
    ⟨canq 23 10 1, 23, by decide +kernel⟩,
    ⟨(ents [(pCANC 23, 4, 0, 7, ⟨0, 0, 1⟩, 1), (pCANC 23, 4, 0, 7, ⟨0, 1, 32⟩, (resetWord (pCANC 23 * 4096 + Reg.CANC_NBTIM)).toNat), (pCANC 23, 4, 0, 7, ⟨0, 33, 32⟩, (resetWord (pCANC 23 * 4096 + Reg.CANC_DBTIM)).toNat)] (flds [(pCANC 23, Fd.CANC_ARD_CFG_LAST, 7)] (can 23 6))),
    2 ^ 75, 23, 7, by decide +kernel⟩,
    ⟨{ can 23 6 with cans := [(23, { ardMatch := 65535 })] }, 23, by decide +kernel⟩⟩

/-- CanReceptionAndErrors. -/
theorem witness_CanReceptionAndErrors :
    (∃ (s : State) (n : Nat) (i : Nat) (f : CanFrame) (sof : Nat) (eof : Nat), n < 24 ∧ s.canClocked n = true ∧
    s.boot = .ready ∧ s.canFmtOn n f.fmt = true ∧ (s.canMode n = 1 ∨ s.canMode n = 2 ∨ s.canMode n = 4 ∨ s.canMode n = 5) ∧
    s.fld (pCANC n) Fd.CANC_ERR_REC = 0 ∧ s.flag (pCANC n) Fd.CANC_CFG_TO_ROUTER = false ∧
    (s.fld pTRN Fd.TRN_TAP_CAN_RX).testBit n = false ∧ s.nmUp = false ∧ sof < 2 ^ 64 ∧ eof < 2 ^ 64 ∧
    ¬ (f.fmt = 4 ∧ 64 < f.len) ∧ s.canMatchObj n f = some i) ∧
    (∃ (s : State) (n : Nat) (f : CanFrame), n < 24 ∧ s.canClocked n = true ∧ s.boot = .ready ∧ s.canFmtOn n f.fmt = true ∧
    (s.canMode n = 1 ∨ s.canMode n = 2 ∨ s.canMode n = 4 ∨ s.canMode n = 5) ∧ s.fld (pCANC n) Fd.CANC_ERR_REC = 0 ∧
    s.flag (pCANC n) Fd.CANC_CFG_TO_ROUTER = false ∧ (s.fld pTRN Fd.TRN_TAP_CAN_RX).testBit n = false ∧ s.nmUp = false ∧
    ¬ (f.fmt = 4 ∧ 64 < f.len) ∧ s.canMatchObj n f = none ∧ s.flag (pCANC n) Fd.CANC_CFG_RXQ_UNMATCHED = false) ∧
    (∃ (s : State) (n : Nat), n < 24 ∧ s.canClocked n = true ∧ s.flag (pCANC n) Fd.CANC_CFG_PEX = true ∧
    (s.flag (pCANC n) Fd.CANC_CFG_FD_EN = false ∨ s.flag (pCANC n) Fd.CANC_CFG_XL_EN = false) ∧
    canOnBus (s.canMode n) = true ∧ s.canMode n ≠ 8) ∧
    (∃ (s : State) (n : Nat), n < 24 ∧ s.canClocked n = true ∧ (s.canMode n = 2 ∨ s.canMode n = 3 ∨ s.canMode n = 4) ∧
    (s.can n).attempt = none) ∧
    (∃ (s : State) (n : Nat) (e : CanFault), n < 24 ∧ s.canClocked n = true ∧ s.canMode n = 1 ∧ (s.can n).attempt = none ∧
    s.fld (pCANC n) Fd.CANC_ERR_STATE = 0 ∧ s.fld (pCANC n) Fd.CANC_ERR_TEC + e.tecInc < 128 ∧
    s.fld (pCANC n) Fd.CANC_ERR_REC + e.recInc < 128) :=
  ⟨⟨ents [(pCANC 0, 0, 0, 0, En.OBJ_VALID, 1), (pCANC 0, 0, 0, 0, En.OBJ_ID, 2047)] (flds [(pCANC 23, Fd.CANC_OBJ_RANGE_COUNT, 1), (pCANC 23, Fd.CANC_CFG_TO_ROUTER, 0)] (can 23 1)),
    23, 0, { id := 2047, len := 8, data := [1, 2, 3, 4, 5, 6, 7, 8] }, 5, 2 ^ 64 - 1, by decide +kernel⟩,
    ⟨flds [(pCANC 23, Fd.CANC_CFG_TO_ROUTER, 0), (pCANC 23, Fd.CANC_CFG_RXQ_UNMATCHED, 0)] (can 23 5), 23,
    { id := 2047, len := 8, data := [1, 2, 3, 4, 5, 6, 7, 8] }, by decide +kernel⟩,
    ⟨flds [(pCANC 23, Fd.CANC_CFG_PEX, 1)] (can 23 6), 23, by decide +kernel⟩,
    ⟨can 23 4, 23, by decide +kernel⟩,
    ⟨can 23 1, 23, ⟨CanErr.stuff, false, false, 127, 127⟩, by decide +kernel⟩⟩

/-- CanTransmission. -/
theorem witness_CanTransmission :
    (∃ (s : State) (d : Nat) (n : Nat) (b : Nat), n < 24 ∧ b < 3 ∧ s.takes d (pCANC n * 4096 + Reg.CANC_TXB_CMD) (2 ^ b) ∧
    s.nmOwnsTxb n b = false ∧ s.txbReqCheck n b = none) ∧
    (∃ (s : State) (d : Nat) (n : Nat) (b : Nat), n < 24 ∧ b < 3 ∧
    s.takes d (pCANC n * 4096 + Reg.CANC_TXB_CMD) (2 ^ (8 + b)) ∧ s.nmOwnsTxb n b = false ∧ (s.can n).nmBuf = 0 ∧
    s.txbState n b = 1) ∧
    (∃ (s : State) (n : Nat), n < 24 ∧ s.canClocked n = true ∧ s.rtqRefuses n = false) ∧
    (∃ (s : State) (t : Nat) (n : Nat) (a : Attempt), n < 24 ∧ s.canClocked n = true ∧ canSends (s.canMode n) = true ∧
    (s.can n).attempt = none ∧ s.frozen (pCANC n) = false ∧ (s.can n).comma = false ∧ s.canWants n = s.canMode n ∧
    (s.advance t).canChoose n = some a) ∧
    (∃ (s : State) (n : Nat) (a : Attempt), n < 24 ∧ s.canClocked n = true ∧ (s.can n).attempt = some a ∧ a.won = false) ∧
    (∃ (s : State) (n : Nat) (a : Attempt), n < 24 ∧ s.canClocked n = true ∧ (s.can n).attempt = some a ∧ a.won = false ∧
    a.src = 3) ∧
    (∃ (s : State) (n : Nat) (a : Attempt), n < 24 ∧ s.canClocked n = true ∧ (s.can n).attempt = some a ∧ a.won = true ∧
    a.ent = none ∧ a.src < 3 ∧ (s.txb n a.src).cancel = none ∧ (s.can n).nmBuf = 0 ∧ s.fld (pCANC n) Fd.CANC_ERR_TEC = 0 ∧
    s.flag (pCANC n) Fd.CANC_CFG_TX_ECHO = false ∧ (s.fld pTRN Fd.TRN_TAP_CANTX_TX).testBit n = false) ∧
    (∃ (s : State) (n : Nat), n < 16 ∧ n ∉ s.ldie.canReleased) ∧
    (∃ (n : Nat), n < 16) ∧
    (∃ (n : Nat), n < 8) :=
  ⟨⟨own (pCANC 23) (ents [(pCANC 23, 2, 0, 2, En.TXH_VALID, 1), (pCANC 23, 2, 0, 2, En.TXH_LENGTH, 8)] (can 23 1)), 0, 23,
    2, by simp only [State.takes]; decide +kernel⟩,
    ⟨own (pCANC 23) (flds [(pCANC 23, txbFld 2, 1)] (can 23 1)), 0, 23, 2, by simp only [State.takes]; decide +kernel⟩,
    ⟨can 23 1, 23, by decide +kernel⟩,
    ⟨{ flds [(pCANC 23, txbFld 2, 1)] (canq 23 1 1) with frc := 65536 }, 0, 23, ⟨2, none, { }, 1, false⟩, by decide +kernel⟩,
    ⟨{ can 23 1 with cans := [(23, { attempt := some ⟨0, none, {}, 0, false⟩ })] }, 23, ⟨0, none, {}, 0, false⟩,
    by decide +kernel⟩,
    ⟨{ can 23 1 with cans := [(23, { rtq := [⟨{}, 0, 0, 0⟩], attempt := some ⟨3, some ⟨{}, 0, 0, 0⟩, {}, 0, false⟩ })] }, 23,
    ⟨3, some ⟨{}, 0, 0, 0⟩, {}, 0, false⟩, by decide +kernel⟩,
    ⟨{ flds [(pCANC 23, txbFld 2, 2)] (can 23 1) with cans := [(23, { attempt := some ⟨2, none, {}, 0, true⟩ })] }, 23,
    ⟨2, none, {}, 0, true⟩, by decide +kernel⟩,
    ⟨up, 15, by decide +kernel⟩,
    ⟨15, by decide +kernel⟩,
    ⟨7, by decide +kernel⟩⟩

/-- LinModesSlotsSleepAndWake. -/
theorem witness_LinModesSlotsSleepAndWake :
    (∃ (s : State) (d : Nat) (n : Nat) (v : Nat), n < 8 ∧ s.takes d (pLINC n * 4096 + Reg.LINC_MODE) v ∧ s.linMode n = 0 ∧
    v % 16 = 1 ∧ v / 4096 % 2 = 0 ∧ s.linBaudOk n = true) ∧
    (∃ (s : State) (d : Nat) (n : Nat) (v : Nat), n < 8 ∧ s.takes d (pLINC n * 4096 + Reg.LINC_SCHED) v ∧ v % 4 = 1 ∧
    s.linTabOk n (s.fld (pLINC n) Fd.LINC_SCHED_CUR) = true ∧ s.flag (pLINC n) Fd.LINC_SCHED_GO = false) ∧
    (∃ (s : State) (d : Nat) (n : Nat) (v : Nat), n < 8 ∧ s.takes d (pLINC n * 4096 + Reg.LINC_SCHED) v ∧ v % 4 = 2 ∧
    s.linTabOk n (1 - s.fld (pLINC n) Fd.LINC_SCHED_CUR) = true) ∧
    (∃ (s : State) (t : Nat) (n : Nat) (e : Entry), n < 8 ∧ s.runs? = true ∧ s.linMode n = 1 ∧ s.linRole n = 0 ∧
    s.flag (pLINC n) Fd.LINC_SCHED_GO = true ∧ (s.lin n).slot = none ∧ (s.lin n).switch = false ∧ (s.lin n).gts = false ∧
    (s.lin n).gtsNow = false ∧ (s.lin n).frame = none ∧ (s.lin n).holdoff ≤ (s.advance t).now ∧
    s.linSched n (s.fld (pLINC n) Fd.LINC_SCHED_CUR) (s.fld (pLINC n) Fd.LINC_SCHED_POS) = e) ∧
    (∃ (s : State) (t : Nat) (n : Nat) (st : Nat) (len : Nat), n < 8 ∧ s.runs? = true ∧ s.linMode n = 1 ∧ s.linRole n = 0 ∧
    s.flag (pLINC n) Fd.LINC_SCHED_GO = true ∧ (s.lin n).slot = some (st, len) ∧ st + len ≤ (s.advance t).now ∧
    (s.lin n).switch = false ∧ (s.lin n).gtsNow = false) ∧
    (∃ (s : State) (d : Nat) (n : Nat) (v : Nat), n < 8 ∧ s.takes d (pLINC n * 4096 + Reg.LINC_MODE) (v ||| 4096) ∧
    s.linMode n = 2 ∧ v % 16 = 1 ∧ s.frozen (pLINC n) = false) ∧
    (∃ (s : State) (n : Nat) (dur : Nat), n < 8 ∧ s.runs? = true ∧ s.linMode n = 2 ∧ 150000 < dur ∧ n ∉ s.ldie.linArmed) ∧
    (∃ (s : State) (t : Nat) (n : Nat), n < 8 ∧ s.runs? = true ∧ s.linMode n = 1 ∧ s.linRole n = 1 ∧
    s.flag (pLINC n) Fd.LINC_CFG_IDLE_SLEEP = true ∧ (s.lin n).frame = none ∧
    (s.lin n).lastAct + 4000000000 ≤ (s.advance t).now) ∧
    (∃ (s : State) (t : Nat) (n : Nat), n < 8 ∧ s.runs? = true ∧ (s.lin n).holdoff ≤ (s.advance t).now) ∧
    (∃ (s : State) (n : Nat), n < 8 ∧ n ∉ s.ldie.linReleased) :=
  ⟨⟨own (pLINC 7) (lin 7 0 0), 0, 7, 1, by simp only [State.takes]; decide +kernel⟩,
    ⟨own (pLINC 7) (ents [(pLINC 7, 1, 0, 0, En.SCHE_VALID, 1)] (lin 7 1 0)), 0, 7, 1,
    by simp only [State.takes]; decide +kernel⟩,
    ⟨own (pLINC 7) (ents [(pLINC 7, 2, 0, 0, En.SCHE_VALID, 1)] (lin 7 1 0)), 0, 7, 2,
    by simp only [State.takes]; decide +kernel⟩,
    ⟨ents [(pLINC 7, 1, 0, 0, En.SCHE_VALID, 1), (pLINC 7, 1, 0, 0, En.SCHE_ID, 63)] (flds [(pLINC 7, Fd.LINC_SCHED_GO, 1)] (lin 7 1 0)),
    0, 7, fput (fput 0 En.SCHE_VALID 1) En.SCHE_ID 63, by decide +kernel⟩,
    ⟨{ flds [(pLINC 7, Fd.LINC_SCHED_GO, 1)] (lin 7 1 0) with lins := [(7, { slot := some (0, 10000000) })] }, 2 ^ 70, 7, 0,
    10000000, by decide +kernel⟩,
    ⟨own (pLINC 7) (lin 7 2 0), 0, 7, 1, by simp only [State.takes]; decide +kernel⟩,
    ⟨lin 7 2 0, 7, 150001, by decide +kernel⟩,
    ⟨flds [(pLINC 7, Fd.LINC_CFG_IDLE_SLEEP, 1)] (lin 7 1 1), 4000000000 * 65536, 7, by decide +kernel⟩,
    ⟨{ up with lins := [(7, { holdoff := 5 })] }, 5 * 65536, 7, by decide +kernel⟩,
    ⟨up, 7, by decide +kernel⟩⟩

/-- LinFrames. -/
theorem witness_LinFrames :
    (∃ (s : State) (n : Nat) (id : Nat) (dev : Nat), n < 8 ∧ s.runs? = true ∧ s.linMode n = 1 ∧ id < 64 ∧ s.linRole n = 1 ∧
    dev ≤ 150 ∧ (s.lin n).frame = none ∧ fget (s.linResp n id) En.RESP_VALID = 1 ∧ fget (s.linResp n id) En.RESP_DIR = 1) ∧
    (∃ (s : State) (n : Nat) (id : Nat) (dev : Nat), n < 8 ∧ s.runs? = true ∧ s.linMode n = 1 ∧ id < 64 ∧ s.linRole n = 1 ∧
    dev ≤ 150 ∧ (s.lin n).frame = none ∧ fget (s.linResp n id) En.RESP_VALID = 1 ∧ fget (s.linResp n id) En.RESP_DIR = 2) ∧
    (∃ (s : State) (n : Nat) (x : LinFrame) (e : LinEnd), n < 8 ∧ s.runs? = true ∧ (s.lin n).frame = some x ∧
    (x.dir = 1 ∨ x.dir = 2) ∧ x.id < 60 ∧ e.csumOk = true ∧ e.bitErr = false ∧ fget (s.linResp n x.id) En.RESP_VALID = 1 ∧
    fget (s.linResp n x.id) En.RESP_IRQ_EN = 0 ∧ fget (s.linResp n x.id) En.RESP_QUEUE = 0 ∧
    s.flag (pLINC n) Fd.LINC_CFG_TO_ROUTER = false ∧ (s.fld pTRN Fd.TRN_TAP_MISC_LIN).testBit n = false ∧ s.nmUp = false ∧
    s.frozen (pLINC n) = false ∧ s.fld (pLINC n) Fd.LINC_MODE_REQ = 1) ∧
    (∃ (s : State) (t : Nat) (n : Nat) (x : LinFrame), n < 8 ∧ s.runs? = true ∧ (s.lin n).frame = some x ∧ x.dir = 2 ∧
    fget (s.linResp n x.id) En.RESP_QUEUE = 0 ∧
    x.start + s.linFrameNs n (fget (s.linResp n x.id) En.RESP_LEN) * s.fld (pLINC n) Fd.LINC_TIMING_RESP_PCT / 100 ≤ (s.advance t).now) :=
  ⟨⟨ents [(pLINC 7, 0, 0, 63, En.RESP_VALID, 1), (pLINC 7, 0, 0, 63, En.RESP_DIR, 1), (pLINC 7, 0, 0, 63, En.RESP_LEN, 8)] (lin 7 1 1),
    7, 63, 150, by decide +kernel⟩,
    ⟨ents [(pLINC 7, 0, 0, 63, En.RESP_VALID, 1), (pLINC 7, 0, 0, 63, En.RESP_DIR, 2), (pLINC 7, 0, 0, 63, En.RESP_LEN, 8)] (lin 7 1 1),
    7, 63, 150, by decide +kernel⟩,
    ⟨{ flds [(pLINC 7, Fd.LINC_CFG_TO_ROUTER, 0)] <| ents [(pLINC 7, 0, 0, 59, En.RESP_VALID, 1), (pLINC 7, 0, 0, 59, En.RESP_DIR, 2), (pLINC 7, 0, 0, 59, En.RESP_LEN, 2)] (lin 7 1 1) with lins := [(7, { frame := some ⟨59, 0, 2, false, []⟩ })] },
    7, ⟨59, 0, 2, false, []⟩, ⟨[8, 9], true, false, 4000⟩, by decide +kernel⟩,
    ⟨{ ents [(pLINC 7, 0, 0, 59, En.RESP_VALID, 1), (pLINC 7, 0, 0, 59, En.RESP_DIR, 2), (pLINC 7, 0, 0, 59, En.RESP_LEN, 2)] (lin 7 1 1) with lins := [(7, { frame := some ⟨59, 0, 2, false, []⟩ })] },
    2 ^ 70, 7, ⟨59, 0, 2, false, []⟩, by decide +kernel⟩⟩

/-- SerialLines. -/
theorem witness_SerialLines :
    (∃ (s : State) (d : Nat) (k : Nat) (v : Nat), k < 4 ∧ s.takes d (pSER k * 4096 + Reg.SER_MODE) v ∧ s.serMode k = 0 ∧
    (v % 16 = 1 ∨ v % 16 = 2) ∧ s.serBaudOk k = true) ∧
    (∃ (s : State) (k : Nat) (c : SerChar), k < 4 ∧ s.runs? = true ∧ (s.serMode k = 1 ∨ s.serMode k = 2) ∧
    (s.ser k).tx = none ∧ (s.ser k).rx = none ∧ s.fld (pSER k) Fd.SER_CFG_FRAMING = 0 ∧
    1 ≤ s.fld (pSER k) Fd.SER_FRAME_MAXLEN ∧ c.parityErr = false ∧ c.framingErr = false) ∧
    (∃ (s : State) (t : Nat) (k : Nat) (e : Nat) (x : SerRx), k < 4 ∧ s.runs? = true ∧ (s.ser k).rx = some x ∧
    (s.ser k).lastEnd = some e ∧ x.cut = false ∧ s.fld (pSER k) Fd.SER_CFG_FRAMING = 0 ∧
    s.flag (pSER k) Fd.SER_CFG_TO_ROUTER = false ∧ (s.fld pTRN Fd.TRN_TAP_MISC_SER).testBit k = false ∧
    e + s.fld (pSER k) Fd.SER_FRAME_GAP * s.serHalfChar k ≤ (s.advance t).now) ∧
    (∃ (s : State) (d : Nat) (k : Nat) (v : Nat), k < 4 ∧ s.takes d (pSER k * 4096 + Reg.SER_TXB) v ∧ v / 2 ^ 15 % 2 = 1 ∧
    v / 2 ^ 14 % 2 = 0 ∧ 1 ≤ v % 2048 ∧ v % 2048 ≤ (if s.ser9 k then 512 else 1024) ∧ s.fld (pSER k) Fd.SER_TXB_STATE ≠ 1 ∧
    s.fld (pSER k) Fd.SER_TXB_STATE ≠ 2) ∧
    (∃ (s : State) (d : Nat) (k : Nat) (v : Nat), k < 4 ∧ s.takes d (pSER k * 4096 + Reg.SER_TXB) (v ||| 2 ^ 14) ∧
    v / 2 ^ 15 % 2 = 0 ∧ s.fld (pSER k) Fd.SER_TXB_STATE = 1) ∧
    (∃ (s : State) (t : Nat) (k : Nat), k < 4 ∧ s.runs? = true ∧ s.serRtqRefuses k = false ∧
    (∀ x ∈ (s.ser k).rtq, x.stamp ≤ (s.advance t).now)) ∧
    (∃ (s : State) (t : Nat) (k : Nat), k < 4 ∧ s.runs? = true ∧ s.serMode k = 1 ∧ (s.ser k).tx = none ∧
    s.frozen (pSER k) = false ∧ s.fld (pSER k) Fd.SER_MODE_REQ = 1 ∧
    (∀ e, (s.ser k).lastEnd = some e → e + s.fld (pSER k) Fd.SER_TURN_TURN_US * 1000 ≤ (s.advance t).now) ∧
    s.fld (pSER k) Fd.SER_TXB_STATE = 1 ∧ (∀ r ∈ (s.ser k).rtq.head?, (s.ser k).enq < r.stamp)) ∧
    (∃ (s : State) (t : Nat) (k : Nat) (r : SerQ) (q : List SerQ), k < 4 ∧ s.runs? = true ∧ s.serMode k = 1 ∧
    (s.ser k).tx = none ∧ s.frozen (pSER k) = false ∧ s.fld (pSER k) Fd.SER_MODE_REQ = 1 ∧
    (∀ e, (s.ser k).lastEnd = some e → e + s.fld (pSER k) Fd.SER_TURN_TURN_US * 1000 ≤ (s.advance t).now) ∧
    (s.ser k).rtq = r :: q ∧ (s.fld (pSER k) Fd.SER_TXB_STATE = 1 → r.stamp ≤ (s.ser k).enq)) ∧
    (∃ (s : State) (k : Nat) (x : SerTx), k < 4 ∧ s.runs? = true ∧ (s.ser k).tx = some x ∧ x.host = true ∧
    (s.ser k).cancel = none) :=
  ⟨⟨own (pSER 3) (ser 3 0), 0, 3, 2, by simp only [State.takes]; decide +kernel⟩,
    ⟨ser 3 2, 3, ⟨0x41, 5, 9, false, false⟩, by decide +kernel⟩,
    ⟨{ flds [(pSER 3, Fd.SER_CFG_TO_ROUTER, 0)] (ser 3 1) with sers := [(3, { rx := some ⟨1, 9, [0x41], false, false, 1, false⟩, lastEnd := some 9 })] },
    2 ^ 70, 3, 9, ⟨1, 9, [0x41], false, false, 1, false⟩, by decide +kernel⟩,
    ⟨own (pSER 3) (ser 3 1), 0, 3, 2 ^ 15 + 1024, by simp only [State.takes]; decide +kernel⟩,
    ⟨own (pSER 3) (flds [(pSER 3, Fd.SER_TXB_STATE, 1)] (ser 3 1)), 0, 3, 5, by simp only [State.takes]; decide +kernel⟩,
    ⟨ser 3 1, 0, 3, by decide +kernel⟩,
    ⟨flds [(pSER 3, Fd.SER_TXB_STATE, 1), (pSER 3, Fd.SER_TXB_LEN, 2)] (ser 3 1), 0, 3,
    by refine ⟨by decide +kernel, by decide +kernel, by decide +kernel, by decide +kernel, by decide +kernel, by decide +kernel, of_none (by decide +kernel), by decide +kernel, by decide +kernel⟩⟩,
    ⟨{ ser 3 1 with sers := [(3, { rtq := [⟨[1, 2], 4⟩] })] }, 0, 3, ⟨[1, 2], 4⟩, [],
    by refine ⟨by decide +kernel, by decide +kernel, by decide +kernel, by decide +kernel, by decide +kernel, by decide +kernel, of_none (by decide +kernel), by decide +kernel, by decide +kernel⟩⟩,
    ⟨{ flds [(pSER 3, Fd.SER_TXB_STATE, 2)] (ser 3 1) with sers := [(3, { tx := some ⟨true, [1, 2], [], 4⟩ })] }, 3,
    ⟨true, [1, 2], [], 4⟩, by decide +kernel⟩⟩

/-- RouterInputsAndTimeouts. -/
theorem witness_RouterInputsAndTimeouts :
    (∃ (s : State) (t : Nat) (x : RIn), s.runs? = true ∧ s.srtActs = true ∧ s.srt.tunnel = [] ∧
    rinHead s.srt.field = some x ∧ x.kind ≠ 3 ∧ x.stamp + 1000 ≤ (s.advance t).now ∧ s.routeOf (s.srtBank x.stamp) x = none) ∧
    (∃ (s : State) (t : Nat) (idx : Nat) (x : RIn) (e : Entry), s.runs? = true ∧ s.srtActs = true ∧ s.srtDraining = false ∧
    s.srt.tunnel = [] ∧ rinHead s.srt.field = some x ∧ x.kind ≠ 3 ∧ x.stamp + 1000 ≤ (s.advance t).now ∧ x.stamp < 2 ^ 64 ∧
    s.routeOf (s.fld pSRT Fd.SRT_GEN_BANK) x = some idx ∧ s.routeE (s.fld pSRT Fd.SRT_GEN_BANK) idx = e ∧
    s.unsettled idx x.stamp = false ∧ s.rstF idx En.RSTATE_HELD = 0 ∧ s.rstF idx En.RSTATE_STATE ≠ 2 ∧
    fget e En.ROUTE_POLICY = 0 ∧ fget e En.ROUTE_AUTH_V_EN = 0 ∧ fget e En.ROUTE_MAP_COUNT = 0 ∧
    s.ent pSRT 1 (s.fld pSRT Fd.SRT_GEN_BANK) idx = 0 ∧ (s.imageRoutes (s.fld pSRT Fd.SRT_GEN_BANK) fun _ => true) = []) ∧
    (∃ (s : State) (t : Nat) (idx : Nat) (d : Nat) (e : Entry), s.runs? = true ∧ s.srtActs = true ∧ s.srtDraining = false ∧
    s.rstF idx En.RSTATE_DEADLINE = d ∧ d ≠ 0 ∧ d + 4000 ≤ (s.advance t).now ∧
    s.routeE (s.fld pSRT Fd.SRT_GEN_BANK) idx = e ∧ s.supervised e = true ∧ s.rstF idx En.RSTATE_STATE ≠ 2 ∧
    fget e En.ROUTE_MAP_COUNT = 0 ∧ (s.imageRoutes (s.fld pSRT Fd.SRT_GEN_BANK) fun _ => true) = []) ∧
    (∃ (s : State) (stamp : Nat) (seq : Nat) (i : Nat) (ad : List Nat) (idb : List Nat) (data : List Nat) (fin : List Nat) (m : List Nat) (l : List (Nat × List Nat)) (x : RIn),
    s.runs? = true ∧ s.enabled pSRT = true ∧ ad.length = 12 ∧ idb.length = 8 ∧ data.length < 2048 ∧ 4 ≤ fin.length ∧
    x.kind = 3 ∧
    s.srt.pduIn = (stamp, ad ++ [0x22, 0xF0, 0x82, 0x80 + data.length / 256, data.length % 256, seq] ++ idb ++ data ++ fin) :: l ∧
    s.rxStream 0x82 (beNat idb) = some i ∧ acfSplit data.length data = some [m] ∧ acfRead i stamp none m = .input x ∧
    s.entF pSRT 6 0 i En.RXS_SEQ_CHECK = 0 ∧ s.srt.field.length + s.srt.tunnel.length < 1024) :=
  ⟨⟨rt [⟨0, 23, 1, { id := 5 }, false, 0, 0, none⟩], 2 ^ 70, ⟨0, 23, 1, { id := 5 }, false, 0, 0, none⟩, by decide +kernel⟩,
    ⟨ents [(pSRT, 0, 0, 8191, En.ROUTE_VALID, 1), (pSRT, 0, 0, 8191, En.ROUTE_CHMASK, 2 ^ 23), (pSRT, 0, 0, 8191, En.ROUTE_MASK, 2 ^ 29 - 1), (pSRT, 0, 0, 8191, En.ROUTE_ID, 5)] (rt [⟨0, 23, 1, { id := 5 }, false, 0, 0, none⟩]),
    2 ^ 70, 8191, ⟨0, 23, 1, { id := 5 }, false, 0, 0, none⟩,
    fput (fput (fput (fput 0 En.ROUTE_VALID 1) En.ROUTE_CHMASK (2 ^ 23)) En.ROUTE_MASK (2 ^ 29 - 1)) En.ROUTE_ID 5,
    by decide +kernel⟩,
    ⟨ents [(pSRT, 0, 0, 8191, En.ROUTE_VALID, 1), (pSRT, 0, 0, 8191, En.ROUTE_TMO, 1), (pSRT, 4, 0, 8191, En.RSTATE_DEADLINE, 100000)] (flds [(pSRT, Fd.SRT_CFG_SUPERVISE, 1)] (rt [])),
    104000 * 65536, 8191, 100000, fput (fput 0 En.ROUTE_VALID 1) En.ROUTE_TMO 1, by decide +kernel⟩,
    ⟨{ ents [(pSRT, 6, 0, 3, En.RXS_VALID, 1), (pSRT, 6, 0, 3, En.RXS_ACCEPT_NTSCF, 1)] (rt []) with srt := { pduIn := [(9, List.replicate 12 0 ++ [0x22, 0xF0, 0x82, 0x80, 16, 7] ++ List.replicate 8 0 ++ [6, 4, 0, 5, 0, 0, 0, 0, 0, 0, 0, 0, 1, 2, 3, 4] ++ [0, 0, 0, 0])] } },
    9, 7, 3, List.replicate 12 0, List.replicate 8 0, [6, 4, 0, 5, 0, 0, 0, 0, 0, 0, 0, 0, 1, 2, 3, 4], [0, 0, 0, 0],
    [6, 4, 0, 5, 0, 0, 0, 0, 0, 0, 0, 0, 1, 2, 3, 4], [],
    { kind := 3, ch := 3, stamp := 9, f := { id := 5, len := 4, data := [1, 2, 3, 4] }, msg := 1 }, by decide +kernel⟩⟩

/-- RouterSendsAndReleases. -/
theorem witness_RouterSendsAndReleases :
    (∃ (s : State) (t : Nat) (idx : Nat) (y : RSet), s.runs? = true ∧ s.srtActs = true ∧ s.srt.prev = [] ∧
    (s.rroute idx).sets.reverse.find? (fun y => !y.closed && decide (y.ends + 4000 ≤ (s.advance t).now)) = some y ∧
    y.delivered = true) ∧
    (∃ (s : State) (t : Nat) (idx : Nat) (e : Entry), s.runs? = true ∧ s.srtActs = true ∧ s.srtDraining = false ∧
    s.routeE (s.fld pSRT Fd.SRT_GEN_BANK) idx = e ∧ fget e En.ROUTE_VALID = 1 ∧ fget e En.ROUTE_KIND = 1 ∧
    fget e En.ROUTE_TX_MODE ≠ 0 ∧ fget e En.ROUTE_TX_PERIOD ≠ 0 ∧
    (s.rroute idx).act + (s.rroute idx).tick * fget e En.ROUTE_TX_PERIOD * 100000 ≤ (s.advance t).now ∧
    s.ent pSRT 1 (s.fld pSRT Fd.SRT_GEN_BANK) idx = 0) ∧
    (∃ (s : State) (idx : Nat) (e : Entry), s.runs? = true ∧ s.srtActs = true ∧ s.srtDraining = false ∧
    s.imageReady idx (s.fld pSRT Fd.SRT_GEN_BANK) = true ∧ (s.rroute idx).lastSend = none ∧
    s.ent pSRT 1 (s.fld pSRT Fd.SRT_GEN_BANK) idx = e ∧ (∀ k, k < 4 → slotFld e k En.DSTS_VALID = (if k = 0 then 1 else 0)) ∧
    slotFld e 0 En.DSTS_KIND = 0 ∧ slotFld e 0 En.DSTS_CH < 24 ∧ s.rtqRefuses (slotFld e 0 En.DSTS_CH) = false ∧
    slotFld e 0 En.DSTS_FORMAT = 0 ∧ slotFld e 0 En.DSTS_ID_MODE = 0 ∧ slotFld e 0 En.DSTS_AUTH_EN = 0 ∧
    1 ≤ slotFld e 0 En.DSTS_LEN ∧ slotFld e 0 En.DSTS_LEN ≤ 8) ∧
    (∃ (s : State) (t : Nat) (i : Nat) (p : Pdu), s.runs? = true ∧ s.srtActs = true ∧ smGet none i s.srt.pdus = some p ∧
    p.ends + 1000 ≤ (s.advance t).now) ∧
    (∃ (s : State) (d : Nat) (v : Nat), s.takes d (pSRT * 4096 + Reg.SRT_RELEASE) v ∧ v / 2 ^ 31 % 2 = 1 ∧
    s.rstF (v % 8192) En.RSTATE_HELD = 1 ∧
    (fget (s.routeE (s.fld pSRT Fd.SRT_GEN_BANK) (v % 8192)) En.ROUTE_CHMASK).testBit (v / 65536 % 32) = true) ∧
    (∃ (s : State) (d : Nat) (v : Nat) (idx : Nat) (e : Entry) (l : List (Nat × Entry)) (m : List (Nat × Entry)),
    s.takes d (pSRT * 4096 + Reg.SRT_CFG) v ∧ v % 2 = 1 ∧ s.flag pSRT Fd.SRT_CFG_SUPERVISE = false ∧ s.enabled pSRT = true ∧
    s.tabList pSRT 0 (s.fld pSRT Fd.SRT_GEN_BANK) = l ++ (idx, e) :: m ∧ (∀ x ∈ m, x.1 ≠ idx) ∧ fget e En.ROUTE_VALID = 1 ∧
    fget e En.ROUTE_KIND = 0 ∧ fget e En.ROUTE_TMO ≠ 0 ∧ s.rstF idx En.RSTATE_STATE ≠ 2) :=
  ⟨⟨{ rt [] with srt := { routes := [(8191, { sets := [{ ends := 5, copies := [], delivered := true }] })] } }, 2 ^ 70,
    8191, { ends := 5, copies := [], delivered := true }, by decide +kernel⟩,
    ⟨ents [(pSRT, 0, 0, 8191, En.ROUTE_VALID, 1), (pSRT, 0, 0, 8191, En.ROUTE_KIND, 1), (pSRT, 0, 0, 8191, En.ROUTE_TX_MODE, 1), (pSRT, 0, 0, 8191, En.ROUTE_TX_PERIOD, 1)] (rt []),
    100000 * 65536, 8191,
    fput (fput (fput (fput 0 En.ROUTE_VALID 1) En.ROUTE_KIND 1) En.ROUTE_TX_MODE 1) En.ROUTE_TX_PERIOD 1, by decide +kernel⟩,
    ⟨{ ents [(pSRT, 0, 0, 8191, En.ROUTE_VALID, 1), (pSRT, 0, 0, 8191, En.ROUTE_KIND, 1), (pSRT, 1, 0, 8191, ⟨0, 0, 1⟩, 1), (pSRT, 1, 0, 8191, En.DSTS_CH, 23), (pSRT, 1, 0, 8191, En.DSTS_LEN, 8)] (flds [(pCANC 23, Fd.CANC_MODE_CUR, 1)] (rt [])) with srt := { routes := [(8191, { pending := true })] } },
    8191, fput (fput (fput 0 En.DSTS_VALID 1) En.DSTS_CH 23) En.DSTS_LEN 8, by decide +kernel⟩,
    ⟨{ rt [] with srt := { pdus := [(3, some ⟨5, [1, 2, 3, 4]⟩)] } }, 1005 * 65536, 3, ⟨5, [1, 2, 3, 4]⟩, by decide +kernel⟩,
    ⟨own pSRT (ents [(pSRT, 0, 0, 8191, En.ROUTE_CHMASK, 2 ^ 23), (pSRT, 4, 0, 8191, En.RSTATE_HELD, 1)] (rt [])), 0,
    2 ^ 31 + 23 * 65536 + 8191, by simp only [State.takes]; decide +kernel⟩,
    ⟨flds [(pSRT, Fd.SRT_CFG_SUPERVISE, 0)] <| own pSRT (ents [(pSRT, 0, 0, 8191, En.ROUTE_VALID, 1), (pSRT, 0, 0, 8191, En.ROUTE_TMO, 1)] (rt [])),
    0, 1, 8191, fput (fput 0 En.ROUTE_VALID 1) En.ROUTE_TMO 1, [], [], by simp only [State.takes]; decide +kernel⟩⟩

/-- EthLinkChanges. -/
theorem witness_EthLinkChanges :
    (∃ (s : State) (p : Nat) (stamp : Nat), s.runs? = true ∧ p < 24 ∧ s.flag (pEPRT p) Fd.EPRT_STATE_LINK = true ∧
    s.ethSt p = 2 ∧ (s.egr p).line = none ∧ (s.egr p).susp = none ∧ stamp < 2 ^ 64) ∧
    (∃ (s : State) (p : Nat) (stamp : Nat), s.runs? = true ∧ p < 24 ∧ s.flag (pEPRT p) Fd.EPRT_STATE_LINK = false ∧
    (s.ethSt p = 1 ∨ (s.ethSt p = 3 ∧ stamp ≤ (s.eth p).holdX)) ∧ s.linkable p = true ∧ s.tcSt p ≠ 2 ∧ stamp < 2 ^ 64) ∧
    (∃ (s : State) (t : Nat) (p : Nat), s.runs? = true ∧ p < 24 ∧ s.ethSt p = 3 ∧
    s.flag (pEPRT p) Fd.EPRT_STATE_LINK = false ∧ (s.eth p).holdX + 4000 ≤ (s.advance t).now ∧
    s.entF (pFDB (if portOfSide 0 p then 0 else 1)) 3 0 p En.LPORT_FLUSH_ON_DOWN = 0) ∧
    (∃ (s : State) (p : Nat) (speed : Nat), s.runs? = true ∧ s.anOn p = true ∧ s.ethSt p ≠ 0 ∧ s.looped p = false ∧
    modeCarries (s.fld (pEPRT p) Fd.EPRT_PCS_MODE) speed = true) ∧
    (∃ (s : State) (p : Nat), s.runs? = true ∧ 12 ≤ p ∧ p < 24 ∧ s.flag (pEPRT p) Fd.EPRT_STATE_LINK = true) ∧
    (∃ (s : State) (p : Nat) (ok : Bool), s.runs? = true ∧ 24 ≤ p ∧ p < 32 ∧ s.flag (pEPRT p) Fd.EPRT_PLCA_CTRL_EN = true ∧
    s.ethSt p = 2 ∧ s.flag (pEPRT p) Fd.EPRT_PLCA_CTRL_STATUS ≠ ok) ∧
    (∃ (s : State) (p : Nat), s.runs? = true ∧ p < 12 ∧ s.fld (pEPRT p) Fd.EPRT_PMAC_STAT_VERIFY = 2) :=
  ⟨⟨eth 23 2 1, 23, 9, by decide +kernel⟩,
    ⟨{ eth 23 3 0 with eths := [(23, { holdX := 9 })] }, 23, 9, by decide +kernel⟩,
    ⟨{ ents [(pFDB 1, 3, 0, 23, En.LPORT_FLUSH_ON_DOWN, 0)] (eth 23 3 0) with eths := [(23, { holdX := 9 })] }, 4009 * 65536,
    23, by decide +kernel⟩,
    ⟨flds [(pEPRT 11, Fd.EPRT_PCS_MODE, 1), (pEPRT 11, Fd.EPRT_PCS_AN_EN, 1)] (eth 11 1 0), 11, 2, by decide +kernel⟩,
    ⟨eth 23 2 1, 23, by decide +kernel⟩,
    ⟨flds [(pEPRT 31, Fd.EPRT_PLCA_CTRL_EN, 1)] (eth 31 2 0), 31, true, by decide +kernel⟩,
    ⟨flds [(pEPRT 11, Fd.EPRT_PMAC_STAT_VERIFY, 2)] (eth 11 2 1), 11, by decide +kernel⟩⟩

/-- Tc10SleepAndWake. -/
theorem witness_Tc10SleepAndWake :
    (∃ (s : State) (d : Nat) (p : Nat), 12 ≤ p ∧ p < 24 ∧
    s.takes d (pEPRT p * 4096 + Reg.EPRT_TC10) (4 * s.fld (pEPRT p) Fd.EPRT_TC10_ACCEPT_REMOTE + 1) ∧
    s.flag (pEPRT p) Fd.EPRT_TC10_NM_CTL = false ∧ s.tcSt p = 0 ∧ s.flag (pEPRT p) Fd.EPRT_STATE_LINK = true) ∧
    (∃ (s : State) (d : Nat) (p : Nat), 12 ≤ p ∧ p < 24 ∧
    s.takes d (pEPRT p * 4096 + Reg.EPRT_TC10) (4 * s.fld (pEPRT p) Fd.EPRT_TC10_ACCEPT_REMOTE + 2) ∧
    s.flag (pEPRT p) Fd.EPRT_TC10_NM_CTL = false ∧ s.tcSt p = 2) ∧
    (∃ (s : State) (t : Nat) (p : Nat), s.runs? = true ∧ 12 ≤ p ∧ p < 24 ∧ s.flag (pEPRT p) Fd.EPRT_STATE_LINK = true ∧
    s.tcSt p = 1 ∧ (s.advance t).now ≤ (s.eth p).tcAt + 64000000) ∧
    (∃ (s : State) (p : Nat), s.runs? = true ∧ 12 ≤ p ∧ p < 24 ∧ s.flag (pEPRT p) Fd.EPRT_STATE_LINK = true ∧ s.tcSt p = 0 ∧
    s.flag (pEPRT p) Fd.EPRT_TC10_ACCEPT_REMOTE = false) ∧
    (∃ (s : State) (t : Nat) (p : Nat), s.runs? = true ∧ 12 ≤ p ∧ p < 24 ∧ s.tcSt p = 1 ∧
    (s.eth p).tcAt + 64000000 ≤ (s.advance t).now ∧ s.clOfPort p = []) ∧
    (∃ (s : State) (p : Nat), s.boot = .ready ∧ s.pwr = .clause ∧ 12 ≤ p ∧ p < 24 ∧ s.enabled (pEPRT p) = true ∧
    s.tcSt p = 2 ∧ s.nmUp = false) ∧
    (∃ (s : State) (t : Nat) (p : Nat), s.runs? = true ∧ 12 ≤ p ∧ p < 24 ∧ s.tcSt p = 3 ∧
    (s.eth p).tcAt + 200000000 ≤ (s.advance t).now) :=
  ⟨⟨own (pEPRT 23) (flds [(pEPRT 23, Fd.EPRT_TC10_ACCEPT_REMOTE, 0), (pEPRT 23, Fd.EPRT_TC10_NM_CTL, 0)] (eth 23 2 1)), 0,
    23, by simp only [State.takes]; decide +kernel⟩,
    ⟨own (pEPRT 23) (flds [(pEPRT 23, Fd.EPRT_TC10_NM_CTL, 0), (pEPRT 23, Fd.EPRT_TC10_TSTATE, 2)] (eth 23 1 0)), 0, 23,
    by simp only [State.takes]; decide +kernel⟩,
    ⟨flds [(pEPRT 23, Fd.EPRT_TC10_TSTATE, 1)] (eth 23 2 1), 0, 23, by decide +kernel⟩,
    ⟨flds [(pEPRT 23, Fd.EPRT_TC10_ACCEPT_REMOTE, 0)] (eth 23 2 1), 23, by decide +kernel⟩,
    ⟨flds [(pEPRT 23, Fd.EPRT_TC10_TSTATE, 1)] (eth 23 2 1), 64000000 * 65536, 23, by decide +kernel⟩,
    ⟨flds [(pEPRT 23, Fd.EPRT_TC10_TSTATE, 2), (pNM, Fd.CTRL_ENABLE, 0)] (eth 23 1 0), 23, by decide +kernel⟩,
    ⟨flds [(pEPRT 23, Fd.EPRT_TC10_TSTATE, 3)] (eth 23 1 0), 200000000 * 65536, 23, by decide +kernel⟩⟩

/-- EthFramesAndAges. -/
theorem witness_EthFramesAndAges :
    (∃ (s : State) (p : Nat) (f : EthRx), s.runs? = true ∧ p < 32 ∧ s.enabled (pEPRT p) = true ∧ s.ethSt p = 2 ∧
    s.looped p = false ∧ f.mm = 0 ∧ s.fld (pEPRT p) Fd.EPRT_CFG_LOOP ≠ 3 ∧ s.flag (pEPRT p) Fd.EPRT_CFG_RX_EN = false) ∧
    (∃ (s : State) (p : Nat) (f : EthRx), s.runs? = true ∧ 24 ≤ p ∧ p < 32 ∧ s.enabled (pEPRT p) = true ∧ s.ethSt p = 2 ∧
    s.looped p = false ∧ f.mm = 0 ∧ s.fld (pEPRT p) Fd.EPRT_CFG_LOOP ≠ 3 ∧ s.flag (pEPRT p) Fd.EPRT_CFG_RX_EN = true ∧
    s.frozen (pEPRT p) = false ∧ f.err = false ∧
    fcsOf (f.bytes.take (f.bytes.length - 4)) = f.bytes.drop (f.bytes.length - 4) ∧ 64 ≤ f.bytes.length ∧
    f.bytes.length ≤ s.fld (pEPRT p) Fd.EPRT_CFG_MAX_LEN ∧ beNat ((f.bytes.drop 12).take 2) ≠ 0x8808 ∧
    s.enabled pSWC = true ∧ s.frozen pSWC = false ∧ cellsOf f.bytes.length ≤ s.free) ∧
    (∃ (s : State) (p : Nat) (coll : Nat) (x : OnLine), s.runs? = true ∧ p < 32 ∧ (s.egr p).line = some x ∧ coll < 16 ∧
    x.copy.ct = false ∧ x.err = false ∧ s.looped p = false ∧ s.entF pTRN 0 0 p En.ETAP_TX_MODE = 0) ∧
    (∃ (s : State) (t : Nat) (p : Nat), s.runs? = true ∧ p < 32 ∧
    (s.ethSt p = 3 ∨ s.flag (pEPRT p) Fd.EPRT_STATE_FROZEN = true) ∧ (s.eth p).checkFrom ≤ (s.advance t).now ∧
    (∀ q, q < 8 → (s.queue (qkey p q)).count = 0)) ∧
    (∃ (s : State) (t : Nat) (p : Nat) (c : Copy), s.runs? = true ∧ p < 32 ∧ s.ethSt p = 3 ∧
    (s.eth p).checkFrom ≤ (s.advance t).now ∧ (s.queue (qkey p 0) = { h := [c] }) ∧
    s.aged p 0 (s.eth p).checkFrom c.info.stamp = true ∧ (∀ q, q < 8 → q ≠ 0 → (s.queue (qkey p q)).count = 0)) :=
  ⟨⟨flds [(pEPRT 31, Fd.EPRT_CFG_RX_EN, 0)] (eth 31 2 0), 31, { bytes := frame64, start := 65536, fin := 7000 },
    by decide +kernel⟩,
    ⟨flds [(pSWC, Fd.CTRL_ENABLE, 1), (pEPRT 31, Fd.EPRT_CFG_RX_EN, 1)] (eth 31 2 0), 31,
    { bytes := frame64, start := 65536, fin := 7000 }, by decide +kernel⟩,
    ⟨{ eth 31 2 0 with egress := [(31, { line := some ⟨7, cp 5, 9, false, false⟩ })] }, 31, 15, ⟨7, cp 5, 9, false, false⟩,
    by decide +kernel⟩,
    ⟨eth 31 3 0, 0, 31, by decide +kernel⟩,
    ⟨{ flds [(pEPRT 31, Fd.EPRT_AGE_LIMIT.at 4 0, 1)] (eth 31 3 0) with eths := [(31, { checkFrom := 100001 })], swc := { queues := [(qkey 31 0, { h := [cp 5] })] } },
    2 ^ 70, 31, cp 5, by decide +kernel⟩⟩

/-- PacketsAreDecidedAndEnqueued. -/
theorem witness_PacketsAreDecidedAndEnqueued :
    (∃ (s : State) (i : Nat) (q : Nat) (idx : Nat) (c : Copy) (h : Hdr) (v : Entry), s.runs? = true ∧ i < 2 ∧
    s.enabled (pPIPE i) = true ∧ s.frozen (pPIPE i) = false ∧ (s.queue 288).h = [] ∧ smGet [] i s.swc.front = [c] ∧
    c.info.port < 37 ∧ c.info.act = none ∧ s.parse i c.info.port c.bytes = (h, none) ∧ h.bad = false ∧ h.deep = false ∧
    s.pportF i c.info.port En.PPORT_ACCEPT = 0 ∧ s.pportF i c.info.port En.PPORT_LANE_MASK = 0 ∧
    s.entF pSWC 0 0 c.info.port En.SPORT_RX_MIRROR_EN = 0 ∧ s.entF pSWC 0 0 c.info.port En.SPORT_RX_SAMPLE_EN = 0 ∧
    s.enabled pGPTP = false ∧ s.entF pTRN 0 0 c.info.port En.ETAP_RX_MODE = 0 ∧
    s.vlanFor i c.info.port (s.tagOfHdr i c.info.port h).1 = some v ∧ fget v En.VLAN_LEARN_EN = 0 ∧
    s.fdbFind i (s.fdbBank i) (fget v En.VLAN_FID) h.sa = none ∧ s.enabled (pFDB i) = true ∧
    s.fdbFind i (s.fdbBank i) (fget v En.VLAN_FID) h.da = some idx ∧ isXlrn (s.slotAt i (s.fdbBank i) idx) = false ∧
    fget (s.slotAt i (s.fdbBank i) idx) En.FENT_DROP = 0 ∧ fget (s.slotAt i (s.fdbBank i) idx) En.FENT_GROUP = 0 ∧
    fget (s.slotAt i (s.fdbBank i) idx) En.FENT_DEST = q ∧ q ≠ c.info.port ∧ q < 35 ∧
    (fget v En.VLAN_MEMBER).testBit q = true) ∧
    (∃ (s : State) (t : Nat) (p : Nat) (k : Packet), s.runs? = true ∧ s.swc.decided = [k] ∧ k.info.fin ≤ (s.advance t).now ∧
    k.info.bad = false ∧ k.traps = [] ∧ k.mirrors = [] ∧ k.samples = [] ∧ k.recirc = none ∧ k.dests = [p] ∧ k.sf = none ∧
    p < 32 ∧ k.tc < 8 ∧ s.enabled pSWC = true ∧ s.frozen pSWC = false ∧ s.ethSt p = 2 ∧
    (s.copyBytes p k).length ≤ s.fld (pEPRT p) Fd.EPRT_CFG_MAX_LEN ∧ s.fld pSWC Fd.SWC_QENTRY_FREE_FREE ≠ 0 ∧
    (s.queue (qkey p k.tc)).occupancy + k.mem ≤ s.fld pSWC (Fd.SWC_CLASS_QMAX_QMAX.at 8 k.tc) ∧
    s.fld pSWC (Fd.SWC_CLASS_CFG_FLOOR.at 8 k.tc) ≤ s.free ∧ s.qstate (qkey p k.tc) = 0 ∧
    s.flag pSWC Fd.SWC_SPILL_STAT_ACTIVE = false ∧ s.entF pSWC 0 0 p En.SPORT_TX_MIRROR_EN = 0) :=
  ⟨⟨atFront, 1, 21, 16384, cp 20, (atFront.parse 1 20 frame64).1, (atFront.vlanFor 1 20 1).getD 0, by decide +kernel⟩,
    ⟨{ flds [(pEPRT 31, Fd.EPRT_STATE_STATE, 2)] sw with swc := { cells := [(0, { refs := [1] })], nextPkt := 1, decided := [{ side := 1, pkt := 0, mem := 1, bytes := frame64, info := { port := 20 }, dests := [31], tc := 7, untag := 2 ^ 36 - 1 }] } },
    0, 31,
    { side := 1, pkt := 0, mem := 1, bytes := frame64, info := { port := 20 }, dests := [31], tc := 7, untag := 2 ^ 36 - 1 },
    by decide +kernel⟩⟩

/-- ForwardingDatabase. -/
theorem witness_ForwardingDatabase :
    (∃ (s : State) (t : Nat) (i : Nat) (idx : Nat) (r : LearnReq), s.runs? = true ∧ i < 2 ∧ s.fdbOn i = true ∧
    (s.fdb i).late = [] ∧ (s.fdb i).learn = [r] ∧ r.ready ≤ (s.advance t).now ∧
    s.fdbFind i (s.fdbBank i) r.fid r.mac = none ∧ s.overLimit i r.port = false ∧
    s.freeSlot i (s.fdbBank i) (s.keySlots i (s.fdbBank i) 0 r.fid r.mac ++ s.keySlots i (s.fdbBank i) 1 r.fid r.mac) = some idx ∧
    r.fid < 4096 ∧ r.mac < 2 ^ 48 ∧ s.mirrored i = false ∧ s.flag (pFDB i) Fd.FDB_CFG_XLEARN_OUT = false) ∧
    (∃ (s : State) (i : Nat) (idx : Nat) (r : LearnReq) (l : List LearnReq), s.runs? = true ∧ i < 2 ∧ s.fdbOn i = true ∧
    (s.fdb i).offers = r :: l ∧ s.fdbFind i (s.fdbBank i) r.fid r.mac = none ∧
    s.freeSlot i (s.fdbBank i) (s.keySlots i (s.fdbBank i) 0 r.fid r.mac ++ s.keySlots i (s.fdbBank i) 1 r.fid r.mac) = some idx ∧
    r.fid < 4096 ∧ r.mac < 2 ^ 48 ∧ s.mirrored i = false) ∧
    (∃ (s : State) (t : Nat) (i : Nat) (pos : Nat), s.runs? = true ∧ i < 2 ∧ s.fdbOn i = true ∧ s.mirrored i = false ∧
    s.fld (pFDB i) Fd.FDB_AGE_AGE_SEC ≠ 0 ∧
    (s.fdb i).sweepAt + s.fld (pFDB i) Fd.FDB_AGE_AGE_SEC * 1000000000 / 16448 ≤ (s.advance t).now ∧
    s.fld (pFDB i) Fd.FDB_SWEEP_POS = pos ∧ pos < 16384 ∧ (s.fdb i).bad = [] ∧
    isValid (s.slotAt i (s.fdbBank i) pos) = true ∧ isStatic (s.slotAt i (s.fdbBank i) pos) = false) ∧
    (∃ (s : State) (d : Nat) (i : Nat), i < 2 ∧ s.commands d (pFDB i) 8) ∧
    (∃ (s : State) (d : Nat) (i : Nat), i < 2 ∧ s.commands d (pFDB i) 9) ∧
    (∃ (s : State) (t : Nat) (d : Nat) (i : Nat) (idx : Nat) (e : Entry), i < 2 ∧ s.commands d (pFDB i) 10 ∧
    s.flag (pFDB i) Fd.WIN_BANK = false ∧ insertCheck (s.winData (pFDB i)) = none ∧ s.mirrored i = false ∧
    e = fput (fput (s.winData (pFDB i) &&& BitVec.ofNat 256 En.FENT_rw) En.FENT_VALID 1) En.FENT_STAMP (s.advance t).now ∧
    s.fdbFind i (s.fdbBank i) (fget e En.FENT_FID) (fget e En.FENT_MAC) = none ∧
    s.freeSlot i (s.fdbBank i) (s.keySlots i (s.fdbBank i) 0 (fget e En.FENT_FID) (fget e En.FENT_MAC) ++ s.keySlots i (s.fdbBank i) 1 (fget e En.FENT_FID) (fget e En.FENT_MAC)) = some idx) ∧
    (∃ (s : State) (d : Nat) (i : Nat) (idx : Nat), i < 2 ∧ s.commands d (pFDB i) 11 ∧ s.flag (pFDB i) Fd.WIN_BANK = false ∧
    s.mirrored i = false ∧
    s.fdbFind i (s.fdbBank i) (fget (s.winData (pFDB i)) En.FENT_FID) (fget (s.winData (pFDB i)) En.FENT_MAC) = some idx) ∧
    (∃ (s : State) (d : Nat) (i : Nat), i < 2 ∧ s.commands d (pFDB i) 12 ∧ s.flag (pFDB i) Fd.WIN_BANK = false ∧
    s.mirrored i = false) ∧
    (∃ (s : State) (d : Nat) (i : Nat), i < 2 ∧ s.commands d (pFDB i) 14) :=
  ⟨⟨{ flds [(pFDB 1, Fd.FDB_CFG_XLEARN_OUT, 0)] sw with fdbs := [(1, { learn := [⟨4095, 2 ^ 48 - 1, 20, 5⟩] })] }, 2 ^ 70,
    1, (sw.keySlots 1 0 0 4095 (2 ^ 48 - 1)).headD 0, ⟨4095, 2 ^ 48 - 1, 20, 5⟩, by decide +kernel⟩,
    ⟨{ sw with fdbs := [(1, { offers := [⟨4095, 2 ^ 48 - 1, 20, 5⟩] })] }, 1, (sw.keySlots 1 0 0 4095 (2 ^ 48 - 1)).headD 0,
    ⟨4095, 2 ^ 48 - 1, 20, 5⟩, [], by decide +kernel⟩,
    ⟨ents [(pFDB 1, 0, 0, 16383, En.FENT_VALID, 1)] (flds [(pFDB 1, Fd.FDB_SWEEP_POS, 16383), (pFDB 1, Fd.FDB_AGE_AGE_SEC, 1)] sw),
    2 ^ 70, 1, 16383, by decide +kernel⟩,
    ⟨own (pFDB 1) sw, 0, 1, by simp only [State.takes, State.commands]; decide +kernel⟩,
    ⟨own (pFDB 1) sw, 0, 1, by simp only [State.takes, State.commands]; decide +kernel⟩,
    ⟨own (pFDB 1) sw, 7 * 65536, 0, 1, (sw.keySlots 1 0 0 0 0).headD 0,
    fput (fput ((own (pFDB 1) sw).winData (pFDB 1) &&& BitVec.ofNat 256 En.FENT_rw) En.FENT_VALID 1) En.FENT_STAMP 7,
    by simp only [State.takes, State.commands]; decide +kernel⟩,
    ⟨ents [(pFDB 1, 0, 0, 16384, En.FENT_VALID, 1)] (own (pFDB 1) sw), 0, 1, 16384,
    by simp only [State.takes, State.commands]; decide +kernel⟩,
    ⟨own (pFDB 1) sw, 0, 1, by simp only [State.takes, State.commands]; decide +kernel⟩,
    ⟨own (pFDB 1) sw, 0, 1, by simp only [State.takes, State.commands]; decide +kernel⟩⟩

/-- RebuildsSpillsAndReleases. -/
theorem witness_RebuildsSpillsAndReleases :
    (∃ (s : State) (d : Nat) (i : Nat), i < 2 ∧ s.commands d (pFDB i) 13 ∧ s.flag (pFDB i) Fd.WIN_BANK = true) ∧
    (∃ (s : State) (t : Nat) (i : Nat), i < 2 ∧ s.live = true ∧ s.fld (pFDB i) fRebuild = 1 ∧
    ((s.advance t).rebuildAll i (((s.tabList (pFDB i) 0 (s.fdbBank i)).map (·.2)).filter isValid)).1 = true) ∧
    (∃ (s : State) (k : Nat) (c : Copy) (l : List Copy), s.runs? = true ∧ s.frozen pSWC = false ∧ s.spillNext = some k ∧
    (s.queue k).t = c :: l ∧
    (s.fld pSWC Fd.SWC_SPILL_STAT_USED + (spillBlocks ((s.queue k).m ++ [{ c with pkt := none }]) - spillBlocks (s.queue k).m) ≤ s.fld pSWC Fd.SWC_SPILL_BLOCKS_BLOCKS)) ∧
    (∃ (s : State) (k : Nat) (c : Copy) (x : Copy) (l : List Copy), s.runs? = true ∧ s.frozen pSWC = false ∧ k < 288 ∧
    (s.queue k).m = c :: x :: l ∧ s.mayRefill k c = true ∧ s.qstate k = 2) ∧
    (∃ (s : State), s.runs? = true) :=
  ⟨⟨flds [(pFDB 1, Fd.WIN_BANK, 1)] (own (pFDB 1) sw), 0, 1, by simp only [State.takes, State.commands]; decide +kernel⟩,
    ⟨flds [(pFDB 1, fRebuild, 1)] sw, 0, 1, by decide +kernel⟩,
    ⟨{ ents [(pSWC, 1, 0, 288, En.QST_STATE, 1)] (flds [(pSWC, Fd.SWC_SPILL_BLOCKS_BLOCKS, 8)] sw) with swc := { queues := [(288, { t := [cp 5] })] } },
    288, cp 5, [], by decide +kernel⟩,
    ⟨{ ents [(pSWC, 1, 0, 287, En.QST_STATE, 2)] sw with swc := { queues := [(287, { m := [cp 5, cp 6] })] } }, 287, cp 5,
    cp 6, [], by decide +kernel⟩,
    ⟨{ sw with swc := { flushed := [(287, ([cp 5], []))] } }, by decide +kernel⟩⟩

/-- EgressSelectionAndGates. -/
theorem witness_EgressSelectionAndGates :
    (∃ (s : State) (p : Nat) (q : Nat) (c : Copy), s.runs? = true ∧ p < 32 ∧ q < 8 ∧ s.canSend p = true ∧
    (s.egr p).line = none ∧ (s.egr p).susp = none ∧ (s.queue (qkey p q) = { h := [c] }) ∧
    (∀ k, k < 8 → k ≠ q → (s.queue (qkey p k)).h = []) ∧ s.fld (pEPRT p) (Fd.EPRT_AGE_LIMIT.at 4 q) = 0 ∧
    s.eqF p q En.EQ_MAX_SDU = 0 ∧ s.entF pEGR 0 0 p En.EPORT_GUARD_EN = 0 ∧ s.gclSt p = 0 ∧ s.tsa p q = 0 ∧
    s.pmActive p = false ∧ s.enabled (pMSEC 0) = false ∧ s.qstate (qkey p q) = 0 ∧
    s.flag pSWC Fd.SWC_SPILL_STAT_ACTIVE = false) ∧
    (∃ (s : State) (t : Nat) (p : Nat) (g : GateSeg), s.runs? = true ∧ p < 32 ∧ s.gclRuns p = true ∧ (s.egr p).line = none ∧
    gateAt (s.segsOf p 0) (s.gclPhase p 0 ((s.advance t).viewNow (s.glpF p 0 En.GLP_VIEW))) = some g ∧
    g.e ≠ s.glpF p 0 En.GLP_ENTRY) ∧
    (∃ (s : State) (t : Nat) (p : Nat), s.runs? = true ∧ p < 12 ∧ s.pmActive p = true ∧ s.gclRuns p = true ∧
    (s.egr p).line = none ∧
    holdsSoon (s.segsOf p 0) (s.glpF p 0 En.GLP_CYCLE) (s.gclPhase p 0 ((s.advance t).viewNow (s.glpF p 0 En.GLP_VIEW))) (s.entF pEGR 0 0 p En.EPORT_HOLD_ADV) = true) ∧
    (∃ (s : State) (d : Nat) (p : Nat), p < 32 ∧ s.takes d (pEGR * 4096 + Reg.EGR_GCL_CMD) (2 ^ 31 + 256 + p) ∧
    s.gclBad p = false) ∧
    (∃ (s : State) (d : Nat) (p : Nat), p < 32 ∧ s.takes d (pEGR * 4096 + Reg.EGR_GCL_CMD) (2 ^ 31 + 512 + p) ∧
    s.gclSt p = 2 ∧ (s.egr p).before < 4) ∧
    (∃ (s : State) (t : Nat) (p : Nat), s.runs? = true ∧ p < 32 ∧ s.gclSt p = 2 ∧ (s.egr p).line = none ∧
    (s.egr p).changeAt ≤ (s.advance t).viewNow (s.egr p).changeView) ∧
    (∃ (s : State) (t : Nat) (x : FrSet), s.runs? = true ∧ s.frer.sets = [x] ∧ x.fin + 4000 ≤ (s.advance t).now ∧
    x.done = true ∧ (x.contents.all (fun c => c.held.isNone) = true)) ∧
    (∃ (s : State) (t : Nat) (f : Nat) (x : Nat), s.runs? = true ∧ f < 512 ∧ s.frDeadline f = some x ∧
    x + 4000 ≤ (s.advance t).now) :=
  ⟨⟨{ ents [(pEGR, 0, 0, 31, En.EPORT_GUARD_EN, 0)] <| flds [(pEPRT 31, Fd.EPRT_STATE_STATE, 2), (pEPRT 31, Fd.EPRT_CFG_TX_EN, 1)] sw with swc := { queues := [(qkey 31 7, { h := [cp 5] })] } },
    31, 7, cp 5, by decide +kernel⟩,
    ⟨ents [(pEGR, 3, 0, 31, En.GLP_STATE, 1), (pEGR, 3, 0, 31, En.GLP_LEN, 1), (pEGR, 3, 0, 31, En.GLP_CYCLE, 1000), (pEGR, 3, 0, 31, En.GLP_ENTRY, 9)] sw,
    0, 31, ⟨0, 0, 1000, 0⟩, by decide +kernel⟩,
    ⟨ents [(pEGR, 3, 0, 11, En.GLP_STATE, 1), (pEGR, 3, 0, 11, En.GLP_LEN, 2), (pEGR, 3, 0, 11, En.GLP_CYCLE, 1000), (pEGR, 0, 0, 11, En.EPORT_HOLD_ADV, 500), (pEGR, 2, 0, 256 * 11, En.GLE_INTERVAL, 400), (pEGR, 2, 0, 256 * 11 + 1, En.GLE_OP, 1)] (flds [(pEPRT 11, Fd.EPRT_PMAC_STAT_ACTIVE, 1)] sw),
    0, 11, by decide +kernel⟩,
    ⟨own pEGR sw, 0, 31, by simp only [State.takes]; decide +kernel⟩,
    ⟨{ ents [(pEGR, 3, 0, 31, En.GLP_STATE, 2)] (own pEGR sw) with egress := [(31, { before := 1 })] }, 0, 31,
    by simp only [State.takes]; decide +kernel⟩,
    ⟨{ ents [(pEGR, 3, 0, 31, En.GLP_STATE, 2)] sw with egress := [(31, { before := 1, changeAt := 3 })] }, 2 ^ 70, 31,
    by decide +kernel⟩,
    ⟨{ sw with frer := { sets := [⟨5, 9, 100, [⟨64, 1, 1, none⟩], true, false, (frame64, 3, 20)⟩] } }, 2 ^ 70,
    ⟨5, 9, 100, [⟨64, 1, 1, none⟩], true, false, (frame64, 3, 20)⟩, by decide +kernel⟩,
    ⟨{ sw with frer := { lastR := [(511, 1)] } }, 2 ^ 75, 511, 1000 * 1000000, by decide +kernel⟩⟩

/-- RingsAndVectors. -/
theorem witness_RingsAndVectors :
    (∃ (s : State) (e : Nat) (x : Nat) (desc : List Nat), s.runs? = true ∧ e < 2 ∧ s.enabled pSWC = true ∧
    s.frozen pSWC = false ∧ s.nextRing e = some x ∧ s.ringF (2 * e + x / 4) 0 (x % 4) En.RING_LOC = 0 ∧
    (nth 0 desc 10).testBit 0 = true ∧ 14 ≤ leNat ((desc.drop 8).take 2) ∧ leNat ((desc.drop 8).take 2) ≤ 9212 ∧
    max (s.fld pSWC Fd.SWC_HOST_FLOOR_LEVEL) (cellsOf (max 64 (leNat ((desc.drop 8).take 2) + 4))) ≤ s.free) ∧
    (∃ (s : State) (p : Nat) (d : Nat) (r : Nat) (x : OnLine) (desc : List Nat), s.runs? = true ∧
    (p = 32 ∨ p = 33 ∨ p = 35) ∧ (s.egr p).line = some x ∧ x.copy.kind = 0 ∧ s.rxRing p x.q = some (d, r) ∧
    s.ringEmpty d 1 r = false ∧ (s.dom d).bme = true ∧ s.ringF d 1 r En.RING_LOC = 0 ∧ (nth 0 desc 10).testBit 0 = true ∧
    64 ≤ leNat ((desc.drop 8).take 2) ∧ leNat ((desc.drop 8).take 2) ≤ 16384 ∧ leNat ((desc.drop 8).take 2) % 64 = 0) ∧
    (∃ (s : State) (d : Nat) (r : Nat) (st : Nat) (w : TxWait), s.runs? = true ∧ d < 4 ∧ r < 4 ∧
    (s.ringRt d 0 r).waits = [w] ∧ w.status = some st ∧ w.loc = 0) ∧
    (∃ (s : State) (t : Nat) (d : Nat) (r : Nat) (w : TxWait), s.runs? = true ∧ d < 4 ∧ r < 4 ∧
    (s.ringRt d 0 r).waits = [w] ∧ w.status = none ∧ w.sent = [] ∧ w.stamp + 10000000 ≤ (s.advance t).now ∧ w.loc = 0) ∧
    (∃ (s : State) (d : Nat) (tab : Nat) (r : Nat), s.runs? = true ∧ d < 4 ∧ tab < 2 ∧ r < 4 ∧ s.ringRuns d tab r = true) ∧
    (∃ (s : State) (t : Nat) (d : Nat) (tab : Nat) (r : Nat), s.runs? = true ∧ d < 4 ∧ tab < 2 ∧ r < 4 ∧
    s.ringF d tab r En.RING_IRQ_EN = 1 ∧ s.ringF d tab r En.RING_COAL_US ≠ 0 ∧ (s.ringRt d tab r).coal ≠ 0 ∧
    (s.ringRt d tab r).since + s.ringF d tab r En.RING_COAL_US * 1000 ≤ (s.advance t).now) ∧
    (∃ (s : State) (d : Nat), s.live = true ∧ d < 4) ∧
    (∃ (s : State) (d : Nat) (v : Nat), d < 6 ∧ s.takes d (pHDOM d * 4096 + Reg.HDOM_VEC_EOI) v) ∧
    (∃ (s : State) (d : Nat), s.runs? = true ∧ d < 4) :=
  ⟨⟨ring 0, 1, 7, descr 60, by decide +kernel⟩,
    ⟨{ ring 1 with egress := [(33, { line := some ⟨7, cp 5, 9, false, false⟩ })] }, 33, 3, 3, ⟨7, cp 5, 9, false, false⟩,
    descr 64, by decide +kernel⟩,
    ⟨{ up with doms := [(3, { rings := [(3, { waits := [⟨5, 4096, 0, false, 1, 0, [], false, some 0, (0, 0, 255)⟩] })] })] },
    3, 3, 0, ⟨5, 4096, 0, false, 1, 0, [], false, some 0, (0, 0, 255)⟩, by decide +kernel⟩,
    ⟨{ up with doms := [(3, { rings := [(3, { waits := [⟨5, 4096, 0, true, 1, 0, [], false, none, (0, 0, 255)⟩] })] })] },
    2 ^ 70, 3, 3, ⟨5, 4096, 0, true, 1, 0, [], false, none, (0, 0, 255)⟩, by decide +kernel⟩,
    ⟨ring 1, 3, 1, 3, by decide +kernel⟩,
    ⟨{ ents [(pHDOM 3, 1, 0, 3, En.RING_IRQ_EN, 1), (pHDOM 3, 1, 0, 3, En.RING_COAL_US, 1)] up with doms := [(3, { rings := [(7, { coal := 1, since := 5 })] })] },
    1005 * 65536, 3, 1, 3, by decide +kernel⟩,
    ⟨up, 3, by decide +kernel⟩,
    ⟨up, 5, 2 ^ 32 - 1, by simp only [State.takes]; decide +kernel⟩,
    ⟨up, 3, by decide +kernel⟩⟩

/-- SpiTargets. -/
theorem witness_SpiTargets :
    (∃ (s : State) (d : Nat) (a : Nat), (d = 4 ∨ d = 5) ∧ s.live = true ∧ a < 2 ^ 24 ∧ a % 4 = 0 ∧ (s.dom d).spi = [] ∧
    a / 4096 = pGLB ∧ 0x040 ≤ a % 4096 ∧ a % 4096 < 0x800) ∧
    (∃ (s : State) (d : Nat) (a : Nat), (d = 4 ∨ d = 5) ∧ s.live = true ∧ a < 2 ^ 24 ∧ a % 4 = 0 ∧ (s.dom d).spi.length < 64) ∧
    (∃ (s : State) (d : Nat) (p : Nat) (v : Nat) (l : List (Nat × Nat)), (d = 4 ∨ d = 5) ∧ p < 4096 ∧ hasHeader p = true ∧
    p ≠ pTIME ∧ v < 2 ^ 32 ∧ (s.dom d).spi = (p * 4096 + Reg.IRQ_EN, v) :: l ∧ s.takes d (p * 4096 + Reg.IRQ_EN) v) ∧
    (∃ (s : State) (d : Nat), (d = 4 ∨ d = 5) ∧ s.live = true) ∧
    (∃ (s : State) (d : Nat), (d = 4 ∨ d = 5) ∧ s.live = true) ∧
    (∃ (s : State) (d : Nat), (d = 4 ∨ d = 5) ∧ s.live = true) ∧
    (∃ (s : State) (d : Nat), (d = 4 ∨ d = 5) ∧ s.live = true ∧ (s.dom d).rstArmed = true ∧
    s.fld (pHDOM d) Fd.HDOM_STATE_STATE = 0) :=
  ⟨⟨up, 5, pGLB * 4096 + 0x7FC, by decide +kernel⟩,
    ⟨up, 5, 2 ^ 24 - 4, by decide +kernel⟩,
    ⟨{ flds [(pLOG, Fd.OWNER_UNOWNED, 0), (pLOG, Fd.OWNER_DOMAIN, 5)] up with doms := [(5, { spi := [(pLOG * 4096 + Reg.IRQ_EN, 1)] })] },
    5, pLOG, 1, [], by simp only [State.takes]; decide +kernel⟩,
    ⟨up, 5, by decide +kernel⟩,
    ⟨up, 5, by decide +kernel⟩,
    ⟨up, 5, by decide +kernel⟩,
    ⟨{ up with doms := [(5, { rstArmed := true })] }, 5, by decide +kernel⟩⟩

/-- DomainResetsAndWatchdogs. -/
theorem witness_DomainResetsAndWatchdogs :
    (∃ (s : State) (d : Nat), s.runs? = true ∧ d < 4 ∧ s.fld (pHDOM d) Fd.HDOM_STATE_STATE = 0) ∧
    (∃ (s : State) (e : Nat), s.runs? = true ∧ e < 2 ∧
    (∀ k, k < 2 → s.fld (pHDOM (2 * e + k)) Fd.HDOM_STATE_STATE = 0 ∧ (headerPages.all fun p => p == pHDOM (2 * e + k) || !(s.owns (2 * e + k) p)) = true)) ∧
    (∃ (s : State) (e : Nat), s.runs? = true ∧ e < 2 ∧ s.flag (pHDOM (2 * e)) Fd.HDOM_STATE_LINK = true ∧
    (∀ k, k < 2 → s.fld (pHDOM (2 * e + k)) Fd.HDOM_STATE_STATE = 0 ∧ (headerPages.all fun p => p == pHDOM (2 * e + k) || !(s.owns (2 * e + k) p)) = true)) ∧
    (∃ (s : State) (d : Nat), s.runs? = true ∧ d < 6 ∧ s.fld (pHDOM d) Fd.HDOM_STATE_STATE = 1) ∧
    (∃ (s : State) (e : Nat), e < 2 ∧ e ∉ s.perst) ∧
    (∃ (s : State) (e : Nat), e < 2 ∧ e ∈ s.perst ∧ s.boot ≠ .off ∧ s.pwr ≠ .comma) ∧
    (∃ (s : State) (t : Nat) (d : Nat) (v : Nat), d < 6 ∧ s.takes d (pHDOM d * 4096 + Reg.HDOM_WDOG_KICK) v ∧
    v / 65536 % 65536 = 0x4B1C ∧ (s.fld (pHDOM d) Fd.HDOM_WDOG_TIMEOUT_MS = 0 ∨ (s.advance t).now ≤ s.domDeadline d)) ∧
    (∃ (s : State) (t : Nat) (d : Nat), s.runs? = true ∧ d < 6 ∧ s.fld (pHDOM d) Fd.HDOM_WDOG_TIMEOUT_MS ≠ 0 ∧
    s.fld (pHDOM d) Fd.HDOM_STATE_STATE = 0 ∧ s.domDeadline d + 4000 ≤ (s.advance t).now) :=
  ⟨⟨up, 3, by decide +kernel⟩,
    ⟨up, 1, by decide +kernel⟩,
    ⟨flds [(pHDOM 2, Fd.HDOM_STATE_LINK, 1)] up, 1, by decide +kernel⟩,
    ⟨flds [(pHDOM 5, Fd.HDOM_STATE_STATE, 1)] up, 5, by decide +kernel⟩,
    ⟨up, 1, by decide +kernel⟩,
    ⟨{ up with perst := [1] }, 1, by decide +kernel⟩,
    ⟨up, 0, 5, 0x4B1C0000, by simp only [State.takes]; decide +kernel⟩,
    ⟨flds [(pHDOM 5, Fd.HDOM_WDOG_TIMEOUT_MS, 1)] up, 1004000 * 65536, 5, by decide +kernel⟩⟩

/-- BracketOperations. -/
theorem witness_BracketOperations :
    (∃ (s : State) (d : Nat) (n : Nat), n < 64 ∧ d < 6 ∧ s.takes d (pBRK * 4096 + Reg.BRK_LOCK + 4 * n) 1 ∧
    (s.fld pBRK (Fd.BRK_ALLOW_DOMAINS.at 4 n)).testBit d = true ∧
    (s.lockF n Fd.BRK_LOCK_STATE = 0 ∨ s.lockF n Fd.BRK_LOCK_STATE = 2)) ∧
    (∃ (s : State) (d : Nat) (n : Nat), n < 64 ∧ d < 6 ∧ s.takes d (pBRK * 4096 + Reg.BRK_LOCK + 4 * n) 1 ∧
    (s.fld pBRK (Fd.BRK_ALLOW_DOMAINS.at 4 n)).testBit d = true ∧ s.lockF n Fd.BRK_LOCK_STATE = 1 ∧
    s.lockF n Fd.BRK_LOCK_HOLDER ≠ d) ∧
    (∃ (s : State) (d : Nat) (n : Nat), n < 64 ∧ d < 6 ∧ s.takes d (pBRK * 4096 + Reg.BRK_LOCK + 4 * n) 2 ∧
    (s.fld pBRK (Fd.BRK_ALLOW_DOMAINS.at 4 n)).testBit d = true ∧ s.lockF n Fd.BRK_LOCK_STATE = 1 ∧
    s.lockF n Fd.BRK_LOCK_HOLDER = d) ∧
    (∃ (s : State) (d : Nat) (n : Nat), n < 64 ∧ d < 6 ∧ s.takes d (pBRK * 4096 + Reg.BRK_LOCK + 4 * n) 3 ∧
    (s.fld pBRK (Fd.BRK_ALLOW_DOMAINS.at 4 n)).testBit d = true ∧ s.lockF n Fd.BRK_LOCK_STATE = 1 ∧
    s.lockF n Fd.BRK_LOCK_HOLDER = d) :=
  ⟨⟨flds [(pBRK, Fd.BRK_ALLOW_DOMAINS.at 4 63, 63)] up, 5, 63, by simp only [State.takes]; decide +kernel⟩,
    ⟨flds [(pBRK, Fd.BRK_ALLOW_DOMAINS.at 4 63, 63), (pBRK, Fd.BRK_LOCK_STATE.at 4 63, 1), (pBRK, Fd.BRK_LOCK_HOLDER.at 4 63, 4)] up,
    5, 63, by simp only [State.takes]; decide +kernel⟩,
    ⟨flds [(pBRK, Fd.BRK_ALLOW_DOMAINS.at 4 63, 63), (pBRK, Fd.BRK_LOCK_STATE.at 4 63, 1), (pBRK, Fd.BRK_LOCK_HOLDER.at 4 63, 5)] up,
    5, 63, by simp only [State.takes]; decide +kernel⟩,
    ⟨flds [(pBRK, Fd.BRK_ALLOW_DOMAINS.at 4 63, 63), (pBRK, Fd.BRK_LOCK_STATE.at 4 63, 1), (pBRK, Fd.BRK_LOCK_HOLDER.at 4 63, 5)] up,
    5, 63, by simp only [State.takes]; decide +kernel⟩⟩

/-- BracketsStayLegal. -/
theorem witness_BracketsStayLegal : ∃ (s u : State) (t d n : Nat) (c : Instr),
    (c = .acquire t d n ∨ c = .release t d n ∨ c = .clearBroken t d n) ∧
    (∀ k, k < 64 → s.lockF k Fd.BRK_LOCK_STATE ≤ 2 ∧
      (s.lockF k Fd.BRK_LOCK_BROKEN_GRANT = 1 → s.lockF k Fd.BRK_LOCK_STATE = 1)) ∧ exec c s = .next u :=
  let s := flds [(pBRK, Fd.BRK_ALLOW_DOMAINS.at 4 63, 63)] up
  ⟨s, nextOf s (exec (.acquire 0 5 63) s), 0, 5, 63, .acquire 0 5 63, .inl rfl, by decide +kernel, rfl⟩

/-- RingSegmentsAndMram. -/
theorem witness_RingSegmentsAndMram :
    (∃ (s : State) (i : Nat) (r : Rec) (l : List Rec), s.live = true ∧ s.enabled pTRN = true ∧ s.frozen pTRN = false ∧
    s.trn.low = r :: l ∧ r.high = false ∧ s.trn.lowHead = some i ∧ i < 16384 ∧ s.trn.cap = none ∧
    s.segF i En.SEGD_BYTES + recSize r ≤ 1048576) ∧
    (∃ (s : State) (t : Nat) (cls : Nat) (i : Nat), s.runs? = true ∧ cls < 2 ∧ i < 16384 ∧ s.headOf (cls = 1) = some i ∧
    s.fld pTRN Fd.TRN_CFG_SEG_MAX_MS ≠ 0 ∧
    s.segF i En.SEGD_OPEN + s.fld pTRN Fd.TRN_CFG_SEG_MAX_MS * 1000000 ≤ (s.advance t).now) ∧
    (∃ (s : State) (d : Nat) (seg : Nat) (dom : Nat), s.takes d (pTRN * 4096 + Reg.TRN_XCMD) (2 ^ 31 + dom * 2 ^ 16 + seg) ∧
    dom < 4 ∧ seg < s.fld pTRN Fd.TRN_RING_SEGS ∧ seg < 16384 ∧ s.flag pTRN Fd.TRN_XSTAT_BUSY = false ∧
    s.segF seg En.SEGD_STATE = 2 ∧ s.rd64 pTRN Reg.TRN_XADDR_LO % 4096 = 0) ∧
    (∃ (s : State) (x : Exp), s.live = true ∧ s.frozen pTRN = false ∧ s.trn.exp = some x) ∧
    (∃ (s : State) (d : Nat), s.commands d pTRN 8) ∧
    (∃ (s : State) (d : Nat), s.commands d pTRN 9) ∧
    (∃ (s : State) (d : Nat) (slot : Nat), slot < 7 ∧ s.fld pMRAM (Fd.MRAM_SLOT_STATE.at 4 slot) ≠ 1 ∧
    s.takes d (pMRAM * 4096 + Reg.MRAM_SLOT + 4 * slot) (8 + 4 * s.fld pMRAM (Fd.MRAM_SLOT_KEEP.at 4 slot))) ∧
    (∃ (s : State) (d : Nat) (a : Nat) (bits : Nat) (v : Nat), s.live = true ∧ inMramWindow (a / 4096) = true ∧
    s.judge d a bits v = none) :=
  ⟨⟨{ flds [(pTRN, Fd.CTRL_ENABLE, 1)] up with trn := { low := [rec0], lowHead := some 16383 } }, 16383, rec0, [],
    by decide +kernel⟩,
    ⟨{ flds [(pTRN, Fd.TRN_CFG_SEG_MAX_MS, 1)] up with trn := { highHead := some 16383 } }, 1000000 * 65536, 1, 16383,
    by decide +kernel⟩,
    ⟨own pTRN (ents [(pTRN, 1, 0, 7, En.SEGD_STATE, 2)] (flds [(pTRN, Fd.TRN_RING_SEGS, 8)] up)), 0, 7, 3,
    by simp only [State.takes]; decide +kernel⟩,
    ⟨{ up with trn := { exp := some ⟨7, 3, 4096⟩ } }, ⟨7, 3, 4096⟩, by decide +kernel⟩,
    ⟨flds [(pTRN, Fd.WIN_TABLE, 1), (pTRN, Fd.TRN_RING_SEGS, 8)] (own pTRN up), 0,
    by simp only [State.takes, State.commands]; decide +kernel⟩,
    ⟨flds [(pTRN, Fd.WIN_TABLE, 1), (pTRN, Fd.TRN_RING_SEGS, 8)] (own pTRN up), 0,
    by simp only [State.takes, State.commands]; decide +kernel⟩,
    ⟨own pMRAM up, 0, 6, by simp only [State.takes]; decide +kernel⟩,
    ⟨own pMRAM up, 0, 0x400000, 32, 7, by decide +kernel⟩⟩

/-- QuotationLife. -/
theorem witness_QuotationLife :
    (∃ (s : State) (d : Nat) (x : Nat), s.takes d (pTRN * 4096 + Reg.TRN_QTRIG) (2 ^ 31 + x) ∧ x < 256 ∧
    s.enabled pTRN = true ∧ (s.fld pTRN Fd.TRN_QCFG_SRC_EN).testBit 0 = true ∧ (∀ k, k < 4 → s.qF k En.QENT_STATE = 0)) ∧
    (∃ (s : State) (t : Nat) (d : Nat) (x : Nat) (e : Nat), s.takes d (pTRN * 4096 + Reg.TRN_QTRIG) (2 ^ 31 + x) ∧ x < 256 ∧
    e < 4 ∧ s.enabled pTRN = true ∧ (s.fld pTRN Fd.TRN_QCFG_SRC_EN).testBit 0 = true ∧ s.qF e En.QENT_STATE = 1 ∧
    s.qF e En.QENT_START ≤ (s.advance t).now ∧ (s.advance t).now ≤ s.qF e En.QENT_END ∧
    (∀ k, k < 4 → k ≠ e → s.qF k En.QENT_STATE ≠ 1)) ∧
    (∃ (s : State) (input : Nat) (st : Nat) (e : Nat), s.runs? = true ∧ s.pwr = .clause ∧ s.trn.held = [(input, st)] ∧
    e < 4 ∧ s.enabled pTRN = true ∧ (s.fld pTRN Fd.TRN_QCFG_SRC_EN).testBit 1 = true ∧ s.qF e En.QENT_STATE = 1 ∧
    s.qF e En.QENT_START ≤ st ∧ st ≤ s.qF e En.QENT_END ∧ (∀ k, k < 4 → k ≠ e → s.qF k En.QENT_STATE ≠ 1)) ∧
    (∃ (s : State) (t : Nat) (e : Nat), s.runs? = true ∧ e < 4 ∧ s.qF e En.QENT_STATE = 1 ∧
    s.qF e En.QENT_END + 10000000 ≤ (s.advance t).now) ∧
    (∃ (s : State) (c : Cap), s.live = true ∧ s.trn.cap = some c ∧ c.entry < 4 ∧ c.slot < 7 ∧ c.todo = [] ∧
    s.qF c.entry En.QENT_STATE = 2 ∧ (∀ k, k < 4 → s.qF k En.QENT_CAP ≠ 1)) ∧
    (∃ (s : State) (d : Nat) (e : Nat), s.takes d (pTRN * 4096 + Reg.TRN_QREL) (2 ^ 31 + e) ∧ e < 4 ∧
    s.qF e En.QENT_STATE = 2 ∧ s.qF e En.QENT_CAP ≠ 1 ∧ s.qF e En.QENT_CAP ≠ 2) :=
  ⟨⟨own pTRN (qt 3 0 0 0), 0, 255, by simp only [State.takes]; decide +kernel⟩,
    ⟨own pTRN (qt 3 1 0 5), 0, 0, 255, 3, by simp only [State.takes]; decide +kernel⟩,
    ⟨{ qt 3 1 0 5 with trn := { held := [(7, 5)] } }, 7, 5, 3, by decide +kernel⟩,
    ⟨qt 3 1 0 5, 10000005 * 65536, 3, by decide +kernel⟩,
    ⟨{ qt 3 2 0 5 with trn := { cap := some ⟨3, 6, [], 4096, 0, 5, false, false, false⟩ } },
    ⟨3, 6, [], 4096, 0, 5, false, false, false⟩, by decide +kernel⟩,
    ⟨own pTRN (qt 3 2 0 5), 0, 3, by simp only [State.takes]; decide +kernel⟩⟩

/-- ClusterStates. -/
theorem witness_ClusterStates :
    (∃ (s : State) (d : Nat) (c : Nat) (v : Nat), c < 8 ∧ v % 2 = 1 ∧ s.takes d (pNM * 4096 + Reg.NM_CL_CFG + 0x40 * c) v ∧
    s.enabled pNM = true ∧ s.clF c Fd.NM_CL_CFG_ENABLE = 0 ∧
    s.clConflict c (s.clF c Fd.NM_CL_CAN_CH) (s.rd pNM (Reg.NM_CL_SEG + 0x40 * c)) = false) ∧
    (∃ (s : State) (d : Nat) (c : Nat) (v : Nat), c < 8 ∧ v % 2 = 0 ∧ s.takes d (pNM * 4096 + Reg.NM_CL_CFG + 0x40 * c) v ∧
    s.enabled pNM = true ∧ s.clF c Fd.NM_CL_CFG_ENABLE = 1) ∧
    (∃ (s : State) (t : Nat) (d : Nat) (c : Nat), c < 8 ∧ s.takes d (pNM * 4096 + Reg.NM_CL_REQ + 0x40 * c) 1 ∧
    s.nmUp = true ∧ s.clSt c = 5 ∧ (s.advance t).now ≤ s.nmDeadline c) ∧
    (∃ (s : State) (t : Nat) (d : Nat) (c : Nat), c < 8 ∧ s.takes d (pNM * 4096 + Reg.NM_CL_REQ + 0x40 * c) 0 ∧
    s.nmUp = true ∧ s.clSt c = 4 ∧ (s.advance t).now ≤ s.nmDeadline c) ∧
    (∃ (s : State) (t : Nat) (d : Nat) (c : Nat) (v : Nat), c < 8 ∧
    s.takes d (pNM * 4096 + Reg.NM_CL_REQ + 0x40 * c) (v % 2 + 2) ∧ s.nmUp = true ∧ s.clSt c = 4 ∧
    (s.advance t).now ≤ s.nmDeadline c) ∧
    (∃ (s : State) (t : Nat) (c : Nat) (n : Nat), s.runs? = true ∧ s.nmUp = true ∧ s.frozen pNM = false ∧ c < 8 ∧
    (s.clSt c = 3 ∨ s.clSt c = 4) ∧ s.clF c Fd.NM_CL_CFG_PASSIVE = 0 ∧ (s.cl c).due ≤ (s.advance t).now ∧ s.clCan c = [n] ∧
    s.entF pNM 0 0 n En.NMCH_NM_TX = 1 ∧ (s.can n).nmBuf = 2 ∧ s.txbState n 2 = 0 ∧ s.canMode n ≠ 15) ∧
    (∃ (s : State) (t : Nat) (c : Nat), s.runs? = true ∧ s.nmUp = true ∧ s.frozen pNM = false ∧ c < 8 ∧ s.clSt c = 3 ∧
    (s.cl c).entered + s.clF c Fd.NM_CL_TIME2_REPEAT_MS * 1000000 ≤ (s.advance t).now) ∧
    (∃ (s : State) (t : Nat) (c : Nat), s.runs? = true ∧ s.nmUp = true ∧ s.frozen pNM = false ∧ c < 8 ∧ s.clSt c = 5 ∧
    (s.cl c).held = [] ∧ s.nmDeadline c + 4000 ≤ (s.advance t).now) ∧
    (∃ (s : State) (t : Nat) (c : Nat), s.runs? = true ∧ s.nmUp = true ∧ s.frozen pNM = false ∧ c < 8 ∧ s.clSt c = 6 ∧
    (s.cl c).k + 50000 ≤ (s.advance t).now) ∧
    (∃ (s : State) (c : Nat), s.runs? = true ∧ s.nmUp = true ∧ s.frozen pNM = false ∧ c < 8 ∧ s.clSt c = 7 ∧
    s.segsAsleep c = true) ∧
    (∃ (s : State) (t : Nat) (c : Nat), s.runs? = true ∧ s.nmUp = true ∧ s.frozen pNM = false ∧ c < 8 ∧ s.clSt c = 2 ∧
    (s.cl c).held = [] ∧ s.fwDeadline c + 4000 ≤ (s.advance t).now) ∧
    (∃ (s : State) (t : Nat) (c : Nat) (R : Nat), s.runs? = true ∧ s.nmUp = true ∧ s.frozen pNM = false ∧ c < 8 ∧
    (s.clSt c = 5 ∨ s.clSt c = 6) ∧ s.clF c Fd.NM_CL_TIME3_OFF_REPORT_S ≠ 0 ∧ (s.cl c).reported = false ∧
    R = (s.cl c).episode + s.clF c Fd.NM_CL_TIME3_OFF_REPORT_S * 1000000000 ∧ R ≤ (s.advance t).now) :=
  ⟨⟨own pNM (flds [(pNM, Fd.CTRL_ENABLE, 1)] up), 0, 7, 1, by simp only [State.takes]; decide +kernel⟩,
    ⟨own pNM (nm 7 3), 0, 7, 0, by simp only [State.takes]; decide +kernel⟩,
    ⟨own pNM (nm 7 5), 0, 0, 7, by simp only [State.takes]; decide +kernel⟩,
    ⟨own pNM (nm 7 4), 0, 0, 7, by simp only [State.takes]; decide +kernel⟩,
    ⟨own pNM (nm 7 4), 0, 0, 7, 1, by simp only [State.takes]; decide +kernel⟩,
    ⟨{ ents [(pNM, 0, 0, 15, En.NMCH_NM_TX, 1)] (flds [(pCANC 15, Fd.CANC_MODE_CUR, 1)] (nm 7 3)) with cans := [(15, { nmBuf := 2 })] },
    0, 7, 15, by decide +kernel⟩,
    ⟨nm 7 3, 2 ^ 75, 7, by decide +kernel⟩,
    ⟨nm 7 5, 2 ^ 75, 7, by decide +kernel⟩,
    ⟨nm 7 6, 50000 * 65536, 7, by decide +kernel⟩,
    ⟨nm 7 7, 7, by decide +kernel⟩,
    ⟨nm 7 2, 2 ^ 75, 7, by decide +kernel⟩,
    ⟨flds [(pNM, Fd.NM_CL_TIME3_OFF_REPORT_S.at 0x40 7, 1)] (nm 7 5), 1000000000 * 65536, 7, 1000000000, by decide +kernel⟩⟩

/-- WakeSources. -/
theorem witness_WakeSources :
    (∃ (s : State) (n : Nat) (ticks : Nat), n < 8 ∧ s.fld pNM (Fd.NM_WAKEIN_FILT.at 4 n) ≤ ticks ∧
    s.fld pNM (Fd.NM_WAKEIN_EN.at 4 n) = 0) ∧
    (∃ (s : State) (n : Nat) (c : Nat) (ticks : Nat), n < 8 ∧ c < 8 ∧ s.fld pNM (Fd.NM_WAKEIN_FILT.at 4 n) ≤ ticks ∧
    s.fld pNM (Fd.NM_WAKEIN_EN.at 4 n) = 1 ∧ s.fld pNM (Fd.NM_WAKEIN_EDGE.at 4 n) = 2 ∧
    s.fld pNM (Fd.NM_WAKEIN_WAKE.at 4 n) = 1 ∧ s.fld pNM (Fd.NM_WAKEIN_QUOTE.at 4 n) = 0 ∧
    s.fld pNM (Fd.NM_WAKEIN_CL_MASK.at 4 n) = 2 ^ c ∧ s.nmUp = true ∧ s.clSt c = 1) ∧
    (∃ (s : State) (n : Nat) (c : Nat), s.canArmed n 1 = true ∧ s.nmUp = true ∧ s.clOfCan n = [c] ∧ s.clSt c = 1) ∧
    (∃ (s : State) (n : Nat) (c : Nat) (f : CanFrame), s.canArmed n 2 = true ∧ f.fmt ≤ 1 ∧ s.wufMatch n f = true ∧
    s.nmUp = true ∧ s.clOfCan n = [c] ∧ s.clSt c = 1) ∧
    (∃ (s : State) (n : Nat) (c : Nat) (count : Nat), s.canArmed n 2 = true ∧ 31 < count ∧ s.nmUp = true ∧
    s.clOfCan n = [c] ∧ s.clSt c = 1) ∧
    (∃ (s : State) (p : Nat) (c : Nat) (e : Nat) (bursts : List (Nat × Nat)), s.ldie.t1sArmed.contains p = true ∧ p < 32 ∧
    burstWake (s.fld pNM Fd.NM_T1S_ACT_COUNT) (s.fld pNM Fd.NM_T1S_ACT_BURST_US) (s.fld pNM Fd.NM_T1S_ACT_WINDOW_MS) bursts = some e ∧
    s.nmUp = true ∧ s.clOfPort p = [c] ∧ s.clSt c = 1) :=
  ⟨⟨flds [(pNM, Fd.NM_WAKEIN_FILT.at 4 7, 0)] up, 7, 255, by decide +kernel⟩,
    ⟨flds [(pNM, Fd.NM_WAKEIN_EN.at 4 7, 1), (pNM, Fd.NM_WAKEIN_FILT.at 4 7, 5), (pNM, Fd.NM_WAKEIN_EDGE.at 4 7, 2), (pNM, Fd.NM_WAKEIN_WAKE.at 4 7, 1), (pNM, Fd.NM_WAKEIN_QUOTE.at 4 7, 0), (pNM, Fd.NM_WAKEIN_CL_MASK.at 4 7, 128)] (nm 7 1),
    7, 7, 5, by decide +kernel⟩,
    ⟨{ nm 7 1 with ldie := { standby := [(15, 1)] } }, 15, 7, by decide +kernel⟩,
    ⟨{ ents [(pNM, 0, 0, 15, En.NMCH_VALID, 1), (pNM, 0, 0, 15, En.NMCH_IDMASK, 2 ^ 29 - 1), (pNM, 0, 0, 15, En.NMCH_ID, 5)] (nm 7 1) with ldie := { standby := [(15, 2)] } },
    15, 7, { id := 5 }, by decide +kernel⟩,
    ⟨{ nm 7 1 with ldie := { standby := [(15, 2)] } }, 15, 7, 32, by decide +kernel⟩,
    ⟨{ flds [(pNM, Fd.NM_T1S_ACT_COUNT, 1), (pNM, Fd.NM_T1S_ACT_BURST_US, 1), (pNM, Fd.NM_T1S_ACT_WINDOW_MS, 1)] (nm 7 1) with ldie := { t1sArmed := [31] } },
    31, 7, 1000, [(0, 1000)], by decide +kernel⟩⟩

/-- KeyCommands. -/
theorem witness_KeyCommands :
    (∃ (s : State) (d : Nat) (k : Nat) (slot : Nat), s.keyTakes d k 1 slot ∧ s.attrOk d (s.rd (pKEY k) Reg.KEY_ATTR) = true ∧
    2 ≤ slot ∧ s.slotValid slot = false ∧ s.keys.rngFail = false) ∧
    (∃ (s : State) (d : Nat) (k : Nat) (slot : Nat), s.keyTakes d k 2 slot ∧ s.attrOk d (s.rd (pKEY k) Reg.KEY_ATTR) = true ∧
    2 ≤ slot ∧ s.slotValid slot = false) ∧
    (∃ (s : State) (d : Nat) (k : Nat) (slot : Nat), s.keyTakes d k 3 slot ∧
    (s.subjCheck d (s.rd (pKEY k) Reg.KEY_SUBJ) (fun x => (kaUses x).testBit useKdf) = none) ∧
    s.attrOk d (s.rd (pKEY k) Reg.KEY_ATTR) = true ∧
    attrWithin (s.rd (pKEY k) Reg.KEY_ATTR) (s.slotAttr (s.rd (pKEY k) Reg.KEY_SUBJ % 256)) = true ∧
    1 ≤ nth 0 (s.staging k) 48 ∧ nth 0 (s.staging k) 48 ≤ 16 ∧ nth 0 (s.staging k) 49 ≤ 32 ∧ nth 0 (s.staging k) 0 ≠ 0 ∧
    2 ≤ slot ∧ s.slotValid slot = false) ∧
    (∃ (s : State) (d : Nat) (k : Nat) (slot : Nat), s.keyTakes d k 4 slot ∧
    (s.subjCheck d (s.rd (pKEY k) Reg.KEY_SUBJ) (fun _ => true) = none) ∧ fixedSlot (s.rd (pKEY k) Reg.KEY_SUBJ) = false) ∧
    (∃ (s : State) (d : Nat) (k : Nat) (slot : Nat), s.keyTakes d k 5 slot ∧
    (s.subjCheck d (s.rd (pKEY k) Reg.KEY_SUBJ) (fun _ => true) = none) ∧ fixedSlot (s.rd (pKEY k) Reg.KEY_SUBJ) = false ∧
    s.attrOk d (s.rd (pKEY k) Reg.KEY_ATTR) = true ∧
    attrWithin (s.rd (pKEY k) Reg.KEY_ATTR) (s.slotAttr (s.rd (pKEY k) Reg.KEY_SUBJ % 256)) = true ∧
    kaType (s.rd (pKEY k) Reg.KEY_ATTR) = kaType (s.slotAttr (s.rd (pKEY k) Reg.KEY_SUBJ % 256))) ∧
    (∃ (s : State) (d : Nat) (k : Nat) (slot : Nat), s.keyTakes d k 6 slot ∧
    (s.subjCheck d (s.rd (pKEY k) Reg.KEY_SUBJ) (fun _ => true) = none) ∧ s.keys.rngFail = false) ∧
    (∃ (s : State) (d : Nat) (k : Nat) (slot : Nat), s.keyTakes d k 7 slot ∧
    (s.subjCheck d (s.rd (pKEY k) Reg.KEY_SUBJ) (fun x => (kaUses x).testBit useSign) = none) ∧
    s.rd (pKEY k) Reg.KEY_SUBJ % 256 ≠ 1 ∧ s.keys.rngFail = false) ∧
    (∃ (s : State) (d : Nat) (k : Nat) (slot : Nat), s.keyTakes d k 8 slot ∧
    (s.subjCheck d (s.rd (pKEY k) Reg.KEY_SUBJ) (fun x => kaType x = 3) = none)) ∧
    (∃ (s : State) (r : KeyRun) (l : List KeyRun), s.live = true ∧ s.keys.runs = r :: l ∧ r.port < 4) ∧
    (∃ (s : State), s.live = true) ∧
    (∃ (s : State), s.live = true) :=
  ⟨⟨key 3 (63 * 2 ^ 24 + 65536 + 7 * 256 + 16) 0 0, 0, 3, 255, by simp only [State.takes, State.keyTakes]; decide +kernel⟩,
    ⟨key 3 (63 * 2 ^ 24 + 65536 + 7 * 256 + 16) 0 0, 0, 3, 255, by simp only [State.takes, State.keyTakes]; decide +kernel⟩,
    ⟨ents [(pKEY 3, 1, 0, 1, ⟨0, 128, 8⟩, 16), (pKEY 3, 1, 0, 1, ⟨0, 136, 8⟩, 32), (pKEY 3, 1, 0, 0, ⟨0, 0, 8⟩, 1)] (key 3 (63 * 2 ^ 24 + 65536 + 7 * 256 + 16) (65536 + 9) (63 * 2 ^ 24 + 65536 + 7 * 256 + 16)),
    0, 3, 255, by simp only [State.takes, State.keyTakes]; decide +kernel⟩,
    ⟨key 3 0 (65536 + 9) (63 * 2 ^ 24 + 65536 + 7 * 256 + 16), 0, 3, 0,
    by simp only [State.takes, State.keyTakes]; decide +kernel⟩,
    ⟨key 3 (63 * 2 ^ 24 + 65536 + 256 + 16) (65536 + 9) (63 * 2 ^ 24 + 65536 + 7 * 256 + 16), 0, 3, 0,
    by simp only [State.takes, State.keyTakes]; decide +kernel⟩,
    ⟨key 3 0 (65536 + 9) (63 * 2 ^ 24 + 65536 + 7 * 256 + 16), 0, 3, 0,
    by simp only [State.takes, State.keyTakes]; decide +kernel⟩,
    ⟨key 3 0 (65536 + 9) (63 * 2 ^ 24 + 65536 + 8 * 256 + 48), 0, 3, 0,
    by simp only [State.takes, State.keyTakes]; decide +kernel⟩,
    ⟨key 3 0 (65536 + 9) (63 * 2 ^ 24 + 65536 + 8 * 256 + 48), 0, 3, 0,
    by simp only [State.takes, State.keyTakes]; decide +kernel⟩,
    ⟨{ up with keys := { runs := [⟨3, some 5, [List.replicate 32 1], none⟩] } }, ⟨3, some 5, [List.replicate 32 1], none⟩,
    [], by decide +kernel⟩,
    ⟨up, by decide +kernel⟩,
    ⟨up, by decide +kernel⟩⟩

/-- OtpAndDebugPort. -/
theorem witness_OtpAndDebugPort :
    (∃ (s : State) (d : Nat), s.takes d (pOTP * 4096 + Reg.OTP_CMD) (2 ^ 31 + 1) ∧
    s.flag pOTP Fd.OTP_CMD_STATUS_BUSY = false ∧ otpProgrammable (s.fld pOTP Fd.OTP_PROG_ADDR_WORD) s.lc = true ∧
    smGet 0 (s.fld pOTP Fd.OTP_PROG_ADDR_WORD) s.otp.words = 0 ∧ s.powerFail = false) ∧
    (∃ (s : State) (d : Nat) (x : Nat), x < 8 ∧ s.takes d (pOTP * 4096 + Reg.OTP_CMD) (2 ^ 31 + x * 65536 + 2) ∧
    s.flag pOTP Fd.OTP_CMD_STATUS_BUSY = false ∧ s.secure d = true ∧ lcAdvanceOk s.lc x = true) ∧
    (∃ (s : State) (d : Nat) (g : Nat), g < 4 ∧ s.takes d (pOTP * 4096 + Reg.OTP_CMD) (2 ^ 31 + g * 256 + 3) ∧
    s.flag pOTP Fd.OTP_CMD_STATUS_BUSY = false) ∧
    (∃ (s : State) (op : Nat) (w : Nat) (x : Nat), s.live = true ∧ s.otp.run = some (op, w, x) ∧ op ≠ 2 ∧ x < 2 ^ 32) ∧
    (∃ (s : State) (w : Nat) (x : Nat), s.live = true ∧ s.otp.run = some (2, w, x) ∧ 1 ≤ x ∧ x ≤ 5) ∧
    (∃ (s : State), s.boot ≠ .off ∧ s.pwr ≠ .comma ∧ s.keys.rngFail = false) ∧
    (∃ (s : State), s.boot ≠ .off ∧ s.pwr ≠ .comma) ∧
    (∃ (s : State) (resp : Nat), s.boot ≠ .off ∧ s.pwr ≠ .comma ∧ s.unlockOpen = true ∧ s.dbg.wrong < 3 ∧
    s.powerFail = false ∧ s.unlockMac 0x020 1 = beBytes 16 resp) ∧
    (∃ (s : State) (resp : Nat), s.boot ≠ .off ∧ s.pwr ≠ .comma ∧ (s.lc = 2 ∨ s.lc = 3) ∧ s.dbg.wrong < 3 ∧
    s.unlockMac 0x024 2 = beBytes 16 resp) ∧
    (∃ (s : State) (x : Nat), s.boot ≠ .off ∧ s.pwr ≠ .comma ∧ s.debugLcOk x = true) ∧
    (∃ (s : State), s.live = true ∧ s.flag pOTP Fd.OTP_STATUS_DEBUG = true) ∧
    (∃ (s : State), s.live = true ∧ s.flag pOTP Fd.OTP_STATUS_DEBUG = true) ∧
    (∃ (s : State), s.runs? = true ∧ s.pwr = .clause) :=
  ⟨⟨flds [(pOTP, Fd.OTP_PROG_ADDR_WORD, 0x400)] (otp 3), 0, by simp only [State.takes]; decide +kernel⟩,
    ⟨flds [(pHDOM 0, Fd.HDOM_STATE_WORLD, 1)] (otp 4), 0, 5, by simp only [State.takes]; decide +kernel⟩,
    ⟨otp 3, 0, 3, by simp only [State.takes]; decide +kernel⟩,
    ⟨{ otp 3 with otp := { run := some (1, 0x400, 2 ^ 32 - 1) } }, 1, 0x400, 2 ^ 32 - 1, by decide +kernel⟩,
    ⟨{ otp 4 with otp := { run := some (2, 0, 5) } }, 0, 5, by decide +kernel⟩,
    ⟨otp 3, by decide +kernel⟩,
    ⟨otp 3, by decide +kernel⟩,
    ⟨otp 1, (cmac 128 ((otp 1).otpNum 0x020 4) (beBytes 16 0 ++ (otp 1).uid ++ [1, 1])),
    by refine ⟨by decide +kernel, by decide +kernel, by decide +kernel, by decide +kernel, by decide +kernel, rfl⟩⟩,
    ⟨otp 2, (cmac 128 ((otp 2).otpNum 0x024 4) (beBytes 16 0 ++ (otp 2).uid ++ [2, 2])),
    by refine ⟨by decide +kernel, by decide +kernel, by decide +kernel, by decide +kernel, rfl⟩⟩,
    ⟨otp 0, 1, by decide +kernel⟩,
    ⟨flds [(pOTP, Fd.OTP_STATUS_DEBUG, 1)] (otp 3), by decide +kernel⟩,
    ⟨flds [(pOTP, Fd.OTP_STATUS_DEBUG, 1)] (otp 3), by decide +kernel⟩,
    ⟨otp 3, by decide +kernel⟩⟩

/-- ExternalMemory. -/
theorem witness_ExternalMemory :
    (∃ (s : State) (d : Nat) (o : Nat) (bs : List Nat), s.runs? = true ∧ d < 4 ∧ s.fld pEMC Fd.EMC_HOST_ACTIVE_LOG2 ≠ 0 ∧
    o + bs.length ≤ 2 ^ (s.fld pEMC Fd.EMC_HOST_ACTIVE_LOG2 - 1) * 2 ^ 20 ∧ s.hostHas o bs.length = true ∧
    s.enabled pEMC = true) ∧
    (∃ (s : State) (d : Nat) (o : Nat) (n : Nat), s.runs? = true ∧ d < 4 ∧ s.fld pEMC Fd.EMC_HOST_ACTIVE_LOG2 ≠ 0 ∧
    o + n ≤ 2 ^ (s.fld pEMC Fd.EMC_HOST_ACTIVE_LOG2 - 1) * 2 ^ 20 ∧ s.hostHas o n = true ∧ s.enabled pEMC = true) ∧
    (∃ (s : State) (step : Nat) (ranks : Nat) (density : Nat), s.boot ≠ .off ∧ s.pwr ≠ .comma ∧
    s.flag pEMC Fd.EMC_DRAM_READY = false ∧ s.flag pEMC Fd.EMC_DRAM_FAIL = false ∧ usableMib ranks density ≠ 0 ∧ step ≤ 5) ∧
    (∃ (s : State) (d : Nat), s.takes d (pEMC * 4096 + Reg.EMC_CFG) (s.rd pEMC Reg.EMC_CFG ||| 2) ∧
    (s.rd pEMC Reg.EMC_CFG ||| 2) / 256 % 8 < 4 ∧ s.enabled pEMC = false) ∧
    (∃ (s : State) (a : Nat) (b : Nat) (x : Nat) (y : Nat), s.live = true ∧ s.frozen pEMC = false ∧
    s.fld pEMC Fd.EMC_ARB_HOLDER = 8 ∧ s.emc.ages = [] ∧ a < 8 ∧ b < 8 ∧ a ≠ b ∧ y < x ∧ x < 65535) ∧
    (∃ (s : State) (clocks : Nat), s.live = true ∧ s.fld pEMC Fd.EMC_ARB_HOLDER < 8 ∧
    s.fld pEMC Fd.EMC_HOG_LIMIT_CLOCKS ≤ clocks) ∧
    (∃ (s : State), s.live = true) ∧
    (∃ (s : State) (line : Nat), s.live = true ∧ s.flag pEMC Fd.EMC_CFG_SCRUB_EN = true ∧ s.inRegions line = true ∧
    s.fld pEMC Fd.EMC_ARB_HOLDER = 8 ∧ s.fld pEMC Fd.EMC_ARB_PENDING = 0) ∧
    (∃ (s : State), s.live = true) :=
  ⟨⟨emc, 0, 2 ^ 20 - 4, [1, 2, 3, 4], by decide +kernel⟩,
    ⟨emc, 3, 2 ^ 20 - 4, 4, by decide +kernel⟩,
    ⟨up, 5, 2, 3, by decide +kernel⟩,
    ⟨own pEMC up, 0, by simp only [State.takes]; decide +kernel⟩,
    ⟨flds [(pEMC, Fd.EMC_ARB_HOLDER, 8)] emc, 7, 0, 65534, 0, by decide +kernel⟩,
    ⟨flds [(pEMC, Fd.EMC_ARB_HOLDER, 7)] emc, 2 ^ 20, by decide +kernel⟩,
    ⟨emc, by decide +kernel⟩,
    ⟨flds [(pEMC, Fd.EMC_CFG_SCRUB_EN, 1), (pEMC, Fd.EMC_ARB_HOLDER, 8)] emc, 16383, by decide +kernel⟩,
    ⟨emc, by decide +kernel⟩⟩

/-- StartSequence. -/
theorem witness_StartSequence :
    (∃ (s : State) (ns : Nat), 1000 ≤ ns ∧ s.seq = 2 ∧ s.boot ≠ .off ∧ s.powerFail = false) ∧
    (∃ (s : State) (d : Nat) (v : Nat), s.takes d (pGLB * 4096 + Reg.GLB_RESET) v ∧ v / 65536 % 65536 = 0x5A0D ∧
    s.secure d = true ∧ s.powerFail = false) ∧
    (∃ (s : State) (t : Nat), s.seq = 1 ∧ (s.advance t).now ≤ s.pow.enAt + 5000000) ∧
    (∃ (s : State) (t : Nat), s.seq = 1 ∧ s.pow.enAt + 5000000 ≤ (s.advance t).now) ∧
    (∃ (s : State) (t : Nat), (s.advance t).pmicRested = true ∧ (s.seq = 3 ∨ s.seq = 4 ∧ s.pow.start.isSome = true)) ∧
    (∃ (s : State), s.pow.step4 = true ∧ s.boot = .off ∧ s.pow.plls < 3 ∧ s.pow.late = false) ∧
    (∃ (s : State), s.pow.step4 = true ∧ s.boot = .off ∧ s.pow.plls < 3 ∧ s.pow.late = true) ∧
    (∃ (s : State) (found : Nat), s.boot = .starting ∧ s.failMap found = 0) ∧
    (∃ (s : State) (found : Nat), s.boot = .starting ∧ s.failMap found ≠ 0) ∧
    (∃ (s : State) (t : Nat), s.boot = .interjection ∧ s.diagChan < 24 ∧ (s.can s.diagChan).attempt = none ∧
    (s.can s.diagChan).rtq = [] ∧ s.pow.interE + s.pow.interN * 100000000 ≤ (s.advance t).now) :=
  ⟨⟨flds [(pLINE, Fd.LINE_STATUS_SEQ, 2)] up, 1000, by decide +kernel⟩,
    ⟨own pGLB (flds [(pHDOM 0, Fd.HDOM_STATE_WORLD, 1)] up), 0, 0x5A0D0000, by simp only [State.takes]; decide +kernel⟩,
    ⟨flds [(pLINE, Fd.LINE_STATUS_SEQ, 1)] State.reset, 0, by decide +kernel⟩,
    ⟨flds [(pLINE, Fd.LINE_STATUS_SEQ, 1)] State.reset, 5000000 * 65536, by decide +kernel⟩,
    ⟨flds [(pLINE, Fd.LINE_STATUS_SEQ, 4)] State.reset, 0, by decide +kernel⟩,
    ⟨{ State.reset with pow := { step4 := true } }, by decide +kernel⟩,
    ⟨{ State.reset with pow := { step4 := true, late := true, plls := 2 } }, by decide +kernel⟩,
    ⟨{ flds [(pOTP, Fd.OTP_STATUS_LC, 3)] State.reset with boot := .starting }, 0, by decide +kernel⟩,
    ⟨{ flds [(pOTP, Fd.OTP_STATUS_LC, 3)] State.reset with boot := .starting }, 1, by decide +kernel⟩,
    ⟨{ up with boot := .interjection }, 2 ^ 70, by decide +kernel⟩⟩

/-- SuppliesAndClocks. -/
theorem witness_SuppliesAndClocks :
    (∃ (s : State), s.seq = 2 ∧ s.powerFail = false) ∧
    (∃ (s : State), s.seq = 2 ∧ s.boot ≠ .off ∧ s.pwr ≠ .comma ∧ s.powerFail = false) ∧
    (∃ (s : State) (v : Nat) (w : Nat), 4500 ≤ v ∧ v < 65536 ∧ w < 65536 ∧ s.seq = 2) ∧
    (∃ (v : Nat), v < 4500) ∧
    (∃ (s : State), s.flag pLINE Fd.LINE_CFG_X32K_EN = true ∧ s.flag pTIME Fd.TIME_FRC_STATE_SRC_RC = false) ∧
    (∃ (s : State), s.flag pLINE Fd.LINE_CFG_X32K_EN = true ∧ s.flag pLINE Fd.LINE_STATUS_X32K_FAIL = false) :=
  ⟨⟨flds [(pLINE, Fd.LINE_STATUS_SEQ, 2)] up, by decide +kernel⟩,
    ⟨flds [(pLINE, Fd.LINE_STATUS_SEQ, 2)] up, by decide +kernel⟩,
    ⟨flds [(pLINE, Fd.LINE_STATUS_SEQ, 2)] up, 4500, 65535, by decide +kernel⟩,
    ⟨4499, by decide +kernel⟩,
    ⟨flds [(pLINE, Fd.LINE_CFG_X32K_EN, 1), (pTIME, Fd.TIME_FRC_STATE_SRC_RC, 0)] up, by decide +kernel⟩,
    ⟨flds [(pLINE, Fd.LINE_CFG_X32K_EN, 1)] up, by decide +kernel⟩⟩

/-- PowerStates. -/
theorem witness_PowerStates :
    (∃ (s : State) (d : Nat), s.takes d (pPWR * 4096 + Reg.PWR_REQ) (2 ^ 31 + 1) ∧ s.pwrReason d 1 false = none) ∧
    (∃ (s : State) (d : Nat) (force : Bool), s.takes d (pPWR * 4096 + Reg.PWR_REQ) (2 ^ 31 + b2n force * 4 + 2) ∧
    s.pwrReason d 2 force = none) ∧
    (∃ (s : State) (t : Nat) (x : Nat), s.runs? = true ∧ s.fld pPWR Fd.PWR_CFG_AUTO = 1 ∧ s.pow.lowSince = some x ∧
    x + s.fld pPWR Fd.PWR_CFG_AUTO_DELAY_MS * 1000000 ≤ (s.advance t).now ∧ s.pwrReason 7 1 false = none) ∧
    (∃ (s : State) (t : Nat), s.pwr = .commaPending ∧ s.pow.commit + 50000 ≤ (s.advance t).now) ∧
    (∃ (s : State), s.pwr = .periodPending ∧ s.coarse = true ∧ s.pow.abort = false ∧ s.powerFail = false) ∧
    (∃ (s : State) (src : Nat) (st : Nat), s.pwr = .comma ∧ s.pow.exit = some (src, st)) ∧
    (∃ (s : State), s.pwr = .period ∧ s.pow.exit.isSome = true) ∧
    (∃ (s : State) (src : Nat), 2 ≤ src ∧ src ≤ 5 ∧ s.pwr = .comma ∧ s.pow.exit = none) ∧
    (∃ (s : State) (t : Nat), (s.pwr = .comma ∨ s.pwr = .period) ∧ s.pow.exit = none ∧ s.fld pPWR Fd.PWR_TIMER_SECONDS ≠ 0 ∧
    s.pow.commit + s.fld pPWR Fd.PWR_TIMER_SECONDS * 1000000000 ≤ (s.advance t).now) ∧
    (∃ (s : State) (t : Nat) (P : Nat), s.boot = .ready ∧ s.pwr = .clause ∧ s.powerFail = false ∧
    P + s.fld pLINE Fd.LINE_PF_FILT_US * 1000 ≤ (s.advance t).now) ∧
    (∃ (s : State), s.pwr = .lastGasp ∧ s.trn.cap = none) ∧
    (∃ (s : State) (t : Nat) (x : Nat), s.pwr = .pfHold ∧ s.pow.highSince = some x ∧
    x + s.fld pLINE Fd.LINE_PF_RESTART * 10000000 ≤ (s.advance t).now) :=
  ⟨⟨own pPWR (flds [(pEMC, Fd.EMC_DRAM_READY, 1)] up), 0, by simp only [State.takes]; decide +kernel⟩,
    ⟨own pPWR (flds [(pEMC, Fd.EMC_DRAM_READY, 1), (pHDOM 0, Fd.HDOM_STATE_WORLD, 1)] up), 0, true,
    by simp only [State.takes]; decide +kernel⟩,
    ⟨{ flds [(pEMC, Fd.EMC_DRAM_READY, 1), (pPWR, Fd.PWR_CFG_AUTO, 1)] up with pow := { lowSince := some 5 } }, 2 ^ 75, 5,
    by decide +kernel⟩,
    ⟨{ up with pwr := .commaPending }, 50000 * 65536, by decide +kernel⟩,
    ⟨{ up with pwr := .periodPending, coarse := true }, by decide +kernel⟩,
    ⟨{ up with pwr := .comma, pow := { exit := some (2, 5) } }, 2, 5, by decide +kernel⟩,
    ⟨{ State.reset with pwr := .period, pow := { exit := some (2, 5) } }, by decide +kernel⟩,
    ⟨{ up with pwr := .comma }, 5, by decide +kernel⟩,
    ⟨{ flds [(pPWR, Fd.PWR_TIMER_SECONDS, 1)] up with pwr := .comma }, 1000000000 * 65536, by decide +kernel⟩,
    ⟨up, 2 ^ 75, 0, by decide +kernel⟩,
    ⟨{ up with pwr := .lastGasp }, by decide +kernel⟩,
    ⟨{ State.reset with pwr := .pfHold, pow := { highSince := some 5 } }, 2 ^ 75, 5, by decide +kernel⟩⟩

/-- FaultLogAndWatchdog. -/
theorem witness_FaultLogAndWatchdog :
    (∃ (s : State) (p : Nat) (r : Report), s.boot ≠ .off ∧ (s.reports.find? fun x => x.page = p) = some r ∧
    s.logMerges r = false ∧ s.fld pLOG Fd.LOG_STATUS_COUNT < 1024) ∧
    (∃ (s : State) (p : Nat) (r : Report), s.boot ≠ .off ∧ (s.reports.find? fun x => x.page = p) = some r ∧
    s.logMerges r = true) ∧
    (∃ (s : State) (p : Nat) (off : Nat), s.boot ≠ .off ∧ off < 4096 ∧ p * 4096 + off ∉ errRegs p) ∧
    (∃ (s : State) (d : Nat), s.takes d (pLOG * 4096 + Reg.LOG_CLEAR) 1) ∧
    (∃ (s : State) (d : Nat), s.takes d (pLOG * 4096 + Reg.LOG_CLEAR) 2) ∧
    (∃ (s : State) (t : Nat) (d : Nat) (v : Nat), s.takes d (pLOG * 4096 + Reg.LOG_WDOG_KICK) v ∧
    v / 65536 % 65536 = 0x71C5 ∧ s.fld pLOG Fd.LOG_WDOG_STAT_STAGE = 1 ∧ s.fld pLOG Fd.LOG_WDOG_CFG_WARN_MS ≠ 0 ∧
    (s.advance t).now ≤ s.wdogD1) ∧
    (∃ (s : State) (t : Nat), s.runs? = true ∧ s.fld pLOG Fd.LOG_WDOG_STAT_STAGE = 1 ∧ s.wdogD1 + 4000 ≤ (s.advance t).now) ∧
    (∃ (s : State) (t : Nat), s.runs? = true ∧ s.fld pLOG Fd.LOG_WDOG_STAT_STAGE = 2 ∧
    s.fld pLOG Fd.LOG_WDOG_CFG_RESET_MS ≠ 0 ∧ s.wdogD2 + 4000 ≤ (s.advance t).now ∧ s.powerFail = false) :=
  ⟨⟨{ up with reports := [rep] }, pSWC, rep, by decide +kernel⟩,
    ⟨{ ents [(pLOG, 0, 0, 0, ⟨0, 80, 16⟩, Er.SWC_SPILL_ECC), (pLOG, 0, 0, 0, ⟨0, 0, 64⟩, 5), (pLOG, 0, 0, 0, ⟨0, 128, 16⟩, pSWC), (pLOG, 0, 0, 0, ⟨0, 160, 32⟩, 3)] (flds [(pLOG, Fd.LOG_STATUS_HEAD, 1), (pLOG, Fd.LOG_STATUS_COUNT, 1), (pLOG, Fd.LOG_CFG_MERGE_US, 1)] up) with reports := [rep] },
    pSWC, rep, by decide +kernel⟩,
    ⟨up, pSWC, 4095, by decide +kernel⟩,
    ⟨own pLOG up, 0, by simp only [State.takes]; decide +kernel⟩,
    ⟨own pLOG up, 0, by simp only [State.takes]; decide +kernel⟩,
    ⟨own pLOG (flds [(pLOG, Fd.LOG_WDOG_STAT_STAGE, 1), (pLOG, Fd.LOG_WDOG_CFG_WARN_MS, 1)] up), 0, 0, 0x71C50000,
    by simp only [State.takes]; decide +kernel⟩,
    ⟨flds [(pLOG, Fd.LOG_WDOG_STAT_STAGE, 1)] up, 2 ^ 75, by decide +kernel⟩,
    ⟨flds [(pLOG, Fd.LOG_WDOG_STAT_STAGE, 2), (pLOG, Fd.LOG_WDOG_CFG_RESET_MS, 1)] up, 2 ^ 75, by decide +kernel⟩⟩

/-- StepKeepsMemoriesCanonical. -/
theorem witness_StepKeepsMemoriesCanonical :
    ∃ (s : State) (u : State), Memory.wf s.mram = true ∧ Memory.wf s.dram = true ∧ step s = .next u :=
  ⟨up, up.queueOf (up.advance 163840), by refine ⟨by decide, by decide, ?_⟩; rfl⟩

/-- ReadsTellNoKeyMaterial. -/
theorem witness_ReadsTellNoKeyMaterial : ∃ (s u : State) (m : SMap Nat) (c : Instr), smGet 0 1 m = smGet 0 1 s.keys.mat ∧
    ((∃ t d a bits bad fail ecc, c = .rcRead t d a bits bad fail ecc) ∨ (∃ t d k bad, c = .wordQueuePop t d k bad) ∨
      (∃ t d a n early bad fail ecc, c = .spiRead t d a n early bad fail ecc) ∨
      (∃ t d a n early bad fail ecc, c = .qread t d a n early bad fail ecc) ∨ (∃ t d p ecc fail, c = .winRead t d p ecc fail) ∨
      (∃ t d p, c = .keyMaterialRead t d p)) ∧ exec c s = .next u :=
  let s := { up with keys := { mat := [(9, 5)] } }
  ⟨s, nextOf s (exec (.keyMaterialRead 0 0 (pKEY 0)) s), [(9, 7)], .keyMaterialRead 0 0 (pKEY 0), by decide,
    .inr (.inr (.inr (.inr (.inr ⟨0, 0, pKEY 0, rfl⟩)))), rfl⟩

/-- CanTimingOnlyInStop. -/
theorem witness_CanTimingOnlyInStop :
    (∃ (s : State) (d : Nat) (n : Nat) (off : Nat) (v : Nat), n < 24 ∧ v < 2 ^ 32 ∧
    off ∈ [Reg.CANC_NBTIM, Reg.CANC_DBTIM, Reg.CANC_XBTIM, Reg.CANC_TDC, Reg.CANC_XLCFG, Reg.CANC_CFG, Reg.CANC_OBJ_RANGE] ∧
    s.takes d (pCANC n * 4096 + off) v ∧ s.canMode n ≠ 0) ∧
    (∃ (s : State) (d : Nat) (n : Nat) (off : Nat) (v : Nat), n < 24 ∧ v < 2 ^ 32 ∧
    (off ∈ [Reg.CANC_NBTIM, Reg.CANC_DBTIM, Reg.CANC_XBTIM, Reg.CANC_TDC, Reg.CANC_CFG] ∨ off = Reg.CANC_XLCFG ∧ v.testBit 0 = false ∨ off = Reg.CANC_OBJ_RANGE ∧ fget (BitVec.ofNat 32 v) Fd.CANC_OBJ_RANGE_BASE + fget (BitVec.ofNat 32 v) Fd.CANC_OBJ_RANGE_COUNT ≤ 8192) ∧
    s.takes d (pCANC n * 4096 + off) v ∧ s.canMode n = 0) :=
  ⟨⟨own (pCANC 23) (can 23 1), 0, 23, Reg.CANC_OBJ_RANGE, 5, by simp only [State.takes]; decide +kernel⟩,
    ⟨own (pCANC 23) (can 23 0), 0, 23, Reg.CANC_OBJ_RANGE, 2 * 65536 + 8190, by simp only [State.takes]; decide +kernel⟩⟩

/-- SecurePagesGoToSecureDomains. -/
theorem witness_SecurePagesGoToSecureDomains :
    (∃ (s : State) (d : Nat) (p : Nat), (p = pKEY 0 ∨ p = pOTP ∨ p = pOTP + 1) ∧ d < 6 ∧ s.secure d = false ∧
    s.takes d (p * 4096 + Reg.OWNER) d ∧ s.flag p Fd.OWNER_UNOWNED = true) ∧
    (∃ (s : State) (d : Nat) (p : Nat) (x : Nat), (p = pKEY 0 ∨ p = pOTP ∨ p = pOTP + 1) ∧ d < 6 ∧ x < 6 ∧ x ≠ d ∧
    s.secure x = false ∧ s.takes d (p * 4096 + Reg.OWNER) x ∧ s.owns d p = true ∧ s.flag p Fd.OWNER_ORPHANED = false) ∧
    (∃ (s : State) (d : Nat) (p : Nat),
    ((p = pKEY 0 ∨ p = pOTP ∨ p = pOTP + 1) ∧ s.secure d = true ∨ (p = pKEY 1 ∨ p = pKEY 2 ∨ p = pKEY 3)) ∧ d < 6 ∧
    s.takes d (p * 4096 + Reg.OWNER) d ∧ s.flag p Fd.OWNER_UNOWNED = true ∧ s.flag p Fd.OWNER_LOCKED = false) ∧
    (∃ (s : State) (d : Nat) (p : Nat) (x : Nat),
    ((p = pKEY 0 ∨ p = pOTP ∨ p = pOTP + 1) ∧ s.secure x = true ∨ (p = pKEY 1 ∨ p = pKEY 2 ∨ p = pKEY 3)) ∧ d < 6 ∧ x < 6 ∧
    x ≠ d ∧ s.takes d (p * 4096 + Reg.OWNER) x ∧ s.owns d p = true ∧ s.flag p Fd.OWNER_ORPHANED = false ∧
    s.flag p Fd.OWNER_LOCKED = false) :=
  ⟨⟨up, 5, pOTP + 1, by simp only [State.takes]; decide +kernel⟩,
    ⟨own (pOTP + 1) up, 0, pOTP + 1, 5, by simp only [State.takes]; decide +kernel⟩,
    ⟨up, 5, pKEY 3, by simp only [State.takes]; decide +kernel⟩,
    ⟨own (pKEY 3) up, 0, pKEY 3, 5, by simp only [State.takes]; decide +kernel⟩⟩

/-- LogWindow. -/
theorem witness_LogWindow :
    (∃ (s : State) (d : Nat) (v : Nat), s.takes d (pLOG * 4096 + Reg.WIN_CMD) v ∧ v < 2 ^ 32 ∧
    s.flag pLOG Fd.WIN_BUSY = false ∧ v % 16 = 1 ∧ s.winTab pLOG = 0 ∧ s.winIdx pLOG < 1024) ∧
    (∃ (s : State) (d : Nat) (v : Nat), s.takes d (pLOG * 4096 + Reg.WIN_CMD) v ∧ v < 2 ^ 32 ∧
    s.flag pLOG Fd.WIN_BUSY = false ∧ v % 16 ≠ 1 ∧ s.winTab pLOG = 0) ∧
    (∃ (s : State) (d : Nat) (v : Nat), s.takes d (pLOG * 4096 + Reg.WIN_CMD) v ∧ v < 2 ^ 32 ∧
    s.flag pLOG Fd.WIN_BUSY = false ∧ v % 16 = 1 ∧ (s.winTab pLOG ≠ 0 ∨ 1024 ≤ s.winIdx pLOG)) ∧
    (∃ (i : Nat), i < 1024) ∧
    (∃ (s : State) (d : Nat), s.takes d (pLOG * 4096 + Reg.LOG_CLEAR) 1) ∧
    (∃ (s : State) (p : Nat) (r : Report), s.boot ≠ .off ∧ (s.reports.find? fun x => x.page = p) = some r ∧
    s.logMerges r = false ∧ s.fld pLOG Fd.LOG_STATUS_COUNT < 1024) :=
  ⟨⟨own pLOG (flds [(pLOG, Fd.WIN_INDEX, 1023)] up), 0, 1, by simp only [State.takes]; decide +kernel⟩,
    ⟨own pLOG up, 0, 2, by simp only [State.takes]; decide +kernel⟩,
    ⟨own pLOG (flds [(pLOG, Fd.WIN_INDEX, 1024)] up), 0, 1, by simp only [State.takes]; decide +kernel⟩,
    ⟨1023, by decide +kernel⟩,
    ⟨own pLOG up, 0, by simp only [State.takes]; decide +kernel⟩,
    ⟨{ up with reports := [rep] }, pSWC, rep, by decide +kernel⟩⟩

end Sys2Proof.Tests
end

section
/-!
The queue of waiting commands: every command is an effect over the state, applied through `always`, so it ends in a next state
and keeps the queue; a step takes the front command and leaves the rest.
-/

namespace Sys2Proof.Machine

/-- Every arm of the dispatch ends in a next state made over the queue of `s` (`State.queueOf`, through `always`). -/
theorem exec_eq_next (c : Instr) (s : State) : ∃ u, exec c s = .next (s.queueOf u) := by
  cases c <;> exact ⟨_, rfl⟩

/-- Settles O2: every arm of `exec` puts the queue back over its effect. -/
theorem everyCommandCompletesAndKeepsTheQueue : Obligations.EveryCommandCompletesAndKeepsTheQueue := by
  intro c s
  obtain ⟨u, hu⟩ := exec_eq_next c s
  exact ⟨s.queueOf u, hu, rfl⟩

/-- Settles O1: the match of `step` on a queue with a front. -/
theorem stepRunsTheFrontCommand : Obligations.StepRunsTheFrontCommand := by
  intro s c rest h
  unfold step
  rw [h]

/-- A step ends in a next state, which holds the queue's rest. -/
theorem step_next (s : State) : ∃ u, step s = .next u ∧ u.pending = s.pending.tail := by
  cases h : s.pending with
  | nil => exact ⟨idle s, by simp [step, h], h⟩
  | cons c rest =>
    obtain ⟨u, hu, hq⟩ := everyCommandCompletesAndKeepsTheQueue c { s with pending := rest }
    exact ⟨u, (stepRunsTheFrontCommand s c rest h).trans hu, hq⟩

/-- The state that a step of `s` ends in. -/
def State.stepped (s : State) : State :=
  match step s with
  | .next u => u
  | _ => s

theorem step_eq_stepped (s : State) : step s = .next s.stepped := by
  obtain ⟨u, hu, -⟩ := step_next s
  simp [State.stepped, hu]

theorem State.stepped_pending (s : State) : s.stepped.pending = s.pending.tail := by
  obtain ⟨u, hu, hq⟩ := step_next s
  simp [State.stepped, hu, hq]

/-- The state that `n` steps of `s` end in. -/
def State.steppedN : Nat → State → State
  | 0, s => s
  | n + 1, s => State.steppedN n s.stepped

/-- The last of `n + 1` steps is a step of the state after `n`. -/
theorem State.steppedN_succ (n : Nat) (s : State) : State.steppedN (n + 1) s = (State.steppedN n s).stepped := by
  induction n generalizing s with
  | zero => rfl
  | succ n ih => exact ih s.stepped

/-- After `n` steps the first `n` commands are gone from the queue, and no other. -/
theorem State.steppedN_pending (s : State) (n : Nat) : (State.steppedN n s).pending = s.pending.drop n := by
  induction n with
  | zero => rfl
  | succ n ih => rw [State.steppedN_succ, State.stepped_pending, ih, List.tail_drop]

theorem runs_steppedN (n : Nat) (s : State) : Runs n s (State.steppedN n s) := by
  induction n generalizing s with
  | zero => rfl
  | succ n ih => exact ⟨s.stepped, step_eq_stepped s, ih s.stepped⟩

/-- Settles O3, by induction on the number of steps: the trace of a state is its `steppedN`. -/
theorem everyQueueDrainsInOrder : Obligations.EveryQueueDrainsInOrder := by
  intro s
  refine ⟨(State.steppedN · s), rfl, ?_, runs_steppedN _ s, fun k hk => ?_⟩
  · rw [State.steppedN_pending, List.drop_length]
  · have hstep : step (State.steppedN k s) = .next (State.steppedN (k + 1) s) := by
      rw [State.steppedN_succ]
      exact step_eq_stepped _
    have hfront : (State.steppedN k s).pending = s.pending[k] :: s.pending.drop (k + 1) := by
      rw [State.steppedN_pending, List.drop_eq_getElem_cons hk]
    exact ⟨State.steppedN_pending s k, hstep, (stepRunsTheFrontCommand _ _ _ hfront).symm.trans hstep⟩

end Sys2Proof.Machine
end

section
/-! The state after the line die's power-on reset. -/

namespace Sys2Proof.Machine

/-- Right after reset every register reads its reset word: the store lists none. -/
@[simp] theorem reset_reg (a : Nat) : State.reset.reg a = resetWord a := rfl

/-- The reset word at offset 0 of a page with a header is xxx_ID. -/
theorem resetWord_id {p : Nat} (h : hasHeader p = true) : resetWord (p * 4096) = BitVec.ofNat 32 (idWord p) := by
  obtain ⟨⟨r, i, k⟩, hr⟩ := Option.isSome_iff_exists.mp h
  simp [resetWord, hr]

/-- Bits [7:0] of xxx_ID, the revision, are 1 on every page with a header (Table 2 of *Register Space and Page Layout*). -/
theorem idWord_revision {p : Nat} (h : hasHeader p = true) : idWord p % 2 ^ 32 % 256 = 1 := by
  obtain ⟨⟨r, i, k⟩, hr⟩ := Option.isSome_iff_exists.mp h
  simp only [idWord, hr]
  omega

/-- Settles O49: the stores of the reset state list nothing, so every read answers its default. -/
theorem resetState : Obligations.ResetState := by
  refine ⟨rfl, rfl, rfl, rfl, reset_reg, fun _ _ _ _ => rfl, fun _ _ => rfl, fun _ => rfl, reset_memories_wf.1,
    reset_memories_wf.2, by decide +kernel, fun p h => ?_⟩
  simp only [State.rd, Nat.add_zero, reset_reg, resetWord_id h, BitVec.toNat_ofNat]
  exact idWord_revision h

end Sys2Proof.Machine
end

section
/-!
What a command leaves unchanged: the effect of a command that writes registers only, and what its fields read afterwards. A
command acts on the state with its own stamp, and puts the queue back at its end.
-/

namespace Sys2Proof.Machine

/-! ### From a command to its effect -/

/-- A command of the register port completes as its effect does, on the state with the FRC at the command's stamp. -/
theorem completes_live {c : Instr} {s : State} {t : Nat} {f : State → State} {Q : State → Prop} (he : exec c s = live t s f)
    (h : s.live = true) (hq : Q (s.queueOf (f (s.advance t)))) : Completes c s Q :=
  completes_of _ he (next_live h hq)

section
variable (s u : State)

/-- A flag reads the same where the registers are the same. -/
theorem State.flag_congr {s u : State} (h : u.regs = s.regs) (p : Nat) (f : Fld) : u.flag p f = s.flag p f := by
  simp only [State.flag, State.fld_congr h]

@[simp] theorem State.queueOf_reg (a : Nat) : (s.queueOf u).reg a = u.reg a := State.reg_congr (State.queueOf_regs s u) a
@[simp] theorem State.queueOf_rd (p off : Nat) : (s.queueOf u).rd p off = u.rd p off := by simp only [State.rd, State.queueOf_reg]
@[simp] theorem State.queueOf_rd64 (p off : Nat) : (s.queueOf u).rd64 p off = u.rd64 p off := by
  simp only [State.rd64, State.queueOf_rd]
@[simp] theorem State.queueOf_fld (p : Nat) (f : Fld) : (s.queueOf u).fld p f = u.fld p f :=
  State.fld_congr (State.queueOf_regs s u) p f
@[simp] theorem State.queueOf_flag (p : Nat) (f : Fld) : (s.queueOf u).flag p f = u.flag p f :=
  State.flag_congr (State.queueOf_regs s u) p f
@[simp] theorem State.queueOf_enabled (p : Nat) : (s.queueOf u).enabled p = u.enabled p := State.queueOf_flag s u p _
@[simp] theorem State.queueOf_frozen (p : Nat) : (s.queueOf u).frozen p = u.frozen p := State.queueOf_flag s u p _
@[simp] theorem State.queueOf_owns (d p : Nat) : (s.queueOf u).owns d p = u.owns d p := by
  simp only [State.owns, State.queueOf_flag, State.queueOf_fld]
@[simp] theorem State.queueOf_ent (p tab bank idx : Nat) : (s.queueOf u).ent p tab bank idx = u.ent p tab bank idx :=
  State.ent_congr (State.queueOf_tabs s u) p tab bank idx
@[simp] theorem State.queueOf_wq (k : Nat) : (s.queueOf u).wq k = u.wq k := by simp only [State.wq, State.queueOf_wqs]
@[simp] theorem State.advance_enabled (t p : Nat) : (s.advance t).enabled p = s.enabled p := State.flag_advance s t p _
@[simp] theorem State.advance_frozen (t p : Nat) : (s.advance t).frozen p = s.frozen p := State.flag_advance s t p _
@[simp] theorem State.advance_wq (t k : Nat) : (s.advance t).wq k = s.wq k := by simp [State.wq]

end

/-! ### Fields that do not overlap -/

/-- Two fields share no bit: they stand in different registers, or beside each other in one. -/
def Fld.apart (f g : Fld) : Bool := f.off ≠ g.off || f.lo + f.w ≤ g.lo || g.lo + g.w ≤ f.lo

/-- Putting a field leaves every field of the page that it does not overlap. -/
theorem State.fld_setFld_apart (s : State) (p : Nat) (f g : Fld) (x : Nat) (h : f.lo + f.w ≤ 32) (ha : Fld.apart g f = true) :
    (s.setFld p f x).fld p g = s.fld p g := by
  by_cases ho : g.off = f.off
  · simp only [Fld.apart, ho, ne_eq, not_true_eq_false, decide_false, Bool.false_or, Bool.or_eq_true, decide_eq_true_eq] at ha
    exact State.fld_setFld_word s p f g x h ho ha
  · exact State.fld_setFld_ne s p p f g x (by omega)

theorem State.flag_setFld_apart (s : State) (p : Nat) (f g : Fld) (x : Nat) (h : f.lo + f.w ≤ 32) (ha : Fld.apart g f = true) :
    (s.setFld p f x).flag p g = s.flag p g := by
  simp only [State.flag, State.fld_setFld_apart s p f g x h ha]

theorem State.fld_setFlag_apart (s : State) (p : Nat) (f g : Fld) (b : Bool) (h : f.lo + f.w ≤ 32) (ha : Fld.apart g f = true) :
    (s.setFlag p f b).fld p g = s.fld p g := State.fld_setFld_apart s p f g _ h ha

theorem State.flag_setFlag_apart (s : State) (p : Nat) (f g : Fld) (b : Bool) (h : f.lo + f.w ≤ 32)
    (ha : Fld.apart g f = true) : (s.setFlag p f b).flag p g = s.flag p g := State.flag_setFld_apart s p f g _ h ha

/-! ### Effects on registers alone -/

/-- From `s` to `u` no register changes but those at `as`, no table entry, counter, memory byte or word queue. -/
structure OnlyRegs (s u : State) (as : List Nat) : Prop where
  regs : RegsKept s u as
  tabs : u.tabs = s.tabs
  cnt : u.cnt = s.cnt
  mram : u.mram = s.mram
  dram : u.dram = s.dram
  wqs : u.wqs = s.wqs

theorem TablesKept.of_eq {s u : State} (h : u.tabs = s.tabs) : TablesKept s u := State.ent_congr h

theorem CountsKept.of_eq {s u : State} (h : u.cnt = s.cnt) : CountsKept s u := State.count_congr h

theorem BytesKept.of_eq {s u : State} (hm : u.mram = s.mram) (hd : u.dram = s.dram) : BytesKept s u :=
  ⟨fun o => by simp [State.mramByte, hm], fun a => by simp [State.dramByte, hd]⟩

theorem QueuesKept.of_eq {s u : State} (h : u.wqs = s.wqs) : QueuesKept s u := fun k => by simp [State.wq, h]

namespace OnlyRegs
variable {s u : State} {as : List Nat}

theorem refl (s : State) (as : List Nat) : OnlyRegs s s as := ⟨fun _ _ => rfl, rfl, rfl, rfl, rfl, rfl⟩

theorem trans {m : State} (h : OnlyRegs s m as) (h' : OnlyRegs m u as) : OnlyRegs s u as :=
  ⟨fun a ha => (h'.regs a ha).trans (h.regs a ha), h'.tabs.trans h.tabs, h'.cnt.trans h.cnt, h'.mram.trans h.mram,
    h'.dram.trans h.dram, h'.wqs.trans h.wqs⟩

theorem setReg (h : OnlyRegs s u as) {a : Nat} (v : Word) (hm : a ∈ as) : OnlyRegs s (u.setReg a v) as :=
  ⟨fun b hb => (State.reg_setReg_ne u (ne_of_mem_of_not_mem hm hb).symm v).trans (h.regs b hb), h.tabs, h.cnt, h.mram, h.dram,
    h.wqs⟩

theorem setFld (h : OnlyRegs s u as) {p : Nat} {f : Fld} (x : Nat) (hm : p * 4096 + f.off ∈ as := by simp) :
    OnlyRegs s (u.setFld p f x) as := h.setReg _ hm

theorem setFlag (h : OnlyRegs s u as) {p : Nat} {f : Fld} (b : Bool) (hm : p * 4096 + f.off ∈ as := by simp) :
    OnlyRegs s (u.setFlag p f b) as := h.setReg _ hm

theorem wr (h : OnlyRegs s u as) {p off : Nat} (v : Nat) (hm : p * 4096 + off ∈ as := by simp) : OnlyRegs s (u.wr p off v) as :=
  h.setReg _ hm

/-- The queue does not matter. -/
theorem queueOf (h : OnlyRegs s u as) (v : State) : OnlyRegs s (v.queueOf u) as :=
  ⟨fun a ha => (State.queueOf_reg v u a).trans (h.regs a ha), by simp [h.tabs], by simp [h.cnt], by simp [h.mram],
    by simp [h.dram], by simp [h.wqs]⟩

/-- The FRC does not matter. -/
theorem of_advance {t : Nat} (h : OnlyRegs (s.advance t) u as) : OnlyRegs s u as :=
  ⟨fun a ha => (h.regs a ha).trans (State.reg_advance s t a), by simp [h.tabs], by simp [h.cnt], by simp [h.mram],
    by simp [h.dram], by simp [h.wqs]⟩

/-- The effect of a command, seen from the state before its stamp and under the queue that it puts back. -/
theorem effect {t : Nat} (h : OnlyRegs (s.advance t) u as) : OnlyRegs s (s.queueOf u) as := h.of_advance.queueOf s

theorem tables (h : OnlyRegs s u as) : TablesKept s u := TablesKept.of_eq h.tabs
theorem counts (h : OnlyRegs s u as) : CountsKept s u := CountsKept.of_eq h.cnt
theorem bytes (h : OnlyRegs s u as) : BytesKept s u := BytesKept.of_eq h.mram h.dram
theorem queues (h : OnlyRegs s u as) : QueuesKept s u := QueuesKept.of_eq h.wqs

theorem kept (h : OnlyRegs s u as) : RegsKept s u as ∧ TablesKept s u ∧ CountsKept s u ∧ BytesKept s u :=
  ⟨h.regs, h.tables, h.counts, h.bytes⟩

end OnlyRegs

end Sys2Proof.Machine
end

section
/-! Ownership: the rows of Table 9 that a write of xxx_OWNER takes, and what each leaves (R34, R35, R385). -/

namespace Sys2Proof.Machine

section
variable (s : State)

/-! ### What an owner's registers read -/

theorem owns_setOwner (p : Nat) {x : Nat} (hx : x < 8) : (s.setOwner p x).owns x p = true := by
  have h : x % 8 = x := Nat.mod_eq_of_lt hx
  simp (disch := decide) [State.setOwner, State.owns, State.flag_setFlag_apart, State.fld_setFlag_apart,
    State.flag_setFlag_same, State.fld_setFld_same, h]

theorem orphaned_setOwner (p x : Nat) : (s.setOwner p x).flag p Fd.OWNER_ORPHANED = false := by
  simp (disch := decide) only [State.setOwner, State.flag_setFlag_apart, State.flag_setFlag_same]

theorem onlyRegs_setOwner (p x : Nat) : OnlyRegs s (s.setOwner p x) [p * 4096 + Reg.OWNER, p * 4096 + Reg.STATUS] := by
  unfold State.setOwner
  exact ((((OnlyRegs.refl s _).setFld x).setFlag false).setFlag false).setFlag false

/-! ### The rows that a write matches -/

variable {s}

/-- A domain's number has neither ADOPT nor UNOWNED set. -/
theorem testBit_domain {x : Nat} (h : x < 6) : x.testBit 4 = false ∧ x.testBit 3 = false :=
  ⟨Nat.testBit_lt_two_pow (by omega), Nat.testBit_lt_two_pow (by omega)⟩

/-- UNOWNED is bit 3 of the owner word. -/
theorem testBit_release {d : Nat} (h : d < 6) : (8 + d).testBit 3 = true := by
  have all : ∀ x, x < 6 → (8 + x).testBit 3 = true := by decide
  exact all d h

/-- ADOPT is bit 4 of the owner word. -/
theorem testBit_adopt {d : Nat} (h : d < 6) : (16 + d).testBit 4 = true := by
  have all : ∀ x, x < 6 → (16 + x).testBit 4 = true := by decide
  exact all d h

/-- CLAIM: a domain's own number in the owner register of an unowned page. -/
theorem ownerWrite_claim {d p : Nat} (hd : d < 6) (hu : s.flag p Fd.OWNER_UNOWNED = true) (hl : s.flag p Fd.OWNER_LOCKED = false)
    (hsec : securePage p = true → s.secure d = true) : s.ownerWrite d p d = s.setOwner p d := by
  obtain ⟨h4, h3⟩ := testBit_domain hd
  have hfit : (!securePage p || s.secure d) = true := by cases h : securePage p <;> simp_all
  simp [State.ownerWrite, h4, h3, hu, hl, hfit, show ¬ 5 < d by omega, show d % 8 = d by omega]

/-- TRANSFER: the owner writes another domain's number. -/
theorem ownerWrite_transfer {d p x : Nat} (hd : d < 6) (hx : x < 6) (hxd : x ≠ d) (ho : s.owns d p = true)
    (hor : s.flag p Fd.OWNER_ORPHANED = false) (hl : s.flag p Fd.OWNER_LOCKED = false)
    (hsec : securePage p = true → s.secure x = true) : s.ownerWrite d p x = s.setOwner p x := by
  obtain ⟨h4, h3⟩ := testBit_domain hx
  have hfit : (!securePage p || s.secure x) = true := by cases h : securePage p <;> simp_all
  simp only [State.owns, Bool.and_eq_true, Bool.not_eq_true', decide_eq_true_eq] at ho
  obtain ⟨hu, hm⟩ := ho
  simp [State.ownerWrite, h4, h3, hu, hm, hor, hl, hfit, hxd, show ¬ 5 < d by omega, show ¬ 5 < x by omega,
    show x % 8 = x by omega]

/-- OWNER_RELEASE: the owner writes UNOWNED = 1. -/
theorem ownerWrite_release {d p : Nat} (hd : d < 6) (ho : s.owns d p = true) (hor : s.flag p Fd.OWNER_ORPHANED = false)
    (hl : s.flag p Fd.OWNER_LOCKED = false) :
    s.ownerWrite d p (8 + d) = (s.setFlag p Fd.OWNER_UNOWNED true).setFlag p Fd.IRQ_ROUTE_EN false := by
  have h4 : (8 + d).testBit 4 = false := Nat.testBit_lt_two_pow (by omega)
  have h3 : (8 + d).testBit 3 = true := testBit_release hd
  simp only [State.owns, Bool.and_eq_true, Bool.not_eq_true', decide_eq_true_eq] at ho
  obtain ⟨hu, hm⟩ := ho
  simp [State.ownerWrite, h4, h3, hu, hm, hor, hl, show ¬ 5 < d by omega]

/-- ADOPTION: the domain that an orphaned page names writes ADOPT = 1. -/
theorem ownerWrite_adoption {d p : Nat} (hd : d < 6) (ho : s.owns d p = true) (hor : s.flag p Fd.OWNER_ORPHANED = true) :
    s.ownerWrite d p (16 + d) = (s.setFlag p Fd.OWNER_ORPHANED false).setFlag p Fd.STATUS_ORPHANED false := by
  have h4 : (16 + d).testBit 4 = true := testBit_adopt hd
  simp only [State.owns, Bool.and_eq_true, Bool.not_eq_true', decide_eq_true_eq] at ho
  obtain ⟨hu, hm⟩ := ho
  simp [State.ownerWrite, h4, hu, hm, hor, show ¬ 5 < d by omega]

/-- TAKE_OVER: another domain of the owner's world writes its number into the owner register of an orphaned page. -/
theorem ownerWrite_takeOver {d p : Nat} (hd : d < 6) (hu : s.flag p Fd.OWNER_UNOWNED = false)
    (hor : s.flag p Fd.OWNER_ORPHANED = true) (hl : s.flag p Fd.OWNER_LOCKED = false) (hm : s.fld p Fd.OWNER_DOMAIN ≠ d)
    (hw : s.secure d = s.secure (s.fld p Fd.OWNER_DOMAIN)) : s.ownerWrite d p d = s.setOwner p d := by
  obtain ⟨h4, h3⟩ := testBit_domain hd
  simp [State.ownerWrite, h4, h3, hu, hor, hl, hm, hw, show ¬ 5 < d by omega, show d % 8 = d by omega]

/-! ### The commands -/

/-- A write of xxx_OWNER that the port takes is judged by Table 9. -/
theorem ownerPut_of_takes {d p v : Nat} (t : Nat) (hh : hasHeader p = true) (h : s.takes d (p * 4096 + Reg.OWNER) v) :
    (s.advance t).ownerPut d p v = (s.advance t).ownerWrite d p v := by
  unfold State.ownerPut
  rw [State.judged_ok _ ((State.judge_advance ..).trans h.2), if_pos hh]

/-- A write of xxx_OWNER that the port takes and that makes `x` the owner leaves it so, the page no longer orphaned, and nothing
else changed. -/
theorem setOwner_effect (s : State) (t p : Nat) {x : Nat} (hx : x < 6) :
    (s.queueOf ((s.advance t).setOwner p x)).owns x p = true ∧
      (s.queueOf ((s.advance t).setOwner p x)).flag p Fd.OWNER_ORPHANED = false ∧
      OnlyRegs s (s.queueOf ((s.advance t).setOwner p x)) [p * 4096 + Reg.OWNER, p * 4096 + Reg.STATUS] :=
  ⟨owns_setOwner _ p (by omega), orphaned_setOwner _ p x, (onlyRegs_setOwner _ p x).effect⟩

end

/-- Settles O10: each row of Table 9 by the case of `ownerWrite` that it matches. -/
theorem ownershipMovesAlongTable9 : Obligations.OwnershipMovesAlongTable9 := by
  refine ⟨?claim, ?transfer, ?release, ?adoption, ?takeOver⟩
  case claim =>
    intro s t d p hd hh h hu hl hsec
    refine completes_live (t := t) (f := fun s => s.ownerPut d p (d % 8)) rfl h.1 ?_
    obtain ⟨how, hor, hk⟩ := setOwner_effect s t p hd
    rw [Nat.mod_eq_of_lt (by omega), ownerPut_of_takes t hh h, ownerWrite_claim hd (by simpa) (by simpa) (by simpa)]
    exact ⟨how, hor, hk.kept⟩
  case transfer =>
    intro s t d p x hd hx hxd hh h ho hor hl hsec
    refine completes_live (t := t) (f := fun s => s.ownerPut d p (x % 8)) rfl h.1 ?_
    obtain ⟨how, -, hk⟩ := setOwner_effect s t p hx
    rw [Nat.mod_eq_of_lt (by omega), ownerPut_of_takes t hh h,
      ownerWrite_transfer hd hx hxd (by simpa) (by simpa) (by simpa) (by simpa)]
    exact ⟨how, hk.kept⟩
  case release =>
    intro s t d p hd hh h ho hor hl
    refine completes_live (t := t) (f := fun s => s.ownerPut d p (8 + d % 8)) rfl h.1 ?_
    rw [Nat.mod_eq_of_lt (by omega), ownerPut_of_takes t hh h, ownerWrite_release hd (by simpa) (by simpa) (by simpa)]
    refine ⟨?_, ?_, (((OnlyRegs.refl _ _).setFlag true).setFlag false).effect.kept⟩ <;>
      simp (disch := decide) only [State.queueOf_flag, State.flag_setFlag_apart, State.flag_setFlag_same]
  case adoption =>
    intro s t d p hd hh h ho hor
    refine completes_live (t := t) (f := fun s => s.ownerPut d p (16 + d % 8)) rfl h.1 ?_
    rw [Nat.mod_eq_of_lt (by omega), ownerPut_of_takes t hh h, ownerWrite_adoption hd (by simpa) (by simpa)]
    refine ⟨?_, ?_, (((OnlyRegs.refl _ _).setFlag false).setFlag false).effect.kept⟩
    · simp (disch := decide) only [State.queueOf_flag, State.flag_setFlag_apart, State.flag_setFlag_same]
    · simpa (disch := decide) [State.owns, State.flag_setFlag_apart, State.fld_setFlag_apart] using ho
  case takeOver =>
    intro s t d p hd hh h hu hor hl hm hw
    refine completes_live (t := t) (f := fun s => s.ownerPut d p (d % 8)) rfl h.1 ?_
    obtain ⟨how, hor', hk⟩ := setOwner_effect s t p hd
    rw [Nat.mod_eq_of_lt (by omega), ownerPut_of_takes t hh h,
      ownerWrite_takeOver hd (by simpa) (by simpa) (by simpa) (by simpa) (by simpa)]
    exact ⟨how, hor', hk.kept⟩

end Sys2Proof.Machine
end

section
/-! The control register of a page: enable, freeze, soft reset and commit (R27, R29 to R31). -/

namespace Sys2Proof.Machine

section
variable {s : State}

/-! ### What the actions of xxx_CTRL do -/

/-- FREEZE as it is changes nothing. -/
theorem setFreeze_same (p : Nat) : s.setFreeze p (s.frozen p) = s := by simp [State.setFreeze]

/-- ENABLE as it is changes nothing. -/
theorem setEnable_same (p : Nat) : s.setEnable p (s.enabled p) = s := by simp [State.setEnable]

/-- The blocks whose enable and freeze act on xxx_CTRL and xxx_STATUS alone: pipelines and the switch core. -/
def gatedPage (p : Nat) : Prop := p = pPIPE 0 ∨ p = pPIPE 1 ∨ p = pSWC

theorem pageRow_gated {p : Nat} (hp : gatedPage p) :
    ∃ r i k, pageRow p = some (r, i, k) ∧ (r.blk = .pipe ∨ r.blk = .swc) := by
  obtain rfl | rfl | rfl := hp
  · exact ⟨_, _, _, rfl, .inl rfl⟩
  · exact ⟨_, _, _, rfl, .inl rfl⟩
  · exact ⟨_, _, _, rfl, .inr rfl⟩

/-- Enabling or disabling a gated block: both bits, and no further effect. -/
theorem setEnable_gated {p : Nat} (hp : gatedPage p) {on : Bool} (h : s.enabled p ≠ on) :
    s.setEnable p on = (s.setFlag p Fd.CTRL_ENABLE on).setFlag p Fd.STATUS_ENABLED on := by
  obtain ⟨r, i, k, hr, hb⟩ := pageRow_gated hp
  obtain hb | hb := hb <;> simp only [State.setEnable, h, if_false, State.enableFx, hr, hb]

/-- Freezing or thawing a gated block: both bits, and no further effect. -/
theorem setFreeze_gated {p : Nat} (hp : gatedPage p) {on : Bool} (h : s.frozen p ≠ on) :
    s.setFreeze p on = (s.setFlag p Fd.CTRL_FREEZE on).setFlag p Fd.STATUS_FROZEN on := by
  obtain ⟨r, i, k, hr, hb⟩ := pageRow_gated hp
  obtain hb | hb := hb <;> simp only [State.setFreeze, h, if_false, hr, hb]

/-- What ENABLE leaves on a gated block. -/
theorem setEnable_spec (s : State) {p : Nat} (hp : gatedPage p) (on : Bool) :
    (s.setEnable p on).enabled p = on ∧ (s.enabled p ≠ on → (s.setEnable p on).flag p Fd.STATUS_ENABLED = on) ∧
      (s.setEnable p on).frozen p = s.frozen p ∧
      OnlyRegs s (s.setEnable p on) [p * 4096 + Reg.CTRL, p * 4096 + Reg.STATUS] := by
  by_cases h : s.enabled p = on
  · subst h
    rw [setEnable_same]
    exact ⟨rfl, fun hn => absurd rfl hn, rfl, .refl ..⟩
  · rw [setEnable_gated hp h]
    refine ⟨?_, fun _ => ?_, ?_, ((OnlyRegs.refl ..).setFlag on).setFlag on⟩ <;>
      simp (disch := decide) only [State.enabled, State.frozen, State.flag_setFlag_apart, State.flag_setFlag_same]

/-- What FREEZE leaves on a gated block. -/
theorem setFreeze_spec (s : State) {p : Nat} (hp : gatedPage p) (on : Bool) :
    (s.setFreeze p on).frozen p = on ∧ (s.frozen p ≠ on → (s.setFreeze p on).flag p Fd.STATUS_FROZEN = on) ∧
      (s.setFreeze p on).enabled p = s.enabled p ∧
      OnlyRegs s (s.setFreeze p on) [p * 4096 + Reg.CTRL, p * 4096 + Reg.STATUS] := by
  by_cases h : s.frozen p = on
  · subst h
    rw [setFreeze_same]
    exact ⟨rfl, fun hn => absurd rfl hn, rfl, .refl ..⟩
  · rw [setFreeze_gated hp h]
    refine ⟨?_, fun _ => ?_, ?_, ((OnlyRegs.refl ..).setFlag on).setFlag on⟩ <;>
      simp (disch := decide) only [State.enabled, State.frozen, State.flag_setFlag_apart, State.flag_setFlag_same]

/-- A commit request makes COMMIT and COMMIT_PENDING read 1 and keeps ENABLE and FREEZE. -/
theorem commitRequest_spec (s : State) (p : Nat) :
    (s.commitRequest p).flag p Fd.CTRL_COMMIT = true ∧ (s.commitRequest p).flag p Fd.STATUS_COMMIT_PENDING = true ∧
      (s.commitRequest p).enabled p = s.enabled p ∧ (s.commitRequest p).frozen p = s.frozen p ∧
      OnlyRegs s (s.commitRequest p) [p * 4096 + Reg.CTRL, p * 4096 + Reg.STATUS] := by
  unfold State.commitRequest
  refine ⟨?_, ?_, ?_, ?_, ((OnlyRegs.refl ..).setFlag true).setFlag true⟩ <;>
    simp (disch := decide) only [State.enabled, State.frozen, State.flag_setFlag_apart, State.flag_setFlag_same]

/-- A soft reset ends with SOFT_RESET and RESET_BUSY set and the page among those whose reset is in progress. -/
theorem softReset_spec (s : State) (p : Nat) :
    (s.softReset p).flag p Fd.CTRL_SOFT_RESET = true ∧ (s.softReset p).flag p Fd.STATUS_RESET_BUSY = true ∧
      p ∈ (s.softReset p).resets := by
  unfold State.softReset
  generalize State.softResetFx _ p = u
  have hregs : ∀ (v : State) (l : List Nat) (f : Fld), State.flag { v with resets := l } p f = v.flag p f :=
    fun v l f => State.flag_congr rfl p f
  refine ⟨?_, ?_, List.mem_append_right _ (List.mem_singleton_self p)⟩ <;>
    simp (disch := decide) only [hregs, State.flag_setFlag_apart, State.flag_setFlag_same]

/-! ### The bits of the word written -/

/-- The word of xxx_CTRL with the bits of its four fields. -/
def ctrlWord (enable reset freeze commit : Bool) : Nat := b2n enable + 2 * b2n reset + 4 * b2n freeze + 8 * b2n commit

theorem ctrlWord_bits (e r f c : Bool) :
    (ctrlWord e r f c).testBit 0 = e ∧ (ctrlWord e r f c).testBit 1 = r ∧ (ctrlWord e r f c).testBit 2 = f ∧
      (ctrlWord e r f c).testBit 3 = c := by
  revert e r f c; decide

/-! ### An accepted write -/

/-- A write of xxx_CTRL without COMMIT on a control page, EMC's apart: freeze, then enable and soft reset where the block has
them. -/
theorem ctrlWrite_noCommit (s : State) {d p : Nat} {b : Blk} (hc : isControlPage p = true) (hb : blkOf p = some b)
    (ha : alwaysEnabled b = false) (he : b ≠ .emc) (e r f : Bool) :
    s.ctrlWrite d p (ctrlWord e r f false) =
      if r then ((s.setFreeze p f).setEnable p e).softReset p else (s.setFreeze p f).setEnable p e := by
  obtain ⟨h0, h1, h2, h3⟩ := ctrlWord_bits e r f false
  simp [State.ctrlWrite, State.ctrlCheck, hc, hb, ha, he, h0, h1, h2, h3]

/-- A write of xxx_CTRL with COMMIT, ENABLE and FREEZE as they are, on a banked block that is not draining and is not a
database. -/
theorem ctrlWrite_commit (s : State) {d p : Nat} {b : Blk} (hc : isControlPage p = true) (hb : blkOf p = some b)
    (ha : alwaysEnabled b = false) (he : b ≠ .emc) (hf : b ≠ .fdb) (hk : hasBanks b = true)
    (hd : s.flag p Fd.STATUS_DRAINING = false) :
    s.ctrlWrite d p (ctrlWord (s.enabled p) false (s.frozen p) true) =
      if s.flag p Fd.STATUS_COMMIT_PENDING then s else s.commitRequest p := by
  obtain ⟨h0, h1, h2, h3⟩ := ctrlWord_bits (s.enabled p) false (s.frozen p) true
  obtain ⟨-, -, hen, hfr, -⟩ := commitRequest_spec s p
  have hE := hen ▸ setEnable_same (s := s.commitRequest p) p
  have hF := hfr ▸ setFreeze_same (s := s.commitRequest p) p
  cases h : s.flag p Fd.STATUS_COMMIT_PENDING <;>
    simp [State.ctrlWrite, State.ctrlCheck, hc, hb, ha, he, hf, hk, hd, h, h0, h1, h2, h3, hE, hF, setEnable_same,
      setFreeze_same]

/-- A write of xxx_CTRL that the port takes. -/
theorem ctrlPut_of_takes {d p v : Nat} (t : Nat) (h : s.takes d (p * 4096 + Reg.CTRL) v) :
    (s.advance t).ctrlPut d p v = (s.advance t).ctrlWrite d p v :=
  State.judged_ok _ ((State.judge_advance ..).trans h.2)

/-- A write of xxx_CTRL that the port takes and that names ENABLE and FREEZE alone sets both. -/
theorem ctrlPut_fields {d p : Nat} {b : Blk} (t : Nat) (hc : isControlPage p = true) (hb : blkOf p = some b)
    (ha : alwaysEnabled b = false) (he : b ≠ .emc) {e f : Bool} (h : s.takes d (p * 4096 + Reg.CTRL) (b2n e + 4 * b2n f)) :
    (s.advance t).ctrlPut d p (b2n e + 4 * b2n f) = ((s.advance t).setFreeze p f).setEnable p e := by
  rw [ctrlPut_of_takes t h, show b2n e + 4 * b2n f = ctrlWord e false f false by simp [ctrlWord, b2n],
    ctrlWrite_noCommit _ hc hb ha he, if_neg Bool.false_ne_true]

theorem gatedPage_block {p : Nat} (hp : gatedPage p) :
    isControlPage p = true ∧ ∃ b, blkOf p = some b ∧ alwaysEnabled b = false ∧ b ≠ .emc := by
  obtain rfl | rfl | rfl := hp
  · exact ⟨rfl, .pipe, rfl, rfl, by decide⟩
  · exact ⟨rfl, .pipe, rfl, rfl, by decide⟩
  · exact ⟨rfl, .swc, rfl, rfl, by decide⟩

/-- The end of a soft reset: the page leaves the resets in progress, and both bits read 0. -/
def State.resetEnded (s : State) (p : Nat) : State :=
  ({ s with resets := s.resets.filter (· ≠ p) }.setFlag p Fd.CTRL_SOFT_RESET false).setFlag p Fd.STATUS_RESET_BUSY false

theorem resetEnded_spec (s : State) (p : Nat) :
    (s.resetEnded p).flag p Fd.CTRL_SOFT_RESET = false ∧ (s.resetEnded p).flag p Fd.STATUS_RESET_BUSY = false ∧
      p ∉ (s.resetEnded p).resets ∧ (s.resetEnded p).enabled p = s.enabled p ∧
      OnlyRegs s (s.resetEnded p) [p * 4096 + Reg.CTRL, p * 4096 + Reg.STATUS] := by
  have hk : OnlyRegs s { s with resets := s.resets.filter (· ≠ p) } [p * 4096 + Reg.CTRL, p * 4096 + Reg.STATUS] :=
    ⟨fun _ _ => rfl, rfl, rfl, rfl, rfl, rfl⟩
  unfold State.resetEnded
  refine ⟨?_, ?_, by simp, ?_, (hk.setFlag false).setFlag false⟩
  · simp (disch := decide) only [State.flag_setFlag_apart, State.flag_setFlag_same]
  · simp (disch := decide) only [State.flag_setFlag_same]
  · simp (disch := decide) only [State.enabled, State.flag_setFlag_apart]
    exact State.flag_congr rfl p _

/-- SOFT_RESET_DONE for a page whose block is disabled. -/
theorem exec_softResetDone {s : State} (t : Nat) {p : Nat} (hl : s.live = true) (hr : p ∈ s.resets) (he : s.enabled p = false) :
    exec (.softResetDone t p) s = .next (s.queueOf ((s.advance t).resetEnded p)) := by
  obtain ⟨-, -, -, hen, -⟩ := resetEnded_spec (s.advance t) p
  have hen' : ((s.advance t).resetEnded p).enabled p = false := by rw [hen, State.advance_enabled, he]
  have hr' : (s.advance t).resets.contains p = true := by simpa using hr
  change execSoftResetDone t p s = _
  unfold execSoftResetDone
  rw [live_of s hl]
  refine congrArg (fun u => Host.Outcome.next (s.queueOf u)) ?_
  change (if !((s.advance t).resets.contains p) then _
    else if !(((s.advance t).resetEnded p).enabled p) then (s.advance t).resetEnded p else _) = _
  rw [hr', hen']
  rfl

end

/-- Settles O8: each command by what its fields of xxx_CTRL do in `ctrlWrite`. -/
theorem controlRegisterCommands : Obligations.ControlRegisterCommands := by
  refine ⟨?enable, ?freeze, ?softReset, ?softResetDone, ?commit⟩
  case enable =>
    intro s t d p on hp h
    obtain ⟨hc, b, hb, ha, hne⟩ := gatedPage_block hp
    refine completes_live (t := t) (f := fun s => s.ctrlPut d p (b2n on + 4 * b2n (s.frozen p))) rfl h.1 ?_
    obtain ⟨hen, hst, hfr, hk⟩ := setEnable_spec (s.advance t) hp on
    rw [ctrlPut_fields t hc hb ha hne (by simpa using h), setFreeze_same]
    exact ⟨hen, by simpa using hst, by simpa using hfr, hk.effect.kept⟩
  case freeze =>
    intro s t d p on hp h
    obtain ⟨hc, b, hb, ha, hne⟩ := gatedPage_block hp
    refine completes_live (t := t) (f := fun s => s.ctrlPut d p (b2n (s.enabled p) + 4 * b2n on)) rfl h.1 ?_
    obtain ⟨hfr, hst, hen, hk⟩ := setFreeze_spec (s.advance t) hp on
    rw [ctrlPut_fields t hc hb ha hne (by simpa using h), ← hen, setEnable_same]
    exact ⟨hfr, by simpa using hst, by simpa using hen, hk.effect.kept⟩
  case softReset =>
    intro s t d p b hc hb ha hne h
    refine completes_live (t := t) (f := fun s => s.ctrlPut d p (s.ctrlNow p + 2)) rfl h.1 ?_
    have hw : (s.advance t).ctrlPut d p ((s.advance t).ctrlNow p + 2) = (s.advance t).softReset p := by
      rw [ctrlPut_of_takes t (by simpa [State.ctrlNow] using h),
        show (s.advance t).ctrlNow p + 2 = ctrlWord ((s.advance t).enabled p) true ((s.advance t).frozen p) false by
          simp [ctrlWord, State.ctrlNow, b2n]; omega,
        ctrlWrite_noCommit _ hc hb ha hne, setFreeze_same, setEnable_same, if_pos rfl]
    rw [hw]
    obtain ⟨hsr, hrb, hmem⟩ := softReset_spec (s.advance t) p
    exact ⟨(State.queueOf_flag ..).trans hsr, (State.queueOf_flag ..).trans hrb, (State.queueOf_resets s _).symm ▸ hmem⟩
  case softResetDone =>
    intro s t p hl hr he
    obtain ⟨hsr, hrb, hres, -, hk⟩ := resetEnded_spec (s.advance t) p
    exact ⟨_, exec_softResetDone t hl hr he, (State.queueOf_flag ..).trans hsr, (State.queueOf_flag ..).trans hrb,
      by rwa [State.queueOf_resets], hk.effect.kept⟩
  case commit =>
    intro s t d p hp hd h
    obtain ⟨hc, b, hb, ha, hne, hnf, hk⟩ : isControlPage p = true ∧ ∃ b, blkOf p = some b ∧ alwaysEnabled b = false ∧
        b ≠ .emc ∧ b ≠ .fdb ∧ hasBanks b = true := by
      obtain rfl | rfl | rfl := hp
      · exact ⟨rfl, .srt, rfl, rfl, by decide, by decide, rfl⟩
      · exact ⟨rfl, .pipe, rfl, rfl, by decide, by decide, rfl⟩
      · exact ⟨rfl, .pipe, rfl, rfl, by decide, by decide, rfl⟩
    refine completes_live (t := t) (f := fun s => s.ctrlPut d p (s.ctrlNow p + 8)) rfl h.1 ?_
    have hw : (s.advance t).ctrlPut d p ((s.advance t).ctrlNow p + 8) =
        if s.flag p Fd.STATUS_COMMIT_PENDING then s.advance t else (s.advance t).commitRequest p := by
      rw [ctrlPut_of_takes t (by simpa [State.ctrlNow] using h),
        show (s.advance t).ctrlNow p + 8 = ctrlWord ((s.advance t).enabled p) false ((s.advance t).frozen p) true by
          simp [ctrlWord, State.ctrlNow, b2n],
        ctrlWrite_commit _ hc hb ha hne hnf hk (by simpa using hd), State.flag_advance]
    rw [hw]
    obtain ⟨hco, hcp, hen, hfr, hk⟩ := commitRequest_spec (s.advance t) p
    cases hpend : s.flag p Fd.STATUS_COMMIT_PENDING
    · exact ⟨fun _ => ⟨hco, hcp⟩, by simpa using hen, by simpa using hfr, hk.effect.kept⟩
    · exact ⟨fun h => absurd h (by simp), by simp, by simp, (OnlyRegs.refl ..).effect.kept⟩

end Sys2Proof.Machine
end

section
/-! The end of a window command (R46, Table 16): what WIN_CMD_DONE reports and what it leaves. -/

namespace Sys2Proof.Machine

section
variable (s : State)

/-! ### Registers that a latched error leaves alone -/

/-- A flag outside the error registers of a page reads the same after an error of the page. -/
theorem State.flag_errBy (src p code a0 a1 : Nat) (g : Fld) (h : p * 4096 + g.off ∉ errRegs p) :
    (s.errBy src p code a0 a1).flag p g = s.flag p g := by
  unfold State.flag State.fld
  rw [State.errBy_reg _ _ _ _ _ _ _ h]

/-- WIN_CMD_STATUS is no error register. -/
theorem winStatus_not_errReg (p : Nat) : p * 4096 + Reg.WIN_CMD_STATUS ∉ errRegs p := by
  simp only [errRegs, List.mem_cons, List.not_mem_nil, or_false, Nat.add_left_cancel_iff]
  decide

/-! ### The end of a command -/

/-- The command of page `p` has ended, with success where `ok`: it no longer runs, BUSY is clear, and DONE and ERROR say how. -/
def State.winEnded (p : Nat) (ok : Bool) : State :=
  (({ s with wins := s.wins.filter fun x => x.page ≠ p }.setFlag p Fd.WIN_BUSY false).setFlag p Fd.WIN_DONE ok).setFlag p
    Fd.WIN_ERROR !ok

/-- What a page's window reports of a command that has ended. -/
def WinReports (u : State) (p : Nat) (ok : Bool) : Prop :=
  u.flag p Fd.WIN_BUSY = false ∧ u.flag p Fd.WIN_DONE = ok ∧ u.flag p Fd.WIN_ERROR = !ok ∧ ∀ x ∈ u.wins, x.page ≠ p

theorem winEnded_reports (p : Nat) (ok : Bool) : WinReports (s.winEnded p ok) p ok := by
  unfold State.winEnded
  refine ⟨?_, ?_, ?_, by simp⟩ <;> simp (disch := decide) only [State.flag_setFlag_apart, State.flag_setFlag_same]

theorem winEnded_onlyRegs (p : Nat) (ok : Bool) : OnlyRegs s (s.winEnded p ok) [p * 4096 + Reg.WIN_CMD_STATUS] := by
  have hk : OnlyRegs s { s with wins := s.wins.filter fun x => x.page ≠ p } [p * 4096 + Reg.WIN_CMD_STATUS] :=
    ⟨fun _ _ => rfl, rfl, rfl, rfl, rfl, rfl⟩
  unfold State.winEnded
  exact ((hk.setFlag false).setFlag ok).setFlag (!ok)

/-- The failure of a command that has ended, latched and logged beside its report. -/
def State.winFault (p : Nat) (r : WinRun) : State :=
  (s.setFld p Fd.WIN_ERR r.err).errBy r.dom p r.err Reg.WIN_CMD (s.rd p Reg.WIN_ADDR)

@[simp] theorem winFault_tabs (p : Nat) (r : WinRun) : (s.winFault p r).tabs = s.tabs := by simp [State.winFault]
@[simp] theorem winFault_mram (p : Nat) (r : WinRun) : (s.winFault p r).mram = s.mram := by simp [State.winFault]
@[simp] theorem winFault_dram (p : Nat) (r : WinRun) : (s.winFault p r).dram = s.dram := by simp [State.winFault]
@[simp] theorem winFault_wins (p : Nat) (r : WinRun) : (s.winFault p r).wins = s.wins := by simp [State.winFault]

/-- The latched failure leaves BUSY, DONE and ERROR as the end of the command set them. -/
theorem winFault_reports {s : State} {p : Nat} {ok : Bool} (r : WinRun) (h : WinReports s p ok) :
    WinReports (s.winFault p r) p ok := by
  obtain ⟨hb, hd, he, hw⟩ := h
  have hflag : ∀ g : Fld, g.off = Reg.WIN_CMD_STATUS → Fld.apart g Fd.WIN_ERR = true →
      (s.winFault p r).flag p g = s.flag p g := fun g ho ha => by
    rw [State.winFault, State.flag_errBy _ _ _ _ _ _ g (ho ▸ winStatus_not_errReg p),
      State.flag_setFld_apart _ _ _ _ _ (by decide) ha]
  refine ⟨(hflag _ rfl (by decide)).trans hb, (hflag _ rfl (by decide)).trans hd, (hflag _ rfl (by decide)).trans he, ?_⟩
  simpa using hw

/-- WIN_CMD_DONE on a page, no database, on which the command `r` runs. -/
theorem exec_winCmdDone {s : State} (t : Nat) {p : Nat} {r : WinRun} (hl : s.live = true) (hb : blkOf p ≠ some .fdb)
    (hr : s.wins.find? (fun x => x.page = p) = some r) :
    exec (.winCmdDone t p) s = .next (s.queueOf
      (if decide (r.err = 0) then (s.advance t).winEnded p (r.err = 0)
        else ((s.advance t).winEnded p (r.err = 0)).winFault p r)) := by
  have hr' : (s.advance t).wins.find? (fun x => x.page = p) = some r := by rwa [State.advance_wins]
  change execWinCmdDone t p s = _
  unfold execWinCmdDone
  rw [live_of s hl]
  refine congrArg (fun u => Host.Outcome.next (s.queueOf u)) ?_
  simp only [hr', hb, decide_false, Bool.false_and, Bool.false_eq_true, if_false]
  simp only [State.winEnded, State.winFault]

end

/-- Settles O14: the report by the two ends of a command; entries and memory stay, and after a success every other register. -/
theorem windowCommandDone : Obligations.WindowCommandDone := by
  intro s t p r hl hb hr
  refine ⟨_, exec_winCmdDone t hl hb hr, ?_⟩
  have hrep := winEnded_reports (s.advance t) p (r.err = 0)
  have hk := winEnded_onlyRegs (s.advance t) p (r.err = 0)
  generalize (s.advance t).winEnded p (r.err = 0) = w at hrep hk
  by_cases h : r.err = 0
  · obtain ⟨hbusy, hdone, herr, hwins⟩ := hrep
    simp only [h, decide_true, if_true, State.queueOf_flag, State.queueOf_wins, hbusy, hdone, herr]
    have hk' := hk.effect
    exact ⟨trivial, by simp, by simp, hwins, hk'.tables, hk'.bytes, fun _ => ⟨hk'.regs, hk'.counts⟩⟩
  · obtain ⟨hbusy, hdone, herr, hwins⟩ := winFault_reports r hrep
    simp only [h, decide_false, Bool.false_eq_true, if_false, State.queueOf_flag, State.queueOf_wins, hbusy, hdone, herr]
    exact ⟨trivial, by simp, by simp [h], hwins, .of_eq (by simp [hk.tabs]), .of_eq (by simp [hk.mram]) (by simp [hk.dram]),
      fun h' => h'.elim⟩

end Sys2Proof.Machine
end

section
/-! The indirect table window: a command that is taken starts, and what a READ leaves in DATA0 to DATA7 (R34, R43, R46). -/

namespace Sys2Proof.Machine

section
variable (s : State)

/-! ### Folds over the numbers below `n` -/

theorem foldN_succ {α : Type} (n : Nat) (f : Nat → α → α) (a : α) : foldN (n + 1) f a = f n (foldN n f a) := by
  simp [foldN, List.range_succ]

/-- What holds at the start and is kept by each step holds at the end. -/
theorem foldN_induction {α : Type} {P : α → Prop} {n : Nat} {f : Nat → α → α} {a : α} (h0 : P a)
    (hs : ∀ i x, i < n → P x → P (f i x)) : P (foldN n f a) := by
  induction n with
  | zero => exact h0
  | succ n ih =>
    rw [foldN_succ]
    exact hs n _ (Nat.lt_succ_self n) (ih fun i x hi hx => hs i x (Nat.lt_succ_of_lt hi) hx)

/-! ### DATA0 to DATA7 -/

theorem winData_mem_winRegs (p : Nat) {k : Nat} (h : k < 8) : p * 4096 + (Reg.WIN_DATA + 4 * k) ∈ winRegs p := by
  simp only [winRegs, List.mem_cons, List.not_mem_nil, or_false]
  omega

/-- No word of DATA0 to DATA7 is the command status. -/
theorem winData_ne_status {k : Nat} (h : k < 8) : Reg.WIN_DATA + 4 * k ≠ Reg.WIN_CMD_STATUS := by
  change 0xC04 + 4 * k ≠ 0xC28
  omega

theorem errCode_not_winReg (p : Nat) : p * 4096 + Reg.ERR_CODE ∉ winRegs p := by
  simp only [winRegs, List.mem_cons, List.not_mem_nil, or_false, Nat.add_assoc, Nat.add_left_cancel_iff]
  decide

/-- Filling DATA0 to DATA7 writes the window's registers alone. -/
theorem setWinData_onlyRegs (p : Nat) (e : Entry) : OnlyRegs s (s.setWinData p e) (winRegs p) :=
  foldN_induction (P := fun u => OnlyRegs s u (winRegs p)) (.refl ..) fun _ _ hi hx => hx.wr _ (winData_mem_winRegs p hi)

theorem setWinData_holds (p : Nat) (e : Entry) : DataHolds (s.setWinData p e) p e := by
  suffices h : ∀ n k, k < n → (foldN n (fun k s => s.wr p (Reg.WIN_DATA + 4 * k) (bitsOf e (32 * k) 32)) s).rd p
      (Reg.WIN_DATA + 4 * k) = bitsOf e (32 * k) 32 from fun k hk => h 8 k hk
  intro n
  induction n with
  | zero => exact fun k hk => absurd hk (Nat.not_lt_zero k)
  | succ n ih =>
    intro k hk
    rw [foldN_succ]
    by_cases hkn : k = n
    · rw [hkn, State.rd_wr_same]
      exact Nat.mod_eq_of_lt (Nat.mod_lt _ (Nat.two_pow_pos 32))
    · unfold State.rd at ih ⊢
      rw [State.reg_wr_ne _ _ _ _ _ (by omega)]
      exact ih k (by omega)

@[simp] theorem setWinData_ent (p q tab bank idx : Nat) (e : Entry) :
    (s.setWinData p e).ent q tab bank idx = s.ent q tab bank idx := State.ent_congr (setWinData_onlyRegs s p e).tabs ..

/-! ### A command starts -/

/-- A command starts: BUSY and the status register alone. -/
theorem winStart_onlyRegs (d p err : Nat) : OnlyRegs s (s.winStart d p err) (winRegs p) := by
  have h := (OnlyRegs.refl s (winRegs p)).setFlag (p := p) (f := Fd.WIN_BUSY) true (by simp [winRegs])
  exact ⟨h.regs, h.tabs, h.cnt, h.mram, h.dram, h.wqs⟩

theorem winStart_runs (d p err : Nat) : WinRuns (s.winStart d p err) d p err :=
  ⟨(State.flag_congr rfl p _).trans (State.flag_setFlag_same _ _ _ _ (by decide) rfl),
    List.mem_append_right _ (List.mem_singleton_self _)⟩

/-- A register of a page other than the command status reads as before when a command starts. -/
theorem winStart_rd (d p err off : Nat) (h : off ≠ Reg.WIN_CMD_STATUS) : (s.winStart d p err).rd p off = s.rd p off := by
  unfold State.rd
  exact congrArg BitVec.toNat (State.reg_setFld_ne s p _ Fd.WIN_BUSY 1 (by simpa using h))

theorem winStart_holds {s : State} {p : Nat} {e : Entry} (d err : Nat) (h : DataHolds s p e) :
    DataHolds (s.winStart d p err) p e := fun k hk =>
  (winStart_rd s d p err _ (winData_ne_status hk)).trans (h k hk)

/-! ### A command that the window takes -/

@[simp] theorem tabHas_advance (t p tab : Nat) : (s.advance t).tabHas p tab = s.tabHas p tab := by
  unfold State.advance
  split <;> rfl

@[simp] theorem winCheck_advance (t p op cnt : Nat) : (s.advance t).winCheck p op cnt = s.winCheck p op cnt := by
  simp [State.winCheck]

@[simp] theorem winTab_advance (t p : Nat) : (s.advance t).winTab p = s.winTab p := State.fld_advance s t p _

@[simp] theorem winIdx_advance (t p : Nat) : (s.advance t).winIdx p = s.winIdx p := State.fld_advance s t p _

@[simp] theorem winBank_advance (t p tab : Nat) : (s.advance t).winBank p tab = s.winBank p tab := by
  unfold State.winBank State.bankOf
  simp only [State.fld_advance]

/-- An entry is read without regard to the time. -/
@[simp] theorem winEntry_advance (t p tab bank idx : Nat) (fail : Bool) :
    (s.advance t).winEntry p tab bank idx fail = s.winEntry p tab bank idx fail := by
  unfold State.advance
  split <;> rfl

variable {s}

/-- A command word that the window takes, with no check of its own, has its effect and starts. -/
theorem winRun_of_commands {d p v : Nat} (t : Nat) (h : s.commands d p v) (f : State → Nat × State) :
    (s.advance t).winRun d p v (fun _ => none) f = (f (s.advance t)).2.winStart d p (f (s.advance t)).1 := by
  obtain ⟨⟨-, hj⟩, hw, hb, hc⟩ := h
  unfold State.winRun
  rw [State.judged_ok _ ((State.judge_advance ..).trans hj)]
  simp [hw, hb, hc]

/-! ### Reading an entry -/

theorem beforeWrite_of_ne_egr {p : Nat} (tab idx : Nat) (h : blkOf p ≠ some .egr) : s.beforeWrite p tab idx = s := by
  unfold State.beforeWrite
  split <;> simp_all

/-- READ of an entry without an error that holds no key material. -/
theorem readEntry_plain {d p : Nat} {fail : Bool} (he : blkOf p ≠ some .egr) (ho : blkOf p ≠ some .otp)
    (hs : winSecret p (s.winTab p) (s.winIdx p) = false) :
    s.readEntry d p false fail =
      (0, s.setWinData p (s.winEntry p (s.winTab p) (s.winBank p (s.winTab p)) (s.winIdx p) fail)) := by
  simp [State.readEntry, beforeWrite_of_ne_egr, he, ho, hs]

/-- READ of an entry that holds an uncorrectable error. -/
theorem readEntry_ecc (d p : Nat) (fail : Bool) : s.readEntry d p true fail = (Er.WIN_ECC, s.setWinData p 0) := rfl

/-- A read that starts with `e` in DATA0 to DATA7 of `u`, over the queue of `s`. -/
theorem read_starts (s : State) {u : State} {p : Nat} {e : Entry} (d err : Nat) (h : DataHolds u p e) :
    WinRuns (s.queueOf (u.winStart d p err)) d p err ∧ DataHolds (s.queueOf (u.winStart d p err)) p e ∧
      OnlyRegs u (s.queueOf (u.winStart d p err)) (winRegs p) := by
  obtain ⟨hbusy, hmem⟩ := winStart_runs u d p err
  exact ⟨⟨(State.queueOf_flag ..).trans hbusy, by rwa [State.queueOf_wins]⟩,
    fun k hk => (State.queueOf_rd ..).trans (winStart_holds d err h k hk), (winStart_onlyRegs u d p err).queueOf s⟩

/-- A read that leaves `e` in DATA0 to DATA7 and changes nothing else. -/
theorem read_effect (s : State) (t d p err : Nat) (e : Entry) :
    WinRuns (s.queueOf (((s.advance t).setWinData p e).winStart d p err)) d p err ∧
      DataHolds (s.queueOf (((s.advance t).setWinData p e).winStart d p err)) p e ∧
      OnlyRegs s (s.queueOf (((s.advance t).setWinData p e).winStart d p err)) (winRegs p) := by
  obtain ⟨hrun, hdata, hk⟩ := read_starts s d err (setWinData_holds (s.advance t) p e)
  exact ⟨hrun, hdata, ((setWinData_onlyRegs _ p e).trans hk).of_advance⟩

/-! ### Key material -/

/-- The first error of a page is latched with its code and the domain that caused it (R37). -/
theorem errBy_first {s : State} (d p code a0 a1 : Nat) (h : s.flag p Fd.ERR_VALID = false) :
    (s.errBy d p code a0 a1).fld p Fd.ERR_CODE = code % 65536 ∧ (s.errBy d p code a0 a1).fld p Fd.ERR_SRC_DOMAIN = d % 8 := by
  have hrd : (s.errBy d p code a0 a1).rd p Reg.ERR_CODE = 2 ^ 31 + d % 8 * 65536 + code % 65536 := by
    unfold State.errBy State.report State.rd
    rw [State.reg_congr (State.pushReport_regs _ _)]
    exact State.latch_first s _ h
  have hfld : ∀ f : Fld, f.off = Reg.ERR_CODE →
      (s.errBy d p code a0 a1).fld p f = (2 ^ 31 + d % 8 * 65536 + code % 65536) / 2 ^ f.lo % 2 ^ f.w := fun f hf => by
    rw [← hrd, State.rd, ← hf]
    rfl
  rw [hfld _ rfl, hfld _ rfl]
  constructor
  · change (2 ^ 31 + d % 8 * 65536 + code % 65536) / 2 ^ 0 % 2 ^ 16 = code % 65536
    omega
  · change (2 ^ 31 + d % 8 * 65536 + code % 65536) / 2 ^ 16 % 2 ^ 3 = d % 8
    omega

/-- An error touches the error registers of its page, no table and no memory. -/
theorem errBy_kept (s : State) (d p code a0 a1 : Nat) :
    RegsKept s (s.errBy d p code a0 a1) (errRegs p) ∧ (s.errBy d p code a0 a1).tabs = s.tabs ∧
      (s.errBy d p code a0 a1).mram = s.mram ∧ (s.errBy d p code a0 a1).dram = s.dram :=
  ⟨fun a ha => State.errBy_reg s d p code a0 a1 a ha, by simp, by simp, by simp⟩

theorem blkOf_pKEY {k : Nat} (h : k < 4) : blkOf (pKEY k) = some .key := by
  have all : ∀ x, x < 4 → blkOf (pKEY x) = some .key := by decide
  exact all k h

/-- READ of a staging entry: 0, and REG_KEY_READ (R34). -/
theorem readEntry_staging {s : State} (d : Nat) {k : Nat} (hk : k < 4) (ht : s.winTab (pKEY k) = 1) :
    s.readEntry d (pKEY k) false false =
      (0, (s.errBy d (pKEY k) Er.REG_KEY_READ Reg.WIN_CMD 1).setWinData (pKEY k) 0) := by
  have hb := blkOf_pKEY hk
  have hw : ∀ tab idx, s.beforeWrite (pKEY k) tab idx = s := fun _ _ => beforeWrite_of_ne_egr _ _ (by rw [hb]; decide)
  unfold State.readEntry
  simp only [hw, hb, ht, winSecret, State.winEntry]
  simp

/-! ### READ_CLR of a queue counter -/

theorem blkOf_pSWC : blkOf pSWC = some .swc := rfl

/-- READ_CLR keeps the low half of a counter entry: the bits it clears are [255:128] (R288). -/
theorem clrBits_swc (tab : Nat) (e : Entry) :
    e &&& ~~~(BitVec.ofNat 256 (clrBits pSWC tab)) = e &&& BitVec.ofNat 256 (2 ^ 128 - 1) := by
  have h : ~~~(BitVec.ofNat 256 (allBits - (2 ^ 128 - 1))) = BitVec.ofNat 256 (2 ^ 128 - 1) := by decide
  rw [← h]
  rfl

/-- An entry of the switch core reads as it is held; its tables have one bank. -/
theorem winEntry_swc (s : State) (tab idx : Nat) :
    s.winEntry pSWC tab (s.winBank pSWC tab) idx false = s.ent pSWC tab 0 idx := by
  unfold State.winEntry State.winBank tabBanked State.heldEntry State.winHome
  simp only [blkOf_pSWC]
  rfl

theorem winHome_swc (s : State) (tab idx : Nat) : s.winHome pSWC tab idx = (pSWC, idx) := rfl

/-- What READ_CLR makes of the state: the entry in DATA0 to DATA7, and its counters cleared in the table. -/
def State.swcReadCleared (s : State) : State :=
  let u := s.setWinData pSWC (s.ent pSWC (s.winTab pSWC) 0 (s.winIdx pSWC))
  u.setEnt pSWC (s.winTab pSWC) 0 (s.winIdx pSWC)
    (s.ent pSWC (s.winTab pSWC) 0 (s.winIdx pSWC) &&& BitVec.ofNat 256 (2 ^ 128 - 1))

theorem winReadClr_swc {s : State} (t : Nat) {d : Nat} (h : s.commands d pSWC 8) :
    (s.advance t).winReadClr d pSWC 8 false = (s.advance t).swcReadCleared.winStart d pSWC 0 := by
  have hr : (s.advance t).readEntry d pSWC false false = (0, (s.advance t).setWinData pSWC
      ((s.advance t).ent pSWC ((s.advance t).winTab pSWC) 0 ((s.advance t).winIdx pSWC))) := by
    rw [readEntry_plain (by rw [blkOf_pSWC]; decide) (by rw [blkOf_pSWC]; decide) (by simp [winSecret, blkOf_pSWC]), winEntry_swc]
  unfold State.winReadClr
  rw [winRun_of_commands t h]
  simp only [hr, winHome_swc, clrBits_swc, blkOf_pSWC, setWinData_ent, State.swcReadCleared, ne_eq, not_true_eq_false, if_false,
    Option.some.injEq, reduceCtorEq]

/-- What READ_CLR leaves of the switch core's window and its counter entry, where `e` is that entry. -/
theorem swcReadCleared_spec {s : State} {e : Entry} (he : s.ent pSWC (s.winTab pSWC) 0 (s.winIdx pSWC) = e) :
    DataHolds s.swcReadCleared pSWC e ∧
      s.swcReadCleared.ent pSWC (s.winTab pSWC) 0 (s.winIdx pSWC) = e &&& BitVec.ofNat 256 (2 ^ 128 - 1) ∧
      RegsKept s s.swcReadCleared (winRegs pSWC) ∧ CountsKept s s.swcReadCleared ∧ BytesKept s s.swcReadCleared := by
  have hk := setWinData_onlyRegs s pSWC e
  have hd := setWinData_holds s pSWC e
  unfold State.swcReadCleared
  rw [he]
  generalize s.setWinData pSWC e = u at hk hd
  refine ⟨hd, State.ent_setEnt_same .., fun a ha => ?_, .of_eq ?_, .of_eq ?_ ?_⟩
  · rw [State.reg_congr (State.setEnt_regs ..), hk.regs a ha]
  · rw [State.setEnt_cnt, hk.cnt]
  · rw [State.setEnt_mram, hk.mram]
  · rw [State.setEnt_dram, hk.dram]

end

/-- Settles O12: what `readEntry` leaves in DATA0 to DATA7, by the kind of entry. -/
theorem windowReads : Obligations.WindowReads := by
  refine ⟨?plain, ?ecc, ?clr, ?key⟩
  case plain =>
    intro s t d p h he ho hsec
    refine completes_live (t := t) (f := fun s => s.winRead d p 1 false false) rfl h.1.1 ?_
    have hw : (s.advance t).winRead d p 1 false false = ((s.advance t).setWinData p
        (s.winEntry p (s.winTab p) (s.winBank p (s.winTab p)) (s.winIdx p) false)).winStart d p 0 := by
      unfold State.winRead
      rw [winRun_of_commands t h, readEntry_plain he ho (by simpa using hsec)]
      simp only [winEntry_advance, winTab_advance, winIdx_advance, winBank_advance]
    rw [hw]
    obtain ⟨hrun, hdata, hk⟩ :=
      read_effect s t d p 0 (s.winEntry p (s.winTab p) (s.winBank p (s.winTab p)) (s.winIdx p) false)
    exact ⟨hrun, hdata, hk.kept⟩
  case ecc =>
    intro s t d p h
    refine completes_live (t := t) (f := fun s => s.winRead d p 1 true false) rfl h.1.1 ?_
    have hw : (s.advance t).winRead d p 1 true false = ((s.advance t).setWinData p 0).winStart d p Er.WIN_ECC := by
      unfold State.winRead
      rw [winRun_of_commands t h, readEntry_ecc]
    rw [hw]
    obtain ⟨hrun, hdata, hk⟩ := read_effect s t d p Er.WIN_ECC 0
    exact ⟨hrun, hdata, hk.kept⟩
  case clr =>
    intro s t d h
    refine completes_live (t := t) (f := fun s => if blkOf pSWC = some .trn || blkOf pSWC = some .fdb then s
      else s.winReadClr d pSWC 8 false) rfl h.1.1 ?_
    have hw : (if blkOf pSWC = some .trn || blkOf pSWC = some .fdb then s.advance t
        else (s.advance t).winReadClr d pSWC 8 false) = (s.advance t).swcReadCleared.winStart d pSWC 0 := by
      rw [blkOf_pSWC, winReadClr_swc t h]
      rfl
    rw [hw]
    obtain ⟨hdata, hent, hregs, hcnt, hbytes⟩ := swcReadCleared_spec (s := s.advance t)
      ((State.ent_advance ..).trans (by rw [winTab_advance, winIdx_advance]))
    rw [winTab_advance, winIdx_advance] at hent
    generalize (s.advance t).swcReadCleared = u at hdata hent hregs hcnt hbytes
    obtain ⟨hrun, hdata', hk⟩ := read_starts s d 0 hdata
    refine ⟨hrun, hdata', (hk.tables ..).trans hent, fun a ha => ?_, fun q off => ?_, fun o => ?_, fun o => ?_⟩
    · rw [hk.regs a ha, hregs a ha, State.reg_advance]
    · rw [hk.counts q off, hcnt q off, State.count_advance]
    · rw [hk.bytes.1 o, hbytes.1 o, State.mramByte, State.advance_mram, State.mramByte]
    · rw [hk.bytes.2 o, hbytes.2 o, State.dramByte, State.advance_dram, State.dramByte]
  case key =>
    intro s t d k hk4 htab h hv
    have hsec : (hasWindow (pKEY k) &&
        winSecret (pKEY k) ((s.advance t).winTab (pKEY k)) ((s.advance t).winIdx (pKEY k))) = true := by
      simp [h.2.1, winSecret, blkOf_pKEY hk4, htab]
    refine completes_live (t := t) (f := fun s => if hasWindow (pKEY k) && winSecret (pKEY k) (s.winTab (pKEY k))
      (s.winIdx (pKEY k)) then s.winRead d (pKEY k) 1 false false else s) rfl h.1.1 ?_
    have hw : (s.advance t).winRead d (pKEY k) 1 false false =
        (((s.advance t).errBy d (pKEY k) Er.REG_KEY_READ Reg.WIN_CMD 1).setWinData (pKEY k) 0).winStart d (pKEY k) 0 := by
      unfold State.winRead
      rw [winRun_of_commands t h, readEntry_staging d hk4 (by simpa using htab)]
    rw [if_pos hsec, hw]
    obtain ⟨hcode, hsrc⟩ := errBy_first d (pKEY k) Er.REG_KEY_READ Reg.WIN_CMD 1 (s := s.advance t) (by simpa using hv)
    obtain ⟨hregs, htabs, hmram, hdram⟩ := errBy_kept (s.advance t) d (pKEY k) Er.REG_KEY_READ Reg.WIN_CMD 1
    generalize (s.advance t).errBy d (pKEY k) Er.REG_KEY_READ Reg.WIN_CMD 1 = u at hcode hsrc hregs htabs hmram hdram
    obtain ⟨hrun, hdata, hk⟩ := read_starts s d 0 (setWinData_holds u (pKEY k) 0)
    have hk' := (setWinData_onlyRegs u (pKEY k) 0).trans hk
    refine ⟨hrun, hdata, ?_, ?_, fun a ha => ?_, .of_eq ?_, .of_eq ?_ ?_⟩
    · rw [State.fld, hk'.regs _ (errCode_not_winReg _)]
      exact hcode
    · rw [State.fld, hk'.regs _ (errCode_not_winReg _)]
      exact hsrc
    · rw [List.mem_append, not_or] at ha
      rw [hk'.regs a ha.1, hregs a ha.2, State.reg_advance]
    · rw [hk'.tabs, htabs, State.advance_tabs]
    · rw [hk'.mram, hmram, State.advance_mram]
    · rw [hk'.dram, hdram, State.advance_dram]

end Sys2Proof.Machine
end

section
/-!
The register port, one register at a time: clearing an error, testing an interrupt, reading a register and popping a word queue
(R34, R37, R42, R97, Table 6 of *Register Space and Page Layout*).
-/

namespace Sys2Proof.Machine

section
variable {s : State}

/-! ### Pages and addresses -/

/-- A page with a header stands in its row's range of the page map. -/
theorem pageRow_bounds {p : Nat} {r : PageRow} {i k : Nat} (h : pageRow p = some (r, i, k)) :
    r ∈ pageMap ∧ r.base ≤ p ∧ (p - r.base) / r.step < r.insts := by
  obtain ⟨x, hx, hf⟩ := List.exists_of_findSome?_eq_some h
  split at hf
  · next hc =>
    obtain ⟨rfl, -⟩ := Prod.mk.inj (Option.some.inj hf)
    simp only [Bool.and_eq_true, decide_eq_true_eq] at hc
    exact ⟨hx, hc.1.1, hc.1.2⟩
  · cases hf

/-- Every page with a header lies below the MRAM data window (R23). -/
theorem hasHeader_lt {p : Nat} (h : hasHeader p = true) : p < 0x400 := by
  obtain ⟨⟨r, i, k⟩, hr⟩ := Option.isSome_iff_exists.mp h
  obtain ⟨hm, hb, hi⟩ := pageRow_bounds hr
  have hrow : ∀ r ∈ pageMap, 0 < r.step ∧ r.base + r.step * r.insts ≤ 0x400 := by decide
  obtain ⟨hs, hl⟩ := hrow r hm
  have := (Nat.div_lt_iff_lt_mul hs).mp hi
  rw [Nat.mul_comm] at this
  omega

theorem inMramWindow_of_header {p : Nat} (h : hasHeader p = true) : inMramWindow p = false := by
  have := hasHeader_lt h
  simp [inMramWindow]
  omega

/-- The header registers of a page are held by the logic die. -/
theorem onLineDie_header (p : Nat) {off : Nat} (h : off < 0x040) : onLineDie p off = false := by
  have h1 : ¬ 0x040 ≤ off := by omega
  have h2 : off ≠ Reg.PWR_TIMER := by unfold Reg.PWR_TIMER; omega
  have h3 : off ≠ Reg.NM_T1S_ACT := by unfold Reg.NM_T1S_ACT; omega
  have h4 : ¬ Reg.NM_WAKEIN ≤ off := by unfold Reg.NM_WAKEIN; omega
  simp [onLineDie, h1, h2, h3, h4]

/-! ### A write of a header register -/

/-- A 32-bit write of a header register outside the TIME page that the port takes. -/
theorem busWrite_header {d p off v : Nat} (t : Nat) (hh : hasHeader p = true) (hp : p ≠ pTIME) (ho : off < 0x040)
    (h4 : off % 4 = 0) (hv : v < 2 ^ 32) (h : s.takes d (p * 4096 + off) v) :
    (s.advance t).busWrite d (p * 4096 + off) 32 v false false = (s.advance t).headerWrite d p off v := by
  have hpage : (p * 4096 + off) / 4096 = p := by omega
  have hoff : (p * 4096 + off) % 4096 = off := by omega
  have hal : (p * 4096 + off) % 4 = 0 := by omega
  have hre : p * 4096 + off ≠ pTIME * 4096 + Reg.TIME_REARM := fun e => hp (by unfold Reg.TIME_REARM at e; omega)
  have hj : (s.advance t).judge d (p * 4096 + off) 32 v = none := (State.judge_advance ..).trans h.2
  have hacc : (s.advance t).accept d (p * 4096 + off) v false false = (s.advance t).headerWrite d p off v := by
    simp only [State.accept, hpage, hoff, inMramWindow_of_header hh, onLineDie_header p ho, Bool.false_eq_true, if_false, ho,
      if_true]
  unfold State.busWrite State.write32
  simp only [hal, hpage, hre, hp, Nat.mod_eq_of_lt hv, decide_true, Bool.and_self, decide_false, Bool.false_and,
    Bool.false_eq_true, if_true, if_false]
  rw [State.judged_ok _ hj, hacc]

/-- A W1C of ERR_CODE.VALID clears the code and both stamps (Table 10). -/
theorem headerWrite_errCode (s : State) (d p : Nat) : s.headerWrite d p Reg.ERR_CODE (2 ^ 31) = s.clearErr p := rfl

theorem headerWrite_irqTest (s : State) (d p v : Nat) : s.headerWrite d p Reg.IRQ_TEST v = s.irqTestWrite p v := rfl

/-- A stamp of two zero words is 0. -/
theorem State.rd64_eq_zero {s : State} {p lo : Nat} (hlo : s.rd p lo = 0) (hhi : s.rd p (lo + 4) = 0) : s.rd64 p lo = 0 := by
  simp [State.rd64, hlo, hhi]

/-- What the clearing of an error leaves. -/
theorem clearErr_spec (s : State) (p : Nat) :
    (s.clearErr p).rd p Reg.ERR_CODE = 0 ∧ (s.clearErr p).rd64 p Reg.ERR_STAMP_LO = 0 ∧
      OnlyRegs s (s.clearErr p) [p * 4096 + Reg.ERR_CODE, p * 4096 + Reg.ERR_STAMP_LO, p * 4096 + Reg.ERR_STAMP_HI] := by
  have hne : ∀ {a b : Nat}, a ≠ b → p * 4096 + a ≠ p * 4096 + b := fun h e => h (Nat.add_left_cancel e)
  unfold State.clearErr State.wr64
  refine ⟨?_, ?_, (((OnlyRegs.refl ..).wr 0).wr 0).wr _ (by simp)⟩
  · unfold State.rd
    rw [State.reg_wr_ne _ _ _ _ _ (hne (by decide)), State.reg_wr_ne _ _ _ _ _ (hne (by decide))]
    exact State.rd_wr_same s p Reg.ERR_CODE 0
  · have hlo : ∀ u : State, ((u.wr p Reg.ERR_STAMP_LO 0).wr p (Reg.ERR_STAMP_LO + 4) (0 / 2 ^ 32)).rd p Reg.ERR_STAMP_LO = 0 :=
      fun u => by
        unfold State.rd
        rw [State.reg_wr_ne _ _ _ _ _ (hne (by decide))]
        exact State.rd_wr_same u p Reg.ERR_STAMP_LO 0
    exact State.rd64_eq_zero (hlo _) (State.rd_wr_same ..)

/-- What an interrupt test leaves: the bits written are set in IRQ_STAT (Table 6). -/
theorem irqTestWrite_spec (s : State) (p : Nat) {v : Nat} (hv : v < 2 ^ 32) :
    (s.irqTestWrite p v).rd p Reg.IRQ_STAT = s.rd p Reg.IRQ_STAT ||| v ∧
      RegsKept s (s.irqTestWrite p v) [p * 4096 + Reg.IRQ_STAT] ∧ (s.irqTestWrite p v).tabs = s.tabs ∧
      (s.irqTestWrite p v).mram = s.mram ∧ (s.irqTestWrite p v).dram = s.dram ∧ (s.irqTestWrite p v).wqs = s.wqs := by
  unfold State.irqTestWrite
  refine ⟨?_, fun a ha => ?_, by simp, by simp, by simp, by simp⟩
  · unfold State.rd
    rw [State.reg_congr (State.notify_regs _ _)]
    exact (State.rd_wr_same ..).trans (Nat.mod_eq_of_lt (Nat.or_lt_two_pow (BitVec.isLt _) hv))
  · rw [State.reg_congr (State.notify_regs _ _), State.reg_wr_ne _ _ _ _ _ (by simpa using ha)]

/-! ### Reading a register -/

/-- The RC bits of a register clear when domain `d` owns its page (R42). -/
def State.rcCleared (s : State) (d a : Nat) (r : RegDef) : State :=
  if r.rc ≠ 0 ∧ s.owns d (a / 4096) = true then s.setReg a (s.reg a &&& ~~~(BitVec.ofNat 32 r.rc)) else s

/-- The effect of a read of a register that has no effect of its own. -/
theorem readFx_rc {d a : Nat} {r : RegDef} (hr : regDef a = some r) (hq : queueAt (a / 4096) (a % 4096) = none)
    (hf : a ≠ pTIME * 4096 + Reg.TIME_FRC_LO) (hm : a ≠ pSWC * 4096 + Reg.SWC_FREE_MIN)
    (hi : a ≠ pSRT * 4096 + Reg.SRT_INQ_STAT) :
    s.readFx d a false = s.rcCleared d a r := by
  have hsplit : ∀ p off : Nat, a ≠ p * 4096 + off → ¬ (a / 4096 = p ∧ a % 4096 = off) := fun p off h e => h (by omega)
  have hf' := hsplit _ _ hf
  have hm' := hsplit _ _ hm
  have hi' := hsplit _ _ hi
  unfold State.readFx State.rcCleared
  simp only [hq, hr, Bool.and_eq_true, decide_eq_true_eq, hf', hm', hi', if_false]
  by_cases h : r.rc = 0 <;> cases ho : s.owns d (a / 4096) <;> simp [h]

/-- A 32-bit read of a register of the logic die that is no queue. -/
theorem busRead_register {d a : Nat} (h4 : a % 4 = 0) (hl : onLineDie (a / 4096) (a % 4096) = false)
    (hw : inMramWindow (a / 4096) = false) :
    s.busRead d a 32 false false false = (s.peek d a % 2 ^ 32, s.readFx d a false) := by
  have ha : a / 4 * 4 = a := by omega
  simp [State.busRead, spanWords, State.readWord, h4, hl, hw, ha]

/-- What the clearing on a read leaves. -/
theorem rcCleared_spec (s : State) (d a : Nat) (r : RegDef) :
    (s.rcCleared d a r).reg a =
        (if r.rc ≠ 0 ∧ s.owns d (a / 4096) = true then s.reg a &&& ~~~(BitVec.ofNat 32 r.rc) else s.reg a) ∧
      (s.rcCleared d a r).out = s.out ∧ OnlyRegs s (s.rcCleared d a r) [a] := by
  unfold State.rcCleared
  split
  · exact ⟨State.reg_setReg_same .., rfl, (OnlyRegs.refl ..).setReg _ (List.mem_singleton_self a)⟩
  · exact ⟨rfl, rfl, .refl ..⟩

/-! ### Word queues -/

/-- The address of a word queue's register. -/
def queueAddr (k : Nat) : Nat := (wqAt k).page * 4096 + queueOff k

/-- Where the register of a word queue stands: a block-specific register of the logic die, the queue's own (R96). -/
theorem queueAddr_spec {k : Nat} (hk : k < 38) :
    queueAddr k / 4096 = (wqAt k).page ∧ queueAddr k % 4096 = queueOff k ∧ queueAt (wqAt k).page (queueOff k) = some k ∧
      hasHeader (wqAt k).page = true ∧ onLineDie (wqAt k).page (queueOff k) = false ∧ 0x040 ≤ queueOff k ∧
      queueOff k < 0x800 ∧ (wqAt k).page ≠ pGLB ∧ (wqAt k).page ≠ pTIME ∧ (wqAt k).page ≠ pOTP := by
  revert k; decide

/-- LEVEL of every queue fits its register. -/
theorem level_fits {k : Nat} (hk : k < 38) : (wqAt k).level.lo + (wqAt k).level.w ≤ 32 := by
  revert k; decide

/-- The register of a queue reads the word at its head, whoever reads it. -/
theorem peek_queue (d : Nat) {k w : Nat} {l : List Nat} (hk : k < 38) (hq : (s.wq k).a = w :: l) :
    s.peek d (queueAddr k) = w := by
  obtain ⟨hp, ho, hat, hh, -, hlo, hhi, hglb, htime, hotp⟩ := queueAddr_spec hk
  have hraw : queueOff k ≠ Reg.IRQ_RAW := by unfold Reg.IRQ_RAW; omega
  have hsnap : ¬ 0x800 ≤ queueOff k := by omega
  unfold State.peek
  simp only [hp, ho, inMramWindow_of_header hh, unmapped, hh, hraw, hsnap, hglb, htime, hotp, hat, hq, Bool.not_true,
    Bool.false_and, Bool.false_eq_true, decide_false, if_false]

/-- A read of a queue's register by a domain that does not own the page takes nothing (R97). -/
theorem readFx_queue_other {d k : Nat} (hk : k < 38) (ho : s.owns d (wqAt k).page = false) :
    s.readFx d (queueAddr k) false = s := by
  obtain ⟨hp, hoff, hat, -, -, -, -, -, htime, -⟩ := queueAddr_spec hk
  unfold State.readFx
  simp [hp, hoff, hat, htime, ho]

/-- A read of a queue's register by the owner takes the word at its head (R97). -/
theorem readFx_queue_owner {d k w : Nat} {q : WordQ} (hk : k < 38) (ho : s.owns d (wqAt k).page = true)
    (hq : (s.wq k).pop = some (w, q)) :
    s.readFx d (queueAddr k) false = (s.setWq k q).setFld (wqAt k).page (wqAt k).level q.level := by
  obtain ⟨hp, hoff, hat, -, -, -, -, -, htime, -⟩ := queueAddr_spec hk
  unfold State.readFx
  simp [hp, hoff, hat, htime, ho, hq]

/-- A read of a queue's register whose pointers agree. -/
theorem readWord_queue {d k : Nat} (hk : k < 38) :
    s.readWord d (queueAddr k) false false false = (s.peek d (queueAddr k), s.readFx d (queueAddr k) false) := by
  obtain ⟨hp, hoff, -, hh, hl, -⟩ := queueAddr_spec hk
  simp [State.readWord, hp, hoff, hl, inMramWindow_of_header hh]

/-- A word is popped from the head of a queue. -/
theorem pop_head {q q' : WordQ} {w : Nat} (h : q.pop = some (w, q')) : ∃ l, q.a = w :: l := by
  unfold WordQ.pop at h
  split at h
  · next x l hl =>
    refine ⟨l, ?_⟩
    split at h <;> cases h <;> exact hl
  · cases h

/-- WORD_QUEUE_POP: the word that the queue's register reads leaves the block, after the read's effect. -/
theorem exec_wordQueuePop {s : State} (t d : Nat) {k : Nat} (hk : k < 38) (hl : s.live = true) :
    exec (.wordQueuePop t d k false) s = .next (s.queueOf
      (((s.advance t).readFx d (queueAddr k) false).emit (.read d (queueAddr k) ((s.advance t).peek d (queueAddr k))))) := by
  change execWordQueuePop t d k false s = _
  unfold execWordQueuePop
  rw [live_of s hl]
  refine congrArg (fun u => Host.Outcome.next (s.queueOf u)) ?_
  have hr := readWord_queue (s := s.advance t) (d := d) hk
  unfold queueAddr at hr ⊢
  simp only [hr, if_neg (show ¬ 38 ≤ k by omega)]

/-! ### What leaves the block -/

@[simp] theorem State.emit_out (s : State) (o : Out) : (s.emit o).out = s.out ++ [o] := rfl

theorem OnlyRegs.emit {s u : State} {as : List Nat} (h : OnlyRegs s u as) (o : Out) : OnlyRegs s (u.emit o) as :=
  ⟨h.regs, h.tabs, h.cnt, h.mram, h.dram, h.wqs⟩

end

/-! ### The commands -/

/-- Settles O7: each command by the register that it writes or reads. -/
theorem portCommandsOfOneRegister : Obligations.PortCommandsOfOneRegister := by
  refine ⟨?errClear, ?irqTest, ?rcRead, ?pop, ?popOther⟩
  case errClear =>
    intro s t d p hp hh hT h
    refine completes_live (t := t)
      (f := fun s => s.busWrite d (p % 4096 * 4096 + Reg.ERR_CODE) 32 (2 ^ 31) false false) rfl h.1 ?_
    obtain ⟨hcode, hstamp, hk⟩ := clearErr_spec (s.advance t) p
    rw [Nat.mod_eq_of_lt hp, busWrite_header t hh hT (by decide) (by decide) (by decide) h, headerWrite_errCode]
    have hk' := hk.effect
    exact ⟨(State.queueOf_rd ..).trans hcode, (State.queueOf_rd64 ..).trans hstamp, hk'.regs, hk'.tables, hk'.counts, hk'.bytes,
      hk'.queues⟩
  case irqTest =>
    intro s t d p v hp hh hT hv h
    refine completes_live (t := t) (f := fun s => s.busWrite d (p % 4096 * 4096 + Reg.IRQ_TEST) 32 v false false) rfl h.1 ?_
    obtain ⟨hstat, hregs, htabs, hmram, hdram, hwqs⟩ := irqTestWrite_spec (s.advance t) p hv
    rw [Nat.mod_eq_of_lt hp, busWrite_header t hh hT (by decide) (by decide) hv h, headerWrite_irqTest]
    generalize (s.advance t).irqTestWrite p v = u at hstat hregs htabs hmram hdram hwqs
    refine ⟨by simpa using hstat, fun a ha => by simpa using hregs a ha, .of_eq ?_, .of_eq ?_ ?_, .of_eq ?_⟩ <;>
      simp [htabs, hmram, hdram, hwqs]
  case rcRead =>
    intro s t d a r ha h4 hl hdie hwin hr hq hf hm hi
    refine completes_live (t := t) (f := fun s =>
      (s.busRead d (a % 2 ^ 24) (min 32 64) false false false).2.emit
        (.read d (a % 2 ^ 24) (s.busRead d (a % 2 ^ 24) (min 32 64) false false false).1)) rfl hl ?_
    rw [Nat.mod_eq_of_lt ha, show min 32 64 = 32 from rfl, busRead_register h4 hdie hwin, readFx_rc hr hq hf hm hi]
    obtain ⟨hreg, hout, hk⟩ := rcCleared_spec (s.advance t) d a r
    generalize (s.advance t).rcCleared d a r = u at hreg hk hout
    have hk' := (hk.emit (.read d a ((s.advance t).peek d a % 2 ^ 32))).effect
    refine ⟨by simp [hout], ?_, hk'.regs, hk'.tables, hk'.counts, hk'.bytes, hk'.queues⟩
    rw [State.owns_advance, State.reg_advance] at hreg
    exact (State.queueOf_reg ..).trans hreg
  case pop =>
    intro s t d k w q hk hl ho hpop
    have hpop' : ((s.advance t).wq k).pop = some (w, q) := by simpa using hpop
    obtain ⟨l, hhead⟩ := pop_head hpop'
    refine ⟨_, exec_wordQueuePop t d hk hl, ?_⟩
    rw [readFx_queue_owner hk (by simpa using ho) hpop', peek_queue d hk hhead]
    have hw : (wqAt k).level.lo + (wqAt k).level.w ≤ 32 := level_fits hk
    refine ⟨?_, by simp [queueAddr], (State.queueOf_fld ..).trans ?_⟩
    · rw [State.queueOf_wq]
      exact State.wq_setWq_same (s.advance t) k q
    · exact State.fld_setFld_same ((s.advance t).setWq k q) (wqAt k).page (wqAt k).level q.level hw
  case popOther =>
    intro s t d k hk hl ho
    refine ⟨_, exec_wordQueuePop t d hk hl, ?_⟩
    rw [readFx_queue_other hk (by simpa using ho)]
    have hk' := ((OnlyRegs.refl (s.advance t) []).emit (.read d (queueAddr k) ((s.advance t).peek d (queueAddr k)))).effect
    exact ⟨hk'.queues k, hk'.regs, hk'.tables, hk'.bytes⟩

end Sys2Proof.Machine
end

section
/-!
The material of keys and the reads of the register port. An SPI read first carries out the words that the domain has written and
that still wait in its target's buffer (R422). Such a word can act on the key store: here it is SOFT_RESET of the store, which
zeroises the material of every slot but the fixed ones (R396). Two states that differ in the material of such a slot then end in
states that do not differ there.
-/

namespace Sys2Proof.Machine

/-- READY, D4 owns KEY page 0 and slot 9 holds a key; D4 has written SOFT_RESET into xxx_CTRL of the page, and the word waits in
its SPI target's buffer. -/
def bufferedKeyReset : State :=
  (({ State.reset with boot := .ready }.wr (pKEY 0) Reg.OWNER 4).setEnt (pKEY 0) 0 0 9 1).setDom 4
    { spi := [(pKEY 0 * 4096 + Reg.CTRL, 2)] }

/-- The same state with material in slot 9. -/
def bufferedKeyResetWith (m : SMap Nat) : State := { bufferedKeyReset with keys := { bufferedKeyReset.keys with mat := m } }

/-- The key material that an outcome leaves. -/
def matOf : Res → Option (SMap Nat)
  | .next u => some u.keys.mat
  | _ => none

/-- D4's SPI read of one word at address 0 carries the buffered reset out: no material is left. -/
theorem spiRead_zeroises : matOf (exec (.spiRead 0 4 0 1 false false false false) (bufferedKeyResetWith [(9, 5)])) = some [] := by
  decide +kernel

/-- Refutes O51: before an SPI read the words that wait in the target's buffer are written, and a buffered soft reset of the key
store leaves none of the material in which the two states differed. -/
theorem not_readsTellNoKeyMaterial : ¬ Obligations.ReadsTellNoKeyMaterial := by
  intro h
  obtain ⟨u, hu⟩ := exec_eq_next (.spiRead 0 4 0 1 false false false false) bufferedKeyReset
  have hread := h bufferedKeyReset (bufferedKeyReset.queueOf u) [(9, 5)] _ (by decide)
    (.inr (.inr (.inl ⟨0, 4, 0, 1, false, false, false, false, rfl⟩))) hu
  have hkept : matOf (exec (.spiRead 0 4 0 1 false false false false) (bufferedKeyResetWith [(9, 5)])) = some [(9, 5)] :=
    congrArg matOf hread
  rw [spiRead_zeroises] at hkept
  exact absurd hkept (by decide)

end Sys2Proof.Machine
end

section
/-!
The time base: the tick of an idle step, the FRC's handover and reading, and the view commands (R47 to R64). What a journal
entry writes is said once, as a relation; each command's effect on a view and on its state register follows from the updates it
is made of.
-/

namespace Sys2Proof.Machine

/-! ### The idle step -/

/-- Settles O5: the three rates of `frcTick` (R47, R49, R50). -/
theorem idleStepTicksTheFrc : Obligations.IdleStepTicksTheFrc := by
  intro s hq
  refine ⟨idle s, by simp [step, hq], rfl, fun hb hp => ?clause, fun hb hp => ?comma, fun hp => ?period⟩
  case clause => simp [idle, frcTick, hb, hp]
  case comma => simp [idle, frcTick, hb, hp]
  case period => simp [idle, frcTick, hp]

section
variable (s : State)

/-! ### A stamp64 in a pair of registers -/

theorem State.rd_wr_ne {p q off o : Nat} (h : q * 4096 + o ≠ p * 4096 + off) (v : Nat) : (s.wr p off v).rd q o = s.rd q o := by
  simp only [State.rd, State.reg_wr_ne _ _ _ _ _ h]

/-- A stamp64 reads what was stored in its pair, cut to 64 bits. -/
theorem State.rd64_wr64_same (p lo x : Nat) : (s.wr64 p lo x).rd64 p lo = x % 2 ^ 64 := by
  unfold State.rd64 State.wr64
  rw [State.rd_wr_same, State.rd_wr_ne _ (by omega), State.rd_wr_same]
  omega

theorem State.rd64_wr_ne {p lo off : Nat} (h0 : lo ≠ off) (h4 : lo + 4 ≠ off) (v : Nat) :
    (s.wr p off v).rd64 p lo = s.rd64 p lo := by
  unfold State.rd64
  rw [State.rd_wr_ne _ (by omega), State.rd_wr_ne _ (by omega)]

namespace OnlyRegs
variable {s u : State} {as bs : List Nat}

theorem mono (h : OnlyRegs s u as) (hs : as ⊆ bs) : OnlyRegs s u bs :=
  ⟨fun a ha => h.regs a fun hm => ha (hs hm), h.tabs, h.cnt, h.mram, h.dram, h.wqs⟩

theorem rd (h : OnlyRegs s u as) {p off : Nat} (ha : p * 4096 + off ∉ as) : u.rd p off = s.rd p off := by
  simp only [State.rd, h.regs _ ha]

theorem rd64 (h : OnlyRegs s u as) {p lo : Nat} (hl : p * 4096 + lo ∉ as) (hh : p * 4096 + (lo + 4) ∉ as) :
    u.rd64 p lo = s.rd64 p lo := by
  simp only [State.rd64, h.rd hl, h.rd hh]

end OnlyRegs

/-! ### What a view holds -/

@[simp] theorem State.setView_tabs (v : Nat) (x : View) : (s.setView v x).tabs = s.tabs := rfl
@[simp] theorem State.setView_egress (v : Nat) (x : View) : (s.setView v x).egress = s.egress := rfl
@[simp] theorem State.setView_frc (v : Nat) (x : View) : (s.setView v x).frc = s.frc := rfl
@[simp] theorem State.setView_flag (v p : Nat) (x : View) (f : Fld) : (s.setView v x).flag p f = s.flag p f := rfl

@[simp] theorem State.view_setView_same (v : Nat) (x : View) : (s.setView v x).view v = x := by
  simp [State.view, State.setView, State.setTime]

/-- What a view holds does not depend on the rest of the state. -/
theorem State.view_congr {s u : State} (h : u.time.views = s.time.views) (v : Nat) : u.view v = s.view v := by
  simp only [State.view, h]

@[simp] theorem State.view_wr (p off x v : Nat) : (s.wr p off x).view v = s.view v := rfl
@[simp] theorem State.view_setFlag (p v : Nat) (f : Fld) (b : Bool) : (s.setFlag p f b).view v = s.view v := rfl
@[simp] theorem State.view_store (a w v : Nat) : (s.store a w).view v = s.view v := State.view_congr (by simp) v
@[simp] theorem State.view_raise (p b v : Nat) : (s.raise p b).view v = s.view v := State.view_congr (by simp) v
@[simp] theorem State.view_advance (t v : Nat) : (s.advance t).view v = s.view v := State.view_congr (by simp) v
@[simp] theorem State.view_queueOf (u : State) (v : Nat) : (s.queueOf u).view v = u.view v := rfl

@[simp] theorem State.viewOn_advance (t v : Nat) : (s.advance t).viewOn v = s.viewOn v := by simp [State.viewOn]
@[simp] theorem State.viewRate_advance (t v : Nat) : (s.advance t).viewRate v = s.viewRate v := by simp [State.viewRate]
@[simp] theorem State.viewDelta_advance (t v : Nat) : (s.advance t).viewDelta v = s.viewDelta v := by
  simp [State.viewDelta, State.rd64]
@[simp] theorem State.viewReq_advance (t v : Nat) : (s.advance t).viewReq v = s.viewReq v := by simp [State.viewReq]

/-- A view above 0 is on while its ENABLED flag is set (R57). -/
theorem State.viewOn_eq_flag {v : Nat} (h : v ≠ 0) : s.viewOn v = s.flag pTIME (vFld Fd.TIME_VIEW_STATE_ENABLED v) := by
  simp [State.viewOn, h]

/-- Fields that do not overlap in view block 0 do not overlap in block `v`. -/
theorem apart_vFld {f g : Fld} (v : Nat) (h : Fld.apart f g = true) : Fld.apart (vFld f v) (vFld g v) = true := by
  simp only [Fld.apart, Bool.or_eq_true, decide_eq_true_eq] at h ⊢
  simp only [vFld, Fld.at]
  omega

/-- Setting a flag of a view block leaves the fields of the block that it does not overlap. -/
theorem State.flag_setFlag_view (v : Nat) {f g : Fld} (b : Bool) (hf : f.lo + f.w ≤ 32) (h : Fld.apart g f = true) :
    (s.setFlag pTIME (vFld f v) b).flag pTIME (vFld g v) = s.flag pTIME (vFld g v) :=
  State.flag_setFlag_apart s pTIME _ _ b hf (apart_vFld v h)

theorem State.flag_setFlag_view_same (v : Nat) {f : Fld} (b : Bool) (hf : f.lo + f.w ≤ 32) (hw : f.w = 1) :
    (s.setFlag pTIME (vFld f v) b).flag pTIME (vFld f v) = b := State.flag_setFlag_same s pTIME (vFld f v) b hf hw

/-- Writing one register of a view block leaves the flags of the others. -/
theorem State.flag_wr_view (v x : Nat) {r : Nat} {f : Fld} (h : f.off ≠ r) :
    (s.wr pTIME (r + 0x40 * v) x).flag pTIME (vFld f v) = s.flag pTIME (vFld f v) := by
  have hfld : (s.wr pTIME (r + 0x40 * v) x).fld pTIME (vFld f v) = s.fld pTIME (vFld f v) :=
    State.fld_wr_ne s _ _ _ _ _ (by simp only [vFld, Fld.at]; omega)
  simp only [State.flag, hfld]

/-! ### A journal entry -/

/-- The registers that a journal entry can change. -/
def jnlRegs : List Nat := (pTIME * 4096 + Reg.TIME_JNL_STATUS) :: (pTIME * 4096 + Reg.TIME_JNL_COPY) :: errRegs pTIME

/-- From `s` to `u` nothing of the views, their blocks or the gate lists changes, and no coarse interval starts or ends: what
writing the journal and reporting on the TIME page leave. -/
structure JournalOnly (s u : State) : Prop where
  regs : RegsKept s u jnlRegs
  views : u.time.views = s.time.views
  coarse : u.coarse = s.coarse
  egress : u.egress = s.egress
  lists : ∀ bank p, u.ent pEGR 3 bank p = s.ent pEGR 3 bank p

namespace JournalOnly
variable {s u : State}

theorem refl (s : State) : JournalOnly s s := ⟨fun _ _ => rfl, rfl, rfl, rfl, fun _ _ => rfl⟩

theorem trans {m : State} (h : JournalOnly s m) (h' : JournalOnly m u) : JournalOnly s u :=
  ⟨fun a ha => (h'.regs a ha).trans (h.regs a ha), h'.views.trans h.views, h'.coarse.trans h.coarse, h'.egress.trans h.egress,
    fun bank p => (h'.lists bank p).trans (h.lists bank p)⟩

theorem setFld (h : JournalOnly s u) {f : Fld} (x : Nat) (hf : pTIME * 4096 + f.off ∈ jnlRegs := by decide) :
    JournalOnly s (u.setFld pTIME f x) :=
  h.trans ⟨fun _ ha => State.reg_setFld_ne u _ _ _ _ (ne_of_mem_of_not_mem hf ha).symm, rfl, rfl, rfl, fun _ _ => rfl⟩

theorem inc (h : JournalOnly s u) (off : Nat) : JournalOnly s (u.inc pTIME off) :=
  h.trans ⟨fun _ _ => rfl, rfl, rfl, rfl, fun _ _ => rfl⟩

theorem setWait (h : JournalOnly s u) (n : Nat) : JournalOnly s (u.setTime { u.time with wait := n }) :=
  h.trans ⟨fun _ _ => rfl, rfl, rfl, rfl, fun _ _ => rfl⟩

theorem err (h : JournalOnly s u) (code a0 : Nat) : JournalOnly s (u.err pTIME code a0) :=
  h.trans ⟨fun _ ha => State.err_reg u _ _ _ _ fun hm => ha (List.mem_cons_of_mem _ (List.mem_cons_of_mem _ hm)), by simp,
    by simp, by simp, fun _ _ => State.ent_congr (by simp) ..⟩

theorem raise (h : JournalOnly s u) (b : Nat) : JournalOnly s (u.raise pTIME b) :=
  h.trans ⟨fun _ ha => State.raise_reg u _ _ _ (ne_of_mem_of_not_mem (by decide) ha).symm, by simp, by simp, by simp,
    fun _ _ => State.ent_congr (by simp) ..⟩

/-- The journal's table and the gate lists lie apart. -/
theorem setEnt (h : JournalOnly s u) {i : Nat} (hi : i < 2 ^ 24) (e : Entry) : JournalOnly s (u.setEnt pTIME 0 0 i e) :=
  h.trans ⟨fun _ _ => rfl, rfl, rfl, rfl, fun _ _ =>
    State.ent_setEnt_ne u _ _ _ _ _ _ _ _ _ (by unfold tkey pEGR pTIME; omega)⟩

theorem ite {c : Prop} [Decidable c] {w : State} (h : JournalOnly s u) (h' : JournalOnly s w) :
    JournalOnly s (if c then u else w) := by
  split
  · exact h
  · exact h'

end JournalOnly

theorem State.fld_lt (p : Nat) (f : Fld) : s.fld p f < 2 ^ f.w := Nat.mod_lt _ (Nat.two_pow_pos _)

/-- What a journal entry writes, whether it is copied, lost or neither (R66 to R68). -/
theorem jnlAt_only (ev view typ flags : Nat) (value rate : Int) : JournalOnly s (s.jnlAt ev view typ flags value rate) := by
  unfold State.jnlAt
  extract_lets head seq entered counted head' moved wrapped waiting
  have hhead : head < 2 ^ 10 := s.fld_lt pTIME Fd.TIME_JNL_STATUS_HEAD
  have hmoved : JournalOnly s moved :=
    ((((JournalOnly.refl s).setEnt (by omega) _).inc _).setFld (f := Fd.TIME_JNL_STATUS_SEQ) _).setFld _
  have hwrapped : JournalOnly s wrapped := .ite (hmoved.setFld _) hmoved
  exact .ite ((hwrapped.setWait 0).setFld _)
    (.ite (((hwrapped.setFld _).inc _).err ..) (.ite ((hwrapped.setWait _).raise _) (hwrapped.setWait _)))

theorem jnl_only (view typ flags : Nat) (value rate : Int) : JournalOnly s (s.jnl view typ flags value rate) :=
  jnlAt_only s ..

/-- A journal entry leaves the flags of every view block. -/
theorem JournalOnly.flag {s u : State} (h : JournalOnly s u) (v : Nat) {f : Fld} (hf : 0x100 ≤ f.off) :
    u.flag pTIME (vFld f v) = s.flag pTIME (vFld f v) := by
  have hm : pTIME * 4096 + (vFld f v).off ∉ jnlRegs := by
    simp only [jnlRegs, errRegs, vFld, Fld.at, Reg.TIME_JNL_STATUS, Reg.TIME_JNL_COPY, Reg.ERR_CODE, Reg.ERR_STAMP_LO,
      Reg.ERR_STAMP_HI, Reg.IRQ_STAT, List.mem_cons, List.not_mem_nil, or_false]
    omega
  have hfld : u.fld pTIME (vFld f v) = s.fld pTIME (vFld f v) := by simp only [State.fld, h.regs _ hm]
  simp only [State.flag, hfld]

theorem JournalOnly.view {s u : State} (h : JournalOnly s u) (v : Nat) : u.view v = s.view v := State.view_congr h.views v

/-! ### The lists bound to a view -/

/-- The gate lists and their state are the same. -/
def SameLists (s u : State) : Prop := u.egress = s.egress ∧ ∀ bank p, u.ent pEGR 3 bank p = s.ent pEGR 3 bank p

theorem SameLists.of_eq {s u : State} (he : u.egress = s.egress) (ht : u.tabs = s.tabs) : SameLists s u :=
  ⟨he, fun _ _ => State.ent_congr ht ..⟩

theorem SameLists.trans {s m u : State} (h : SameLists s m) (h' : SameLists m u) : SameLists s u :=
  ⟨h'.1.trans h.1, fun bank p => (h'.2 bank p).trans (h.2 bank p)⟩

theorem JournalOnly.sameLists {s u : State} (h : JournalOnly s u) : SameLists s u := ⟨h.egress, h.lists⟩

/-- Whether a view is bound depends on the gate lists and their state alone. -/
theorem SameLists.gclBound {s u : State} (h : SameLists s u) (p v : Nat) : u.gclBound p v = s.gclBound p v := by
  have hglp : ∀ bank f, u.glpF p bank f = s.glpF p bank f := fun bank f => congrArg (fget · f) (h.2 bank p)
  have hst : u.gclSt p = s.gclSt p := hglp 0 _
  have hegr : u.egr p = s.egr p := by simp only [State.egr, h.1]
  have hruns : u.gclRuns p = s.gclRuns p := by simp only [State.gclRuns, hst, hegr]
  simp only [State.gclBound, hruns, hst, hglp]

/-- A step of a view that no list hangs on moves no list (R307). -/
theorem gclRephase_unbound {s : State} {v : Nat} (h : ∀ p, p < 32 → s.gclBound p v = false) : s.gclRephase v = s :=
  foldN_induction (P := (· = s)) rfl fun p x hp hx => by simp [hx, h p hp]

/-- The end of a view that no list hangs on stops no list (R307). -/
theorem gclViewGone_unbound {s : State} {v : Nat} (h : ∀ p, p < 32 → s.gclBound p v = false) : s.gclViewGone v = s :=
  foldN_induction (P := (· = s)) rfl fun p x hp hx => by simp [hx, h p hp]

/-! ### The updates of a view -/

section newPiece
variable (v tb : Nat) (rate : Int) (st : Bool)

/-- A new piece goes in front of the chain (R55). -/
theorem view_newPiece :
    (s.newPiece v tb rate st).view v = { s.view v with pieces := ⟨s.frc, tb, rate, st⟩ :: (s.view v).pieces } := by
  simp [State.newPiece]

@[simp] theorem newPiece_tabs : (s.newPiece v tb rate st).tabs = s.tabs := rfl
@[simp] theorem newPiece_egress : (s.newPiece v tb rate st).egress = s.egress := rfl

/-- A new piece writes no register of the view's block but TIME_VIEW_APPLIED and its high word. -/
theorem flag_newPiece {f : Fld} (hf : f.off ≠ Reg.TIME_VIEW_APPLIED) (hf' : f.off ≠ Reg.TIME_VIEW_APPLIED_HI) :
    (s.newPiece v tb rate st).flag pTIME (vFld f v) = s.flag pTIME (vFld f v) := by
  unfold State.newPiece
  rw [State.flag_wr_view _ _ _ hf', State.flag_wr_view _ _ _ hf, State.setView_flag]

end newPiece

section setHoldover
variable (v : Nat) (b : Bool)

/-- A change of HOLDOVER goes into the view's history and leaves the rest of the view. -/
theorem view_setHoldover : ∃ hs, (s.setHoldover v b).view v = { s.view v with holds := hs } := by
  unfold State.setHoldover
  extract_lets old flagged x held
  have hheld : ∃ hs, held.view v = { s.view v with holds := hs } := by
    by_cases h : old = b
    · exact ⟨(s.view v).holds, by simp [held, h, flagged]⟩
    · exact ⟨(flagged.now, b) :: (s.view v).holds, by simp [held, h, flagged, x]⟩
  split
  · exact hheld
  · exact hheld

@[simp] theorem setHoldover_tabs : (s.setHoldover v b).tabs = s.tabs := by
  unfold State.setHoldover; dsimp only; (repeat' split) <;> rfl

@[simp] theorem setHoldover_egress : (s.setHoldover v b).egress = s.egress := by
  unfold State.setHoldover; dsimp only; (repeat' split) <;> rfl

/-- In a view block a change of HOLDOVER sets that flag and no more: GPTP_INST_STATE lies on another page. -/
theorem flag_setHoldover {f : Fld} (hf : f.off < 0x140) :
    (s.setHoldover v b).flag pTIME (vFld f v) =
      (s.setFlag pTIME (vFld Fd.TIME_VIEW_STATE_HOLDOVER v) b).flag pTIME (vFld f v) := by
  unfold State.setHoldover
  extract_lets old flagged x held
  have hheld : held.flag pTIME (vFld f v) = flagged.flag pTIME (vFld f v) := by
    unfold held
    split <;> rfl
  split
  · have hpage : pTIME * 4096 + (vFld f v).off ≠ pGPTP * 4096 + (vFld Fd.GPTP_INST_STATE_HOLDOVER (v - 1)).off := by
      simp only [vFld, Fld.at, pTIME, pGPTP]
      omega
    exact Eq.trans (congrArg (decide <| · = 1) (State.fld_setFld_ne held _ _ _ _ _ hpage)) hheld
  · exact hheld

theorem holdover_setHoldover :
    (s.setHoldover v b).flag pTIME (vFld Fd.TIME_VIEW_STATE_HOLDOVER v) = b :=
  (flag_setHoldover s v b (by decide)).trans (State.flag_setFlag_view_same s v b (by decide) rfl)

theorem flag_setHoldover_apart {f : Fld} (hf : f.off < 0x140)
    (ha : Fld.apart f Fd.TIME_VIEW_STATE_HOLDOVER = true) :
    (s.setHoldover v b).flag pTIME (vFld f v) = s.flag pTIME (vFld f v) :=
  (flag_setHoldover s v b hf).trans (State.flag_setFlag_view s v b (by decide) ha)

end setHoldover

/-! ### The view commands, carried out -/

/-- View `v` armed, holding `x`, with its journal entry of type `typ` (R58, R61). -/
def State.viewArmed (v typ : Nat) (x : View) : State :=
  (((s.setView v x).setFlag pTIME (vFld Fd.TIME_VIEW_STATE_ARMED v) true).setFlag pTIME
    (vFld Fd.TIME_VIEW_STATE_STEPPED v) false).jnl v typ 0 0 0

theorem viewArm_eq (v : Nat) : s.viewArm v = s.viewArmed v 0x03 { s.view v with everArmed := true, keyed := false } := rfl

section viewArmed
variable (v typ : Nat) (x : View)

theorem viewArmed_only : JournalOnly (((s.setView v x).setFlag pTIME (vFld Fd.TIME_VIEW_STATE_ARMED v) true).setFlag pTIME
    (vFld Fd.TIME_VIEW_STATE_STEPPED v) false) (s.viewArmed v typ x) := jnl_only ..

theorem armed_viewArmed : (s.viewArmed v typ x).flag pTIME (vFld Fd.TIME_VIEW_STATE_ARMED v) = true := by
  simp (disch := decide) only [(viewArmed_only s v typ x).flag, State.flag_setFlag_view, State.flag_setFlag_view_same]

theorem stepped_viewArmed : (s.viewArmed v typ x).flag pTIME (vFld Fd.TIME_VIEW_STATE_STEPPED v) = false := by
  simp (disch := decide) only [(viewArmed_only s v typ x).flag, State.flag_setFlag_view_same]

theorem view_viewArmed : (s.viewArmed v typ x).view v = x := by
  simp only [(viewArmed_only s v typ x).view, State.view_setFlag, State.view_setView_same]

end viewArmed

/-- An accepted STEP: the new piece, the flags, and no gate list touched (R58, R62, Table 2). -/
theorem viewStepDo_spec (v flags : Nat) (delta : Int) :
    ((s.viewStepDo v flags delta).view v).pieces =
        ⟨s.frc, (s.viewBase v + delta).toNat, s.viewRate v, true⟩ :: (s.view v).pieces ∧
      (s.viewStepDo v flags delta).flag pTIME (vFld Fd.TIME_VIEW_STATE_ARMED v) = false ∧
      (s.viewStepDo v flags delta).flag pTIME (vFld Fd.TIME_VIEW_STATE_STEPPED v) = true ∧
      (s.viewStepDo v flags delta).flag pTIME (vFld Fd.TIME_VIEW_STATE_HOLDOVER v) = false ∧
      SameLists s (s.viewStepDo v flags delta) := by
  unfold State.viewStepDo
  extract_lets tb rate key pieced stepped free x cleared
  have hj := jnl_only cleared v 0x04 (flags + key) tb rate
  obtain ⟨hs, hfree⟩ := view_setHoldover stepped v false
  refine ⟨?pieces, ?armed, ?stepped, ?holdover, ?lists⟩
  case pieces =>
    rw [hj.view]
    simp only [cleared, State.view_setView_same, x, free, hfree, stepped, State.view_setFlag, pieced, view_newPiece, tb, rate]
  case armed =>
    simp (disch := decide) only [hj.flag, cleared, State.setView_flag, free, flag_setHoldover_apart, stepped,
      State.flag_setFlag_view, State.flag_setFlag_view_same]
  case stepped =>
    simp (disch := decide) only [hj.flag, cleared, State.setView_flag, free, flag_setHoldover_apart, stepped,
      State.flag_setFlag_view_same]
  case holdover => simp (disch := decide) only [hj.flag, cleared, State.setView_flag, free, holdover_setHoldover]
  case lists =>
    have hcleared : SameLists s cleared :=
      .of_eq (by simp [cleared, free, stepped, pieced]) (by simp [cleared, free, stepped, pieced])
    exact hcleared.trans hj.sameLists

/-- The rate that an UPDATE gives view `v`: the requested one, moved from the present one by at most SLEW (R56). -/
def State.slewedRate (v : Nat) (req : Int) : Int :=
  min (max req (s.viewRate v - (s.fld pTIME (vFld Fd.TIME_VIEW_CFG_SLEW v) * 65536 : Int)))
    (s.viewRate v + (s.fld pTIME (vFld Fd.TIME_VIEW_CFG_SLEW v) * 65536 : Int))

/-- An accepted UPDATE goes on from the view's value (R58, Table 2). -/
theorem viewUpdateDo_pieces (v flags : Nat) (req : Int) :
    ((s.viewUpdateDo v flags req).view v).pieces = ⟨s.frc, s.viewBase v, s.slewedRate v req, false⟩ :: (s.view v).pieces := by
  unfold State.viewUpdateDo
  extract_lets tb cur lim rate pieced
  obtain ⟨hs, hpieced⟩ := view_setHoldover (s.newPiece v tb rate false) v false
  have hview : (pieced.view v).pieces = ⟨s.frc, tb, rate, false⟩ :: (s.view v).pieces := by
    simp only [pieced, hpieced, view_newPiece]
  split
  · rw [(jnl_only ..).view, hview]; rfl
  · rw [State.view_raise, (jnl_only ..).view, hview]; rfl

/-- ENABLED of a view reads bit 0 of the word stored in its state register. -/
theorem enabled_wr_viewState (v w : Nat) (hw : w < 2) :
    (s.wr pTIME (Reg.TIME_VIEW_STATE + 0x40 * v) w).flag pTIME (vFld Fd.TIME_VIEW_STATE_ENABLED v) = decide (w = 1) := by
  have hword : (s.wr pTIME (Reg.TIME_VIEW_STATE + 0x40 * v) w).reg (pTIME * 4096 + (Reg.TIME_VIEW_STATE + 0x40 * v)) =
    BitVec.ofNat 32 w := State.reg_setReg_same ..
  have hfld : (s.wr pTIME (Reg.TIME_VIEW_STATE + 0x40 * v) w).fld pTIME (vFld Fd.TIME_VIEW_STATE_ENABLED v) = w := by
    unfold State.fld
    rw [show (vFld Fd.TIME_VIEW_STATE_ENABLED v).off = Reg.TIME_VIEW_STATE + 0x40 * v from rfl, hword]
    simp only [fget, bitsOf, vFld, Fld.at, BitVec.toNat_ofNat]
    omega
  simp only [State.flag, hfld]

/-- A view that starts is on and equals V0 (R57). -/
theorem viewStart_spec {v : Nat} (hv : v ≠ 0) :
    (s.viewStart v).viewOn v = true ∧ (s.viewStart v).view v = { pieces := [⟨s.frc, s.frc, 0, false⟩] } := by
  unfold State.viewStart
  extract_lets fresh on
  have hj := jnl_only (on.newPiece v on.frc 0 false) v 0x01 0 on.frc 0
  refine ⟨?on, ?held⟩
  case on =>
    rw [State.viewOn_eq_flag _ hv]
    simp (disch := decide) only [hj.flag, flag_newPiece, on, State.flag_setFlag_view, enabled_wr_viewState, decide_true]
  case held =>
    rw [hj.view, view_newPiece]
    simp [on, fresh]

/-- A view that ends is off and holds nothing (R57). -/
theorem viewStop_spec {v : Nat} (hv : v ≠ 0) : (s.viewStop v).viewOn v = false ∧ (s.viewStop v).view v = {} := by
  unfold State.viewStop
  extract_lets held gone off
  have hj := jnl_only (held.setView v {}) v 0x02 0 0 0
  refine ⟨?off, ?gone⟩
  case off =>
    rw [State.viewOn_eq_flag _ hv]
    simp (disch := decide) only [State.flag_wr_view, off, State.flag_setFlag_view, enabled_wr_viewState]
    rfl
  case gone => simp only [State.view_wr, off, State.view_setFlag, gone, hj.view, State.view_setView_same]

/-! ### The view commands, judged -/

section
variable {s} {d v w : Nat}

theorem viewCmdWrite_of_takes (t : Nat) (h : s.takes d (viewAddr Reg.TIME_VIEW_CMD v) w) :
    (s.advance t).viewCmdWrite d v w = (s.advance t).viewCmd d v w := by
  have hj : (s.advance t).judge d (viewAddr Reg.TIME_VIEW_CMD v) 32 w = none := (State.judge_advance ..).trans h.2
  simp only [State.viewCmdWrite, hj]

/-- A write of TIME_VIEW_CMD that the port takes completes as the view command does. -/
theorem completes_viewCmd {c : Instr} {t : Nat} {Q : State → Prop} (hv : v < 8) (h : s.takes d (viewAddr Reg.TIME_VIEW_CMD v) w)
    (he : exec c s = live t s fun s => if v < 8 then s.viewCmdWrite d v w else s)
    (hq : Q (s.queueOf ((s.advance t).viewCmd d v w))) : Completes c s Q := by
  refine completes_live he h.1 ?_
  rwa [if_pos hv, viewCmdWrite_of_takes t h]

/-- A write of TIME_VIEW_CFG that the port takes completes as its action does. -/
theorem completes_viewCfg {c : Instr} {t : Nat} {Q : State → Prop} (hv : v < 8) (h : s.takes d (viewAddr Reg.TIME_VIEW_CFG v) w)
    (he : exec c s = live t s fun s =>
      if v < 8 then s.judged d (viewAddr Reg.TIME_VIEW_CFG v) 32 w fun s => s.viewCfgWrite d v w else s)
    (hq : Q (s.queueOf ((s.advance t).viewCfgWrite d v w))) : Completes c s Q := by
  refine completes_live he h.1 ?_
  rwa [if_pos hv, State.judged_ok _ ((State.judge_advance ..).trans h.2)]

/-- ARM of a view never armed since its enabling (R59). -/
theorem viewCmd_arm (hv : v ≠ 0) (hon : s.viewOn v = true) (ha : s.flag pTIME (vFld Fd.TIME_VIEW_STATE_ARMED v) = false)
    (he : (s.view v).everArmed = false) : s.viewCmd d v 1 = s.viewArm v := by
  simp [State.viewCmd, hv, hon, ha, he]

/-- STEP of a free view whose result stays in range (Table 2). -/
theorem viewCmd_step (hv : v ≠ 0) (hon : s.viewOn v = true)
    (hsrc : s.flag pTIME (vFld Fd.TIME_VIEW_CFG_SOURCE v) = false) (hok : s.viewStepOk v (s.viewDelta v) = true) :
    s.viewCmd d v 2 = (s.viewStepDo v 0 (s.viewDelta v)).gclRephase v := by
  simp [State.viewCmd, State.viewStep, hv, hon, hsrc, hok]

/-- A correction within the rate limit and the jump threshold is accepted (R56, R60). -/
theorem viewUpdate_accepted {delta req : Int} (src flags : Nat) (hrate : rateOk req = true)
    (hjump : delta.natAbs ≤ s.rd pTIME (Reg.TIME_VIEW_JUMP_THR + 0x40 * v) * 65536 ∨
      s.rd pTIME (Reg.TIME_VIEW_JUMP_THR + 0x40 * v) = 0) :
    s.viewUpdate src w v flags delta req = (s.viewUpdateDo v flags req, true) := by
  unfold State.viewUpdate
  extract_lets thr
  have hthr : ¬ ((thr ≠ 0 && decide (thr * 65536 < (delta.natAbs : Int))) = true) := by
    rw [Bool.and_eq_true, decide_eq_true_eq, decide_eq_true_eq]
    omega
  rw [if_neg (by simp [hrate]), if_neg hthr]

/-- UPDATE of a free view, accepted (Table 2). -/
theorem viewCmd_update (hv : v ≠ 0) (hon : s.viewOn v = true)
    (hsrc : s.flag pTIME (vFld Fd.TIME_VIEW_CFG_SOURCE v) = false) (hrate : rateOk (s.viewReq v) = true)
    (hjump : (s.viewDelta v).natAbs ≤ s.rd pTIME (Reg.TIME_VIEW_JUMP_THR + 0x40 * v) * 65536 ∨
      s.rd pTIME (Reg.TIME_VIEW_JUMP_THR + 0x40 * v) = 0) :
    s.viewCmd d v 3 = s.viewUpdateDo v 0 (s.viewReq v) := by
  simp [State.viewCmd, hv, hon, hsrc, viewUpdate_accepted d 0 hrate hjump]

/-- REARM with the key, by a domain that may, of a view that is not armed (R61). -/
theorem viewRearm_keyed (hv : w % 8 ≠ 0) (hkey : w / 65536 = 0x7A3E) (hon : s.viewOn (w % 8) = true)
    (ha : s.flag pTIME (vFld Fd.TIME_VIEW_STATE_ARMED (w % 8)) = false)
    (hsec : s.flag pTIME Fd.TIME_CFG_REARM_SECURE = true → s.secure d = true) :
    s.viewRearm d w = s.viewArmed (w % 8) 0x09 { s.view (w % 8) with everArmed := true, keyed := true } := by
  have hworld : (s.flag pTIME Fd.TIME_CFG_REARM_SECURE && !(s.secure d)) = false := by
    cases hr : s.flag pTIME Fd.TIME_CFG_REARM_SECURE
    · rfl
    · simp [hsec hr]
  simp [State.viewRearm, State.viewArmed, hkey, hv, hon, ha, hworld]

/-- A free view takes a slew limit that is not 0 (Table 10). -/
theorem viewCfgWrite_free (hv : v ≠ 0) (hsrc : w.testBit 1 = false) (hslew : w / 65536 % 65536 ≠ 0) :
    s.viewCfgWrite d v w =
      if w.testBit 0 && !(s.viewOn v) then (s.store (viewAddr Reg.TIME_VIEW_CFG v) w).viewStart v
      else if !(w.testBit 0) && s.viewOn v then ((s.store (viewAddr Reg.TIME_VIEW_CFG v) w).gclViewGone v).viewStop v
      else s.store (viewAddr Reg.TIME_VIEW_CFG v) w := by
  simp [State.viewCfgWrite, hv, hsrc, hslew]

/-- A write with ENABLE = 1 starts a disabled view (R57). -/
theorem viewCfgWrite_enable (hv : v ≠ 0) (hoff : s.viewOn v = false) (hw : w % 4 = 1) (hslew : w / 65536 % 65536 ≠ 0) :
    s.viewCfgWrite d v w = (s.store (viewAddr Reg.TIME_VIEW_CFG v) w).viewStart v := by
  have h0 : w.testBit 0 = true := by rw [Nat.testBit_zero]; simp; omega
  have h1 : w.testBit 1 = false := by rw [Nat.testBit_eq_decide_div_mod_eq]; simp; omega
  simp [viewCfgWrite_free hv h1 hslew, h0, hoff]

/-- A write with ENABLE = 0 ends an enabled view; no list that hangs on it stops, for there is none (R57, R307). -/
theorem viewCfgWrite_disable (hv : v ≠ 0) (hon : s.viewOn v = true) (hw : w % 4 = 0) (hslew : w / 65536 % 65536 ≠ 0)
    (hfree : ∀ p, p < 32 → s.gclBound p v = false) :
    s.viewCfgWrite d v w = (s.store (viewAddr Reg.TIME_VIEW_CFG v) w).viewStop v := by
  have h0 : w.testBit 0 = false := by rw [Nat.testBit_zero]; simp; omega
  have h1 : w.testBit 1 = false := by rw [Nat.testBit_eq_decide_div_mod_eq]; simp; omega
  have hstore : SameLists s (s.store (viewAddr Reg.TIME_VIEW_CFG v) w) := .of_eq (by simp) (by simp)
  have hgone := gclViewGone_unbound fun p hp => (hstore.gclBound p v).trans (hfree p hp)
  simp [viewCfgWrite_free hv h1 hslew, h0, hon, hgone]

theorem gclBound_advance (t p : Nat) : (s.advance t).gclBound p v = s.gclBound p v :=
  SameLists.gclBound (.of_eq (by simp) (by simp)) p v

/-- A word of 32 bits whose bit 0 is clear keeps its value when that bit is masked. -/
theorem and_mask_even (h2 : w % 2 = 0) (hw : w < 2 ^ 32) : w &&& (2 ^ 32 - 2) = w := by
  have hhalf : (w &&& (2 ^ 32 - 2)) / 2 = w / 2 := by
    rw [Nat.and_div_two]
    exact (Nat.and_two_pow_sub_one_eq_mod (w / 2) 31).trans (Nat.mod_eq_of_lt (by omega))
  have hbit : (w &&& (2 ^ 32 - 2)) % 2 = 0 := by
    have := Nat.and_mod_two_pow (a := w) (b := 2 ^ 32 - 2) (n := 1)
    simpa [h2] using this
  omega

end

end

/-! ### From the command to the view -/

/-- Settles O16: each command is judged, accepted and carried out on the state at its stamp; what the result holds is said by the
lemmas about the update that it is. -/
theorem viewCommands : Obligations.ViewCommands := by
  refine ⟨?enable, ?disable, ?arm, ?rearm, ?step, ?update⟩
  case enable =>
    intro s t d v w hv hv8 hoff hw hslew h
    have hv0 : v ≠ 0 := by omega
    refine completes_viewCfg (t := t) hv8 h rfl ?_
    rw [viewCfgWrite_enable hv0 (by simpa using hoff) hw hslew]
    obtain ⟨hon, hview⟩ := viewStart_spec ((s.advance t).store (viewAddr Reg.TIME_VIEW_CFG v) w) hv0
    exact ⟨hon, by simp [hview], by simp [hview]⟩
  case disable =>
    intro s t d v w hv hv8 hon hw hlt hslew hfree h
    have hv0 : v ≠ 0 := by omega
    have hmask : w &&& (2 ^ 32 - 2) = w := and_mask_even (by omega) hlt
    refine completes_viewCfg (t := t) hv8 (hmask.symm ▸ h) rfl ?_
    rw [hmask, viewCfgWrite_disable hv0 (by simpa using hon) hw hslew fun p hp => (gclBound_advance ..).trans (hfree p hp)]
    obtain ⟨hoff, hview⟩ := viewStop_spec ((s.advance t).store (viewAddr Reg.TIME_VIEW_CFG v) w) hv0
    exact ⟨hoff, by simp [hview], by simp [State.viewNow, State.viewAt, hv0, hview, chainValue]⟩
  case arm =>
    intro s t d v hv hv8 hon ha he h
    refine completes_viewCmd (t := t) hv8 h rfl ?_
    rw [viewCmd_arm (by omega) (by simpa using hon) (by simpa using ha) (by simpa using he), viewArm_eq]
    simp [armed_viewArmed, stepped_viewArmed, view_viewArmed]
  case rearm =>
    intro s t d w hv hkey hon ha hsec h
    have hj : (s.advance t).judge d (pTIME * 4096 + Reg.TIME_REARM) 32 w = none := (State.judge_advance ..).trans h.2
    refine completes_of (execViewRearm t d w s) rfl ?_
    unfold execViewRearm
    refine next_live h.1 ?_
    simp only [hj]
    rw [viewRearm_keyed hv hkey (by simpa using hon) (by simpa using ha) (by simpa using hsec)]
    simp [armed_viewArmed, view_viewArmed]
  case step =>
    intro s t d v hv hv8 hon hsrc hok hfree h
    refine completes_viewCmd (t := t) hv8 h rfl ?_
    obtain ⟨hpieces, harmed, hstepped, hhold, hlists⟩ := viewStepDo_spec (s.advance t) v 0 ((s.advance t).viewDelta v)
    rw [viewCmd_step (by omega) (by simpa using hon) (by simpa using hsrc) (by simpa using hok),
      gclRephase_unbound fun p hp => (hlists.gclBound p v).trans ((gclBound_advance ..).trans (hfree p hp))]
    exact ⟨by simpa using hpieces, by simpa using harmed, by simpa using hstepped, by simpa using hhold⟩
  case update =>
    intro s t d v hv hv8 hon hsrc hrate hjump h
    refine completes_viewCmd (t := t) hv8 h rfl ?_
    rw [viewCmd_update (by omega) (by simpa using hon) (by simpa using hsrc) (by simpa using hrate) (by simpa using hjump)]
    simp [viewUpdateDo_pieces, State.slewedRate]

/-! ### The FRC: handover, realignment and reading -/

section
variable (s : State)

theorem viewsSave_saved : s.viewsSave.time.saved.isSome = true := rfl

@[simp] theorem viewsSave_coarse : s.viewsSave.coarse = s.coarse := rfl

/-- Stamping is handed over: a coarse interval runs and the retention area holds the views (R51, R65). -/
theorem handoverEntry_spec : s.handoverEntry.coarse = true ∧ s.handoverEntry.time.saved.isSome = true :=
  ⟨(viewsSave_coarse _).trans (jnlAt_only ..).coarse, viewsSave_saved _⟩

theorem onlyRegs_setTime (x : TimeSt) : OnlyRegs s (s.setTime x) [] := ⟨fun _ _ => rfl, rfl, rfl, rfl, rfl, rfl⟩

theorem now_lt : s.now < 2 ^ 64 := Nat.mod_lt _ (by decide)

theorem nowFrac_lt : s.nowFrac < 65536 := Nat.mod_lt _ (by decide)

@[simp] theorem frcLatch_out : s.frcLatch.out = s.out := rfl

@[simp] theorem frcLatch_now : s.frcLatch.now = s.now := rfl

/-- A latch of the FRC: the high word and the fraction of the cycle (R78). -/
theorem frcLatch_spec :
    s.frcLatch.rd pTIME Reg.TIME_FRC_HI = s.now / 2 ^ 32 ∧ s.frcLatch.rd pTIME Reg.TIME_FRC_FRAC = s.nowFrac ∧
      OnlyRegs s s.frcLatch [pTIME * 4096 + Reg.TIME_FRC_HI, pTIME * 4096 + Reg.TIME_FRC_FRAC] := by
  have hn := now_lt s
  have hf := nowFrac_lt s
  unfold State.frcLatch
  refine ⟨?_, ?_, ((OnlyRegs.refl ..).wr _).wr _⟩
  · rw [State.rd_wr_ne _ (by decide), State.rd_wr_same]
    omega
  · rw [State.rd_wr_same]
    omega

/-! ### The snapshot (R64) -/

/-- A value in units of 2^-16 ns goes into three registers: the stamp64 at `lo`, the fraction behind it. -/
def State.snapPut (lo x : Nat) (s : State) : State := (s.wr64 pTIME lo (x / 65536)).wr pTIME (lo + 8) (x % 65536)

/-- The registers that it goes into. -/
def snapRegs (lo : Nat) : List Nat := [pTIME * 4096 + lo, pTIME * 4096 + (lo + 4), pTIME * 4096 + (lo + 8)]

theorem rd64_snapPut_same (lo x : Nat) : (s.snapPut lo x).rd64 pTIME lo = x / 65536 % 2 ^ 64 := by
  unfold State.snapPut
  rw [State.rd64_wr_ne _ (by omega) (by omega), State.rd64_wr64_same]

theorem rd64_snapPut_ne {lo lo' : Nat} (h : lo' + 8 ≤ lo ∨ lo + 12 ≤ lo') (x : Nat) :
    (s.snapPut lo x).rd64 pTIME lo' = s.rd64 pTIME lo' := by
  unfold State.snapPut State.wr64
  rw [State.rd64_wr_ne _ (by omega) (by omega), State.rd64_wr_ne _ (by omega) (by omega),
    State.rd64_wr_ne _ (by omega) (by omega)]

theorem rd_snapPut_frac (lo x : Nat) : (s.snapPut lo x).rd pTIME (lo + 8) = x % 65536 := by
  unfold State.snapPut
  rw [State.rd_wr_same]
  omega

theorem snapPut_onlyRegs (lo x : Nat) : OnlyRegs s (s.snapPut lo x) (snapRegs lo) :=
  (((OnlyRegs.refl ..).wr _ (by simp [snapRegs])).wr _ (by simp [snapRegs])).wr _ (by simp [snapRegs])

/-- The block's register at which the snapshot of view `v` starts. -/
def viewSnapLo (v : Nat) : Nat := Reg.TIME_VIEW_SNAP_LO + 0x40 * v

/-- The first `n` views are latched. -/
def State.snapViews (n : Nat) (s : State) : State :=
  foldN n (fun v s => s.snapPut (viewSnapLo v) ((s.viewAt v s.frc).getD 0)) s

theorem timeSnap_eq : s.timeSnap = (s.snapPut Reg.TIME_SNAP_FRC_LO s.frc).snapViews 8 := rfl

/-- What a view's value depends on: its chain. -/
theorem State.viewAt_congr {s u : State} (h : u.time = s.time) (v f : Nat) : u.viewAt v f = s.viewAt v f := by
  simp only [State.viewAt, State.view, h]

theorem snapViews_time_frc (n : Nat) : (s.snapViews n).time = s.time ∧ (s.snapViews n).frc = s.frc :=
  foldN_induction (P := fun u : State => u.time = s.time ∧ u.frc = s.frc) ⟨rfl, rfl⟩ fun _ _ _ h => h

theorem snapViews_succ (n : Nat) :
    s.snapViews (n + 1) = (s.snapViews n).snapPut (viewSnapLo n) ((s.viewAt n s.frc).getD 0) := by
  obtain ⟨htime, hfrc⟩ := snapViews_time_frc s n
  rw [← State.viewAt_congr htime, ← hfrc]
  exact foldN_succ ..

/-- A view's registers hold the value that the view has in the cycle of the snapshot, 0 where it has none. -/
theorem rd64_snapViews {n v : Nat} (h : v < n) :
    (s.snapViews n).rd64 pTIME (viewSnapLo v) = ((s.viewAt v s.frc).getD 0) / 65536 % 2 ^ 64 := by
  induction n with
  | zero => omega
  | succ n ih =>
    rw [snapViews_succ]
    by_cases hv : v = n
    · rw [hv, rd64_snapPut_same]
    · rw [rd64_snapPut_ne _ (by unfold viewSnapLo; omega), ih (by omega)]

/-- The registers in which the views are latched. -/
def viewSnapRegs : List Nat := (List.range 8).flatMap fun v => snapRegs (viewSnapLo v)

theorem snapViews_onlyRegs : OnlyRegs s (s.snapViews 8) viewSnapRegs :=
  foldN_induction (P := (OnlyRegs s · viewSnapRegs)) (.refl ..) fun _ u hv h =>
    h.trans ((snapPut_onlyRegs u ..).mono fun _ ha => List.mem_flatMap.mpr ⟨_, List.mem_range.mpr hv, ha⟩)

/-- GO = 1 latches the FRC and all views of one cycle (R64). -/
theorem timeSnap_spec :
    s.timeSnap.rd64 pTIME Reg.TIME_SNAP_FRC_LO = s.frc / 65536 % 2 ^ 64 ∧
      s.timeSnap.rd pTIME (Reg.TIME_SNAP_FRC_LO + 8) = s.nowFrac ∧
      (∀ v, v < 8 → s.timeSnap.rd64 pTIME (viewSnapLo v) = ((s.viewAt v s.frc).getD 0) / 65536 % 2 ^ 64) ∧
      OnlyRegs s s.timeSnap (snapRegs Reg.TIME_SNAP_FRC_LO ++ viewSnapRegs) := by
  have hfrc := snapPut_onlyRegs s Reg.TIME_SNAP_FRC_LO s.frc
  have hviews := snapViews_onlyRegs (s.snapPut Reg.TIME_SNAP_FRC_LO s.frc)
  rw [timeSnap_eq]
  refine ⟨?_, ?_, fun v hv => rd64_snapViews _ hv,
    (hfrc.mono (List.subset_append_left ..)).trans (hviews.mono (List.subset_append_right ..))⟩
  · rw [hviews.rd64 (by decide) (by decide), rd64_snapPut_same]
  · rw [hviews.rd (by decide), rd_snapPut_frac]
    rfl

end

/-- Settles O15: the handover and the realignment by their guards, the reading and the snapshot by what they latch. -/
theorem frcHandoverAndReading : Obligations.FrcHandoverAndReading := by
  refine ⟨?entry, ?exit, ?realign, ?read, ?snap⟩
  case entry =>
    intro s t hreq hco hb
    obtain ⟨hcoarse, hsaved⟩ := handoverEntry_spec (s.advance t)
    refine completes_of (execFrcHandoverEntry t s) rfl ?_
    unfold execFrcHandoverEntry
    refine next_always ?_
    rw [if_neg (by simp [hreq, hco, hb])]
    dsimp only
    split
    · exact ⟨hcoarse, hsaved⟩
    · exact ⟨hcoarse, hsaved⟩
  case exit =>
    intro s t hco hb hcomma hperiod
    refine completes_of (execFrcHandoverExit t s) rfl ?_
    unfold execFrcHandoverExit
    refine next_always ?_
    rw [if_pos (by simp [hco, hb, hcomma, hperiod])]
    exact ⟨rfl, rfl⟩
  case realign =>
    intro s t hb hco
    refine completes_of (execFrcRealign t s) rfl ?_
    unfold execFrcRealign
    refine next_always ?_
    rw [if_pos (by simp [hb, hco])]
    exact ⟨rfl, (onlyRegs_setTime (s.advance t) _).effect.kept⟩
  case read =>
    intro s t d hl
    obtain ⟨hhi, hfrac, hk⟩ := frcLatch_spec (s.advance t)
    have hk' := (hk.emit (.read d (pTIME * 4096 + Reg.TIME_FRC_LO) ((s.advance t).now % 2 ^ 32))).effect
    refine completes_of (execFrcRead t d s) rfl ?_
    unfold execFrcRead
    refine next_live hl ?_
    refine ⟨by simp, ?_, ?_, hk'.kept⟩
    · exact (State.queueOf_rd ..).trans hhi
    · exact (State.queueOf_rd ..).trans hfrac
  case snap =>
    intro s t d w hw h
    have hgo : w.testBit 0 = true := by rw [Nat.testBit_zero]; simp [hw]
    obtain ⟨hlo, hfrac, hviews, hk⟩ := timeSnap_spec (s.advance t)
    refine completes_of (execTimeSnap t d w s) rfl ?_
    unfold execTimeSnap
    refine next_live h.1 ?_
    rw [State.judged_ok _ ((State.judge_advance ..).trans h.2), if_pos hgo]
    have hk' := hk.effect
    refine ⟨?_, ?_, fun v hv hnone => ?_, hk'.tables, hk'.counts, hk'.bytes⟩
    · exact (State.queueOf_rd64 ..).trans hlo
    · exact (State.queueOf_rd ..).trans hfrac
    · have hv' : (s.advance t).viewAt v (s.advance t).frc = none := (State.viewAt_congr (by simp) ..).trans hnone
      exact (State.queueOf_rd64 ..).trans ((hviews v hv).trans (by simp [hv']))

end Sys2Proof.Machine
end

section
/-!
The registers of a CAN controller at the register port: which of them can be written in STOP only, and what a write of them
does (R84).
-/

namespace Sys2Proof.Machine

section
variable {s : State}

/-! ### A write of a block-specific register -/

/-- A 32-bit write of a block-specific register of the logic die, outside the TIME page, that the port takes. -/
theorem busWrite_block {d p off v : Nat} (t : Nat) (hh : hasHeader p = true) (hp : p ≠ pTIME)
    (hdie : onLineDie p off = false) (hlo : 0x040 ≤ off) (hhi : off < 0x800) (h4 : off % 4 = 0) (hv : v < 2 ^ 32)
    (h : s.takes d (p * 4096 + off) v) :
    (s.advance t).busWrite d (p * 4096 + off) 32 v false false = (s.advance t).blockWrite d p off v := by
  have hpage : (p * 4096 + off) / 4096 = p := by omega
  have hoff : (p * 4096 + off) % 4096 = off := by omega
  have hal : (p * 4096 + off) % 4 = 0 := by omega
  have hre : p * 4096 + off ≠ pTIME * 4096 + Reg.TIME_REARM := fun e => hp (by unfold Reg.TIME_REARM at e; omega)
  have hacc : (s.advance t).accept d (p * 4096 + off) v false false = (s.advance t).blockWrite d p off v := by
    simp only [State.accept, hpage, hoff, inMramWindow_of_header hh, hdie, Nat.not_lt.mpr hlo, hhi, Bool.false_eq_true,
      if_false, if_true]
  unfold State.busWrite State.write32
  simp only [hal, hpage, hre, hp, Nat.mod_eq_of_lt hv, decide_true, Bool.and_self, decide_false, Bool.false_and,
    Bool.false_eq_true, if_true, if_false]
  rw [State.judged_ok _ ((State.judge_advance ..).trans h.2), hacc]

/-- A register word that is stored takes the value by its access masks; nothing else changes. -/
theorem store_spec (s : State) (a v : Nat) :
    (∀ r, regDef a = some r → (s.store a v).reg a = mergeWrite r (s.reg a) v) ∧ OnlyRegs s (s.store a v) [a] := by
  unfold State.store
  split
  · next r hr =>
    refine ⟨fun r' hr' => ?_, (OnlyRegs.refl ..).setReg _ (List.mem_singleton_self a)⟩
    rw [State.reg_setReg_same, Option.some.inj (hr.symm.trans hr')]
  · next hr => exact ⟨fun r hr' => absurd (hr.symm.trans hr') (by simp), .refl ..⟩

/-- A refusal with one of the port's own codes is an error of the page addressed, with the offset and the value. -/
theorem refuse_header {p off : Nat} (hh : hasHeader p = true) (ho : off < 4096) (d v : Nat) {code : Nat}
    (hc : code ≤ Er.REG_BUSY) : s.refuse d (p * 4096 + off) v code = s.errBy d p code off v := by
  have hpage : (p * 4096 + off) / 4096 = p := by omega
  unfold State.refuse refusePage unmapped
  simp [hpage, hh, inMramWindow_of_header hh, hc]

/-! ### The page of a controller -/

variable {n off : Nat}

theorem pageRow_pCANC (hn : n < 24) : pageRow (pCANC n) = some (⟨.canc, 0x100, 1, 24, 1, 0x0020⟩, n, 0) := by
  have all : ∀ x, x < 24 → pageRow (pCANC x) = some (⟨.canc, 0x100, 1, 24, 1, 0x0020⟩, x, 0) := by decide
  exact all n hn

theorem hasHeader_pCANC (hn : n < 24) : hasHeader (pCANC n) = true := by rw [hasHeader, pageRow_pCANC hn]; rfl

/-- No register of a controller stands on the line die. -/
theorem onLineDie_pCANC (hn : n < 24) (off : Nat) : onLineDie (pCANC n) off = false := by
  have hline : 0x100 + n ≠ pLINE := by unfold pLINE; omega
  have hpwr : 0x100 + n ≠ pPWR := by unfold pPWR; omega
  have hnm : 0x100 + n ≠ pNM := by unfold pNM; omega
  simp [onLineDie, hline, hpwr, hnm]

/-- The registers of a controller that can be written in STOP only (R84). -/
def canStopRegs : List Nat :=
  [Reg.CANC_NBTIM, Reg.CANC_DBTIM, Reg.CANC_XBTIM, Reg.CANC_TDC, Reg.CANC_XLCFG, Reg.CANC_CFG, Reg.CANC_OBJ_RANGE]

theorem canStopRegs_offset (h : off ∈ canStopRegs) :
    0x040 ≤ off ∧ off < 0x800 ∧ off % 4 = 0 ∧ off ≠ Reg.CANC_MODE ∧ off ≠ Reg.CANC_TXB_CMD := by
  revert off; decide

/-- They are not among the registers with a rule or an action of their own. -/
theorem canStopRegs_plain (h : off ∈ canStopRegs) :
    off ≠ Reg.CANC_EWL ∧ off ≠ Reg.CANC_ARD_CFG ∧ off ≠ Reg.CANC_CLASH_ID := by
  revert off; decide

/-- Those whose values no further rule checks are among them. -/
theorem canStopRegs_unchecked
    (h : off ∈ [Reg.CANC_NBTIM, Reg.CANC_DBTIM, Reg.CANC_XBTIM, Reg.CANC_TDC, Reg.CANC_CFG]) : off ∈ canStopRegs := by
  revert off; decide

theorem canStopRegs_mem (h : off ∈ canStopRegs) :
    (off = Reg.CANC_NBTIM || off = Reg.CANC_DBTIM || off = Reg.CANC_XBTIM || off = Reg.CANC_TDC || off = Reg.CANC_XLCFG ||
      off = Reg.CANC_CFG || off = Reg.CANC_OBJ_RANGE) = true := by
  simpa [canStopRegs, or_assoc] using h

/-- A write of such a register outside STOP is refused (R84). -/
theorem cancWrite_outsideStop {d w : Nat} (h : off ∈ canStopRegs) (hm : s.canMode n ≠ 0) :
    s.cancWrite d n off w = s.refuse d (pCANC n * 4096 + off) w Er.REG_BAD_VALUE := by
  unfold State.cancWrite
  dsimp only
  rw [if_pos (by simp only [canStopRegs_mem h, hm, ne_eq, not_false_eq_true, decide_true, Bool.and_self])]

/-- A write of such a register in STOP is stored, when neither the checks of CAN XL nor of the object range refuse it. -/
theorem cancWrite_inStop {d w : Nat} (h : off ∈ canStopRegs) (hm : s.canMode n = 0)
    (hxl : off = Reg.CANC_XLCFG → w.testBit 0 = false)
    (hobj : off = Reg.CANC_OBJ_RANGE →
      fget (BitVec.ofNat 32 w) Fd.CANC_OBJ_RANGE_BASE + fget (BitVec.ofNat 32 w) Fd.CANC_OBJ_RANGE_COUNT ≤ 8192) :
    s.cancWrite d n off w = s.store (pCANC n * 4096 + off) w := by
  obtain ⟨hewl, hard, hclash⟩ := canStopRegs_plain h
  have hxl' : ¬ ((off = Reg.CANC_XLCFG && w.testBit 0 && (n < 16 || w.testBit 1)) = true) := by
    simp only [Bool.and_eq_true, decide_eq_true_eq]
    rintro ⟨⟨ho, hbit⟩, -⟩
    simp [hxl ho] at hbit
  have hobj' : ¬ ((off = Reg.CANC_OBJ_RANGE && decide (8192 < fget (BitVec.ofNat 32 w) Fd.CANC_OBJ_RANGE_BASE +
      fget (BitVec.ofNat 32 w) Fd.CANC_OBJ_RANGE_COUNT)) = true) := by
    simp only [Bool.and_eq_true, decide_eq_true_eq]
    rintro ⟨ho, hlt⟩
    exact absurd (hobj ho) (Nat.not_le.mpr hlt)
  unfold State.cancWrite
  dsimp only
  rw [if_neg (by simp [hm]), if_neg hxl', if_neg hobj', if_neg (by simp [hewl]), if_neg (by simp [hard]), if_neg hewl,
    if_neg hclash]

/-- REGISTER_WRITE of such a register by a domain whose write the port takes. -/
theorem completes_cancWrite {t d v : Nat} {Q : State → Prop} (hn : n < 24) (hv : v < 2 ^ 32) (ho : off ∈ canStopRegs)
    (h : s.takes d (pCANC n * 4096 + off) v) (hq : Q (s.queueOf ((s.advance t).cancWrite d n off v))) :
    Completes (.registerWrite t d (pCANC n * 4096 + off) 32 v false false) s Q := by
  obtain ⟨hlo, hhi, h4, hmode, hcmd⟩ := canStopRegs_offset ho
  refine completes_live (t := t) (f := fun s => s.busWrite d ((pCANC n * 4096 + off) % 2 ^ 24) 32 v false false) rfl h.1 ?_
  have hblock : (s.advance t).blockWrite d (pCANC n) off v = (s.advance t).cancWrite d n off v := by
    simp [State.blockWrite, pageRow_pCANC hn, hmode, hcmd]
  have htime : pCANC n ≠ pTIME := by unfold pCANC pTIME; omega
  rwa [Nat.mod_eq_of_lt (by unfold pCANC; omega),
    busWrite_block t (hasHeader_pCANC hn) htime (onLineDie_pCANC hn off) hlo hhi h4 hv h, hblock]

end

/-- Settles O52: the first test of `cancWrite` outside STOP, its last case in STOP. -/
theorem canTimingOnlyInStop : Obligations.CanTimingOnlyInStop := by
  refine ⟨?refused, ?stored⟩
  case refused =>
    intro s t d n off v hn hv ho h hm
    refine completes_cancWrite (t := t) hn hv ho h ?_
    obtain ⟨-, hhi, -⟩ := canStopRegs_offset ho
    rw [cancWrite_outsideStop ho (by simpa [State.canMode] using hm),
      refuse_header (hasHeader_pCANC hn) (by omega) _ _ (by decide)]
    obtain ⟨hregs, htabs, hmram, hdram⟩ := errBy_kept (s.advance t) d (pCANC n) Er.REG_BAD_VALUE off v
    refine ⟨fun hv => ?_, fun a ha => ?_, .of_eq (by simp), .of_eq (by simp) (by simp), .of_eq (by simp)⟩
    · obtain ⟨hcode, hsrc⟩ := errBy_first d (pCANC n) Er.REG_BAD_VALUE off v (s := s.advance t) (by simpa using hv)
      exact ⟨(State.queueOf_fld ..).trans hcode, (State.queueOf_fld ..).trans hsrc⟩
    · rw [State.queueOf_reg, hregs a ha, State.reg_advance]
  case stored =>
    intro s t d n off v hn hv ho h hm
    have hmem : off ∈ canStopRegs := by
      obtain ho | ⟨rfl, -⟩ | ⟨rfl, -⟩ := ho
      · exact canStopRegs_unchecked ho
      · decide
      · decide
    have hxl : off = Reg.CANC_XLCFG → v.testBit 0 = false := by
      rintro rfl
      obtain ho | ⟨-, hbit⟩ | ⟨he, -⟩ := ho
      · exact absurd ho (by decide)
      · exact hbit
      · exact absurd he (by decide)
    have hobj : off = Reg.CANC_OBJ_RANGE →
        fget (BitVec.ofNat 32 v) Fd.CANC_OBJ_RANGE_BASE + fget (BitVec.ofNat 32 v) Fd.CANC_OBJ_RANGE_COUNT ≤ 8192 := by
      rintro rfl
      obtain ho | ⟨he, -⟩ | ⟨-, hrange⟩ := ho
      · exact absurd ho (by decide)
      · exact absurd he (by decide)
      · exact hrange
    refine completes_cancWrite (t := t) hn hv hmem h ?_
    rw [cancWrite_inStop hmem (by simpa [State.canMode] using hm) hxl hobj]
    obtain ⟨hreg, hk⟩ := store_spec (s.advance t) (pCANC n * 4096 + off) v
    have hk' := hk.effect
    refine ⟨fun r hr => ?_, hk'.regs, hk'.tables, hk'.counts, hk'.bytes, hk'.queues⟩
    rw [State.queueOf_reg, hreg r hr, State.reg_advance]

end Sys2Proof.Machine
end

section
/-!
The modes of a CAN controller: requests, integration, bus idle, recovery and automatic rate detection (R85 to R92, R110, R111,
Table 2 of *CAN Controllers*). What an event item leaves unchanged is said once, as a relation.
-/

namespace Sys2Proof.Machine

/-! ### From a command of the engine to its effect -/

/-- What the engine of channel `n` does while it is clocked. -/
theorem next_canRun {s : State} {t n : Nat} {f : State → State} {Q : State → Prop} (hn : n < 24) (h : s.canClocked n = true)
    (hq : Q (s.queueOf (f (s.advance t)))) : ∃ u, canRun t n s f = .next u ∧ Q u := by
  have hclock : (s.advance t).canClocked n = true := by
    simpa [State.canClocked, State.runs?, State.winds, State.can, State.canMode] using h
  refine next_always ?_
  rwa [hclock, if_pos (by simp [hn])]

/-- A command of channel `n`'s engine completes as its effect does, while the engine is clocked. -/
theorem completes_canRun {c : Instr} {s : State} {t n : Nat} {f : State → State} {Q : State → Prop}
    (he : exec c s = canRun t n s f) (hn : n < 24) (h : s.canClocked n = true) (hq : Q (s.queueOf (f (s.advance t)))) :
    Completes c s Q := completes_of _ he (next_canRun hn h hq)

/-- A command that writes a register of channel `n` completes as the write does, when the port takes it. -/
theorem completes_cancPort {c : Instr} {s : State} {t n d a v : Nat} {Q : State → Prop} (f : State → State) (hn : n < 24)
    (h : s.takes d a v) (he : exec c s = live t s fun s => if n < 24 then s.judged d a 32 v f else s)
    (hq : Q (s.queueOf (f (s.advance t)))) : Completes c s Q := by
  refine completes_live he h.1 ?_
  rwa [if_pos hn, State.judged_ok _ ((State.judge_advance ..).trans h.2)]

section
variable (s u : State) (t n : Nat)

@[simp] theorem State.can_advance : (s.advance t).can n = s.can n := by simp [State.can]
@[simp] theorem State.can_queueOf : (s.queueOf u).can n = u.can n := rfl
@[simp] theorem State.canMode_advance : (s.advance t).canMode n = s.canMode n := State.fld_advance ..
@[simp] theorem State.canMode_queueOf : (s.queueOf u).canMode n = u.canMode n := State.queueOf_fld ..
@[simp] theorem State.canWants_advance : (s.advance t).canWants n = s.canWants n := by simp [State.canWants]

@[simp] theorem State.canTimingOk_advance (nb db xb : Word) : (s.advance t).canTimingOk n nb db xb = s.canTimingOk n nb db xb := by
  simp [State.canTimingOk]

@[simp] theorem State.canReqCheck_advance : (s.advance t).canReqCheck n = s.canReqCheck n := by
  simp [State.canReqCheck, State.canTiming, State.canOverlap]

@[simp] theorem State.ardOk_advance (i : Nat) : (s.advance t).ardOk n i = s.ardOk n i := by simp [State.ardOk]

/-- What a controller holds is no register, entry, counter or byte. -/
theorem OnlyRegs.setCan {s u : State} {as : List Nat} (h : OnlyRegs s u as) (n : Nat) (c : Can) : OnlyRegs s (u.setCan n c) as :=
  ⟨h.regs, h.tabs, h.cnt, h.mram, h.dram, h.wqs⟩

@[simp] theorem State.can_setCan_same (c : Can) : (s.setCan n c).can n = c := by simp [State.can, State.setCan]

@[simp] theorem State.can_setFld (p : Nat) (f : Fld) (x : Nat) : (s.setFld p f x).can n = s.can n := rfl

@[simp] theorem State.canMode_setCan (m : Nat) (c : Can) : (s.setCan m c).canMode n = s.canMode n := rfl

theorem canMode_setCanMode {m : Nat} (h : m < 16) : (s.setCanMode n m).canMode n = m := by
  unfold State.canMode State.setCanMode
  rw [State.fld_setFld_same _ _ _ _ (by decide)]
  exact Nat.mod_eq_of_lt h

/-- Putting a field that does not overlap CUR leaves the mode. -/
theorem canMode_setFld {f : Fld} (x : Nat) (hf : f.lo + f.w ≤ 32) (ha : Fld.apart Fd.CANC_MODE_CUR f = true) :
    (s.setFld (pCANC n) f x).canMode n = s.canMode n := State.fld_setFld_apart s _ _ _ _ hf ha

theorem setCanMode_onlyRegs (m : Nat) : OnlyRegs s (s.setCanMode n m) [pCANC n * 4096 + Reg.CANC_MODE] :=
  (OnlyRegs.refl ..).setFld _

/-! ### Mode requests -/

variable {s n}

/-- A request to leave STOP that passes its checks starts INTEGRATING (R85, R89). -/
theorem canModeWrite_start {d v : Nat} (hm : s.canMode n = 0) (h0 : v % 16 ≠ 0) (h6 : v % 16 ≤ 6) (hr : v.testBit 12 = false)
    (hnm : s.flag (pCANC n) Fd.CANC_MODE_NM_HELD = false) (hc : s.canReqCheck n = none) :
    s.canModeWrite d n v = (s.setCanMode n 8).setFld (pCANC n) Fd.CANC_MODE_REQ (v % 16) := by
  simp [State.canModeWrite, Nat.not_lt.mpr h6, hm, h0, hr, hnm, hc]

/-- RECOVER in BUS_OFF starts RECOVERING (R89). -/
theorem canModeWrite_recover {d v : Nat} (hm : s.canMode n = 9) (h6 : v % 16 ≤ 6) (hr : v.testBit 12 = true) :
    s.canModeWrite d n v =
      ((s.setFld (pCANC n) Fd.CANC_MODE_REQ (v % 16)).setCanMode n 10).setFld (pCANC n) Fd.CANC_ERR_STATE 3 := by
  have hkept : (s.setFld (pCANC n) Fd.CANC_MODE_REQ (v % 16)).canMode n = 9 := by
    rw [canMode_setFld _ _ _ (by decide) (by decide), hm]
  simp [State.canModeWrite, State.canRecover, Nat.not_lt.mpr h6, hm, hr, hkept]

/-! ### Entering a mode -/

theorem canWants_lt : s.canWants n < 16 := by
  unfold State.canWants
  split
  · decide
  · exact s.fld_lt (pCANC n) Fd.CANC_MODE_REQ

/-- Entering a mode other than ARD is the change of mode alone. -/
theorem canEnter_plain {m : Nat} (h : m ≠ 6) : s.canEnter n m = s.setCanMode n m := by simp [State.canEnter, h]

/-- A changed request takes effect at bus idle (Table 2). -/
theorem canIdle_enters (hbus : canOnBus (s.canMode n) = true) (h8 : s.canMode n ≠ 8) (ha : (s.can n).attempt = none)
    (hc : (s.can n).comma = false) (hf : s.frozen (pCANC n) = false) (hw : s.canWants n ≠ s.canMode n) :
    s.canIdle n = s.canEnter n (s.canWants n) := by
  simp [State.canIdle, hbus, h8, ha, hc, hf, hw]

/-- A change to the wanted mode, seen from the state before its command. -/
theorem enter_effect (s : State) (t n : Nat) :
    (s.queueOf ((s.advance t).setCanMode n (s.canWants n))).canMode n = s.canWants n ∧
      OnlyRegs s (s.queueOf ((s.advance t).setCanMode n (s.canWants n))) [pCANC n * 4096 + Reg.CANC_MODE] :=
  ⟨(State.canMode_queueOf ..).trans (canMode_setCanMode _ _ canWants_lt), (setCanMode_onlyRegs ..).effect⟩

/-! ### Event items -/

/-- From `s` to `u` no register changes but those at `as`, no table entry and no memory byte. Counters, queues, records and
interrupts may move. -/
structure EventOnly (s u : State) (as : List Nat) : Prop where
  regs : RegsKept s u as
  tabs : u.tabs = s.tabs
  mram : u.mram = s.mram
  dram : u.dram = s.dram

namespace EventOnly
variable {s u w : State} {as bs : List Nat}

theorem refl (s : State) (as : List Nat) : EventOnly s s as := ⟨fun _ _ => rfl, rfl, rfl, rfl⟩

theorem trans (h : EventOnly s u as) (h' : EventOnly u w as) : EventOnly s w as :=
  ⟨fun a ha => (h'.regs a ha).trans (h.regs a ha), h'.tabs.trans h.tabs, h'.mram.trans h.mram, h'.dram.trans h.dram⟩

theorem mono (h : EventOnly s u as) (hs : as ⊆ bs) : EventOnly s u bs :=
  ⟨fun a ha => h.regs a fun hm => ha (hs hm), h.tabs, h.mram, h.dram⟩

theorem ite {c : Prop} [Decidable c] (h : EventOnly s u as) (h' : EventOnly s w as) : EventOnly s (if c then u else w) as := by
  split
  · exact h
  · exact h'

theorem setFld (h : EventOnly s u as) {p : Nat} {f : Fld} (x : Nat) (hm : p * 4096 + f.off ∈ as) :
    EventOnly s (u.setFld p f x) as :=
  h.trans ⟨fun _ ha => State.reg_setFld_ne u _ _ _ _ (ne_of_mem_of_not_mem hm ha).symm, rfl, rfl, rfl⟩

theorem raise (h : EventOnly s u as) {p : Nat} (b : Nat) (hm : p * 4096 + Reg.IRQ_STAT ∈ as) : EventOnly s (u.raise p b) as :=
  h.trans ⟨fun _ ha => State.raise_reg u _ _ _ (ne_of_mem_of_not_mem hm ha).symm, by simp, by simp, by simp⟩

theorem errRun (h : EventOnly s u as) {p : Nat} (code place a0 : Nat) (hm : errRegs p ⊆ as) :
    EventOnly s (u.errRun p code place a0) as :=
  h.trans ⟨fun _ ha => State.errRun_reg u _ _ _ _ _ fun hb => ha (hm hb), by simp, by simp, by simp⟩

theorem setWq (h : EventOnly s u as) (k : Nat) (q : WordQ) : EventOnly s (u.setWq k q) as := ⟨h.regs, h.tabs, h.mram, h.dram⟩

theorem inc (h : EventOnly s u as) (p off : Nat) : EventOnly s (u.inc p off) as := ⟨h.regs, h.tabs, h.mram, h.dram⟩

theorem endRun (h : EventOnly s u as) (p code place : Nat) : EventOnly s (u.endRun p code place) as :=
  ⟨h.regs, h.tabs, h.mram, h.dram⟩

theorem setTrn (h : EventOnly s u as) (x : Trn) : EventOnly s (u.setTrn x) as := ⟨h.regs, h.tabs, h.mram, h.dram⟩

theorem emit (h : EventOnly s u as) (o : Out) : EventOnly s (u.emit o) as := ⟨h.regs, h.tabs, h.mram, h.dram⟩

theorem fld (h : EventOnly s u as) {p : Nat} {f : Fld} (ha : p * 4096 + f.off ∉ as) : u.fld p f = s.fld p f := by
  simp only [State.fld, h.regs _ ha]

theorem flag (h : EventOnly s u as) {p : Nat} {f : Fld} (ha : p * 4096 + f.off ∉ as) : u.flag p f = s.flag p f := by
  simp only [State.flag, h.fld ha]

theorem rd (h : EventOnly s u as) {p off : Nat} (ha : p * 4096 + off ∉ as) : u.rd p off = s.rd p off := by
  simp only [State.rd, h.regs _ ha]

/-- What a command leaves, seen from the state before its stamp and under the queue that it puts back. -/
theorem effect {t : Nat} (h : EventOnly (s.advance t) u as) :
    RegsKept s (s.queueOf u) as ∧ TablesKept s (s.queueOf u) ∧ BytesKept s (s.queueOf u) :=
  ⟨fun a ha => by rw [State.queueOf_reg, h.regs a ha, State.reg_advance], .of_eq (by simp [h.tabs]),
    .of_eq (by simp [h.mram]) (by simp [h.dram])⟩

end EventOnly

/-- Two offsets of a page are two registers. -/
theorem reg_not_mem_singleton {p a b : Nat} (h : a ≠ b) : p * 4096 + a ∉ [p * 4096 + b] := fun hm =>
  h (Nat.add_left_cancel (List.mem_singleton.mp hm))

theorem OnlyRegs.keptWithQueues {s u : State} {as : List Nat} (h : OnlyRegs s u as) :
    RegsKept s u as ∧ TablesKept s u ∧ CountsKept s u ∧ BytesKept s u ∧ QueuesKept s u :=
  ⟨h.regs, h.tables, h.counts, h.bytes, h.queues⟩

/-- A change of mode after an event. -/
theorem EventOnly.setCanMode {s u : State} {as : List Nat} (h : EventOnly s u as) (n m : Nat) :
    EventOnly s (u.setCanMode n m) ((pCANC n * 4096 + Reg.CANC_MODE) :: as) :=
  (h.mono (List.subset_cons_self ..)).setFld m List.mem_cons_self

theorem OnlyRegs.event {s u : State} {as : List Nat} (h : OnlyRegs s u as) : EventOnly s u as := ⟨h.regs, h.tabs, h.mram, h.dram⟩

/-- A record that finds no room touches the error registers of the Transcript page at most. -/
theorem recOverflow_only (s : State) (high : Bool) (key stamp : Nat) : EventOnly s (s.recOverflow high key stamp) (errRegs pTRN) :=
  ((((EventOnly.refl ..).setTrn _).inc ..).raise _ (by simp [errRegs])).errRun _ _ _ (List.Subset.refl _)

/-- A record touches the error registers of the Transcript page at most. -/
theorem tap_only (s : State) (high : Bool) (typ idx stamp flags : Nat) (payload : List Nat) :
    EventOnly s (s.tap high typ idx stamp flags payload) (errRegs pTRN) := by
  have hk := EventOnly.refl s (errRegs pTRN)
  unfold State.tap
  dsimp only
  exact .ite hk (.ite (hk.setTrn _) (.ite ((hk.setTrn _).endRun ..) ((hk.setTrn _).trans (recOverflow_only ..))))

/-- The registers that an item into word queue `k` can change. -/
def wqRegs (k : Nat) : List Nat := ((wqAt k).page * 4096 + (wqAt k).level.off) :: errRegs (wqAt k).page

/-- An item into a word queue touches its LEVEL and the error registers of its page at most. -/
theorem wqPut_only (s : State) (k : Nat) (ws : List Nat) : EventOnly s (s.wqPut k ws) (wqRegs k) := by
  have hk := EventOnly.refl s (wqRegs k)
  have hirq : (wqAt k).page * 4096 + Reg.IRQ_STAT ∈ wqRegs k := by simp [wqRegs, errRegs]
  unfold State.wqPut
  dsimp only
  split
  · have hput : ∀ q, EventOnly s (((s.setWq k q).setFld (wqAt k).page (wqAt k).level q.level).endRun (wqAt k).page
        (wqAt k).dropCode 0) (wqRegs k) := fun q => ((hk.setWq k q).setFld _ (by simp [wqRegs])).endRun ..
    exact .ite ((hput _).raise _ hirq) (hput _)
  · have hdrop := ((hk.setWq k { s.wq k with drop := true }).inc (wqAt k).page (wqAt k).dropCnt).raise (wqAt k).dropBit hirq
    exact .ite hdrop (hdrop.errRun _ _ _ (List.subset_cons_self ..))

/-- The registers that an event item of channel `n` can change. -/
def canEventRegs (n : Nat) : List Nat := wqRegs n ++ errRegs pTRN

theorem canEvent_only (s : State) (n ev stamp : Nat) : EventOnly s (s.canEvent n ev stamp) (canEventRegs n) := by
  have hq := fun ws => (wqPut_only s n ws).mono (List.subset_append_left (wqRegs n) (errRegs pTRN))
  unfold State.canEvent
  dsimp only
  exact .ite ((hq _).trans ((tap_only ..).mono (List.subset_append_right ..))) (hq _)

/-- An interrupt of the channel and an event item. -/
theorem raise_canEvent_only (s : State) (n b ev stamp : Nat) (hn : n < 24) :
    EventOnly s ((s.raise (pCANC n) b).canEvent n ev stamp) (canEventRegs n) :=
  ((EventOnly.refl ..).raise b (by simp [canEventRegs, wqRegs, wqAt, hn, errRegs])).trans (canEvent_only ..)

/-- The block-specific registers of the channel, RXQ_STAT apart, are not among them. -/
theorem not_mem_canEventRegs {n off : Nat} (hn : n < 24) (hlo : 0x040 ≤ off) (hhi : off < 4096) (hq : off ≠ Reg.CANC_RXQ_STAT) :
    pCANC n * 4096 + off ∉ canEventRegs n := by
  have hp : wqAt n = ⟨pCANC n, Fd.CANC_RXQ_STAT_LEVEL, Iq.CANC_RXQ_AVAIL, Iq.CANC_RXQ_DROP, Iq.CANC_QPTR, Cn.CANC_RXQ_DROP,
    Er.CAN_RXQ_DROP, n⟩ := if_pos hn
  simp only [canEventRegs, wqRegs, hp, errRegs, List.cons_append, List.nil_append, List.mem_cons, List.not_mem_nil, or_false]
  unfold Reg.CANC_RXQ_STAT at hq
  unfold pCANC pTRN Reg.ERR_CODE Reg.ERR_STAMP_LO Reg.ERR_STAMP_HI Reg.IRQ_STAT
  omega

/-! ### The end of recovery -/

/-- The error state of a channel that comes back on the bus: both counters 0, error-active (Table 2). -/
def State.canErrCleared (s : State) (n : Nat) : State :=
  ((s.setFld (pCANC n) Fd.CANC_ERR_TEC 0).setFld (pCANC n) Fd.CANC_ERR_REC 0).setFld (pCANC n) Fd.CANC_ERR_STATE 0

theorem canErrCleared_spec (s : State) (n : Nat) :
    (s.canErrCleared n).fld (pCANC n) Fd.CANC_ERR_TEC = 0 ∧ (s.canErrCleared n).fld (pCANC n) Fd.CANC_ERR_REC = 0 ∧
      (s.canErrCleared n).fld (pCANC n) Fd.CANC_ERR_STATE = 0 ∧ (s.canErrCleared n).canWants n = s.canWants n ∧
      OnlyRegs s (s.canErrCleared n) [pCANC n * 4096 + Reg.CANC_ERR] := by
  unfold State.canErrCleared
  refine ⟨?_, ?_, ?_, ?_, (((OnlyRegs.refl ..).setFld 0).setFld 0).setFld 0⟩ <;>
    simp (disch := decide) only [State.canWants, State.fld_setFld_apart, State.flag_setFld_apart, State.fld_setFld_same,
      Nat.zero_mod]

/-- RECOVERING has ended: the error state is cleared, and BUS_ON is raised and queued (Table 2). -/
def State.canBusOn (s : State) (n : Nat) : State :=
  ((s.canErrCleared n).raise (pCANC n) Iq.CANC_BUS_ON).canEvent n 4 (s.canErrCleared n).now

theorem canBusOn_spec (s : State) {n : Nat} (hn : n < 24) :
    (s.canBusOn n).fld (pCANC n) Fd.CANC_ERR_TEC = 0 ∧ (s.canBusOn n).fld (pCANC n) Fd.CANC_ERR_REC = 0 ∧
      (s.canBusOn n).fld (pCANC n) Fd.CANC_ERR_STATE = 0 ∧
      EventOnly s (s.canBusOn n) ((pCANC n * 4096 + Reg.CANC_ERR) :: canEventRegs n) := by
  obtain ⟨htec, hrec, hst, -, hk⟩ := canErrCleared_spec s n
  have he : EventOnly (s.canErrCleared n) (s.canBusOn n) (canEventRegs n) := raise_canEvent_only _ n _ _ _ hn
  have herr : pCANC n * 4096 + Reg.CANC_ERR ∉ canEventRegs n := not_mem_canEventRegs hn (by decide) (by decide) (by decide)
  exact ⟨(he.fld herr).trans htec, (he.fld herr).trans hrec, (he.fld herr).trans hst,
    (hk.event.mono (by simp)).trans (he.mono (List.subset_cons_self ..))⟩

/-! ### Automatic rate detection -/

/-- The next usable candidate from `i` on is applied (R87). -/
theorem ardTry_found {s : State} {n i k : Nat}
    (h : (List.range 8).find? (fun k => i ≤ k && (k ≤ s.fld (pCANC n) Fd.CANC_ARD_CFG_LAST && s.ardOk n k)) = some k) :
    s.ardTry n i =
      (s.setFld (pCANC n) Fd.CANC_ARD_STATUS_INDEX k).setCan n { s.can n with ardMatch := 0, ardFrom := s.now } := by
  simp only [State.ardTry, h]

/-- The candidate `e` is locked: its timing is loaded and LOCKED set (R88). -/
def State.ardLoad (s : State) (n : Nat) (e : Entry) : State :=
  ((s.wr (pCANC n) Reg.CANC_NBTIM (bitsOf e 1 32)).wr (pCANC n) Reg.CANC_DBTIM (bitsOf e 33 32)).setFlag (pCANC n)
    Fd.CANC_ARD_STATUS_LOCKED true

/-- The registers that a lock loads and sets (R88). -/
def ardRegs (n : Nat) : List Nat :=
  [pCANC n * 4096 + Reg.CANC_NBTIM, pCANC n * 4096 + Reg.CANC_DBTIM, pCANC n * 4096 + Reg.CANC_ARD_STATUS]

theorem ardLoad_spec (s : State) (n : Nat) (e : Entry) :
    (s.ardLoad n e).flag (pCANC n) Fd.CANC_ARD_STATUS_LOCKED = true ∧
      (s.ardLoad n e).rd (pCANC n) Reg.CANC_NBTIM = bitsOf e 1 32 ∧
      (s.ardLoad n e).rd (pCANC n) Reg.CANC_DBTIM = bitsOf e 33 32 ∧
      OnlyRegs s (s.ardLoad n e) (ardRegs n) := by
  have hfit : ∀ lo, bitsOf e lo 32 % 2 ^ 32 = bitsOf e lo 32 := fun lo => Nat.mod_mod ..
  have hlock : ∀ (u : State) (off : Nat), off ≠ Reg.CANC_ARD_STATUS →
      (u.setFlag (pCANC n) Fd.CANC_ARD_STATUS_LOCKED true).rd (pCANC n) off = u.rd (pCANC n) off := fun u off ho =>
    congrArg BitVec.toNat (State.reg_setFld_ne u _ _ _ _ fun h => ho (Nat.add_left_cancel h))
  unfold State.ardLoad
  refine ⟨State.flag_setFlag_same _ _ _ _ (by decide) rfl, ?_, ?_, ?_⟩
  · rw [hlock _ _ (by decide), State.rd_wr_ne _ fun h => absurd (Nat.add_left_cancel h) (by decide), State.rd_wr_same, hfit]
  · rw [hlock _ _ (by decide), State.rd_wr_same, hfit]
  · exact (((OnlyRegs.refl ..).wr _ (by simp [ardRegs])).wr _ (by simp [ardRegs])).setFlag true (by simp [ardRegs])

/-- The lock is reported: ARD_DONE is raised and queued (R88). -/
def State.ardLocked (s : State) (n : Nat) (e : Entry) : State :=
  ((s.ardLoad n e).raise (pCANC n) Iq.CANC_ARD_DONE).canEvent n 7 ((s.ardLoad n e).raise (pCANC n) Iq.CANC_ARD_DONE).now

theorem ardLocked_spec (s : State) {n : Nat} (hn : n < 24) (e : Entry) :
    (s.ardLocked n e).flag (pCANC n) Fd.CANC_ARD_STATUS_LOCKED = true ∧
      (s.ardLocked n e).rd (pCANC n) Reg.CANC_NBTIM = bitsOf e 1 32 ∧
      (s.ardLocked n e).rd (pCANC n) Reg.CANC_DBTIM = bitsOf e 33 32 ∧
      EventOnly s (s.ardLocked n e) (ardRegs n ++ canEventRegs n) := by
  obtain ⟨hlock, hnb, hdb, hk⟩ := ardLoad_spec s n e
  have he : EventOnly (s.ardLoad n e) (s.ardLocked n e) (canEventRegs n) := raise_canEvent_only _ n _ _ _ hn
  have hkept : ∀ off, 0x040 ≤ off → off < 0x100 → off ≠ Reg.CANC_RXQ_STAT → pCANC n * 4096 + off ∉ canEventRegs n :=
    fun off hlo hhi hq => not_mem_canEventRegs hn hlo (by omega) hq
  exact ⟨(he.flag (hkept _ (by decide) (by decide) (by decide))).trans hlock,
    (he.rd (hkept _ (by decide) (by decide) (by decide))).trans hnb,
    (he.rd (hkept _ (by decide) (by decide) (by decide))).trans hdb,
    (hk.event.mono (List.subset_append_left ..)).trans (he.mono (List.subset_append_right ..))⟩

/-- After a lock the channel integrates again, with the request that THEN names (R88). -/
def State.ardRestart (s : State) (n : Nat) : State :=
  let u := s.setFld (pCANC n) Fd.CANC_MODE_REQ (if s.flag (pCANC n) Fd.CANC_ARD_CFG_THEN then 1 else 2)
  (u.setCan n { u.can n with ardMatch := 0 }).setCanMode n 8

theorem ardRestart_spec (s : State) (n : Nat) :
    (s.ardRestart n).canMode n = 8 ∧ OnlyRegs s (s.ardRestart n) [pCANC n * 4096 + Reg.CANC_MODE] :=
  ⟨canMode_setCanMode _ _ (by decide), (((OnlyRegs.refl ..).setFld _).setCan ..).setFld _⟩

end

/-! ### The commands -/

/-- Settles O18: each command by the case of its rule, and what the new mode is entered with. -/
theorem canModeChanges : Obligations.CanModeChanges := by
  refine ⟨?request, ?recover, ?integrated, ?idle, ?busOn, ?dwell, ?lock⟩
  case request =>
    intro s t d n v hn h hm h0 h6 hr hnm hc
    refine completes_cancPort (t := t) (fun s => s.canModeWrite d n v) hn h rfl ?_
    have hbit : v.testBit 12 = false := by rw [Nat.testBit_eq_decide_div_mod_eq]; simp [hr]
    rw [canModeWrite_start (by simpa using hm) h0 h6 hbit (by simpa using hnm) (by simpa using hc)]
    refine ⟨?_, ?_, ((setCanMode_onlyRegs ..).setFld (v % 16)).effect.keptWithQueues⟩
    · simp (disch := decide) only [State.canMode_queueOf, canMode_setFld, canMode_setCanMode]
    · rw [State.queueOf_fld, State.fld_setFld_same _ _ _ _ (by decide)]
      exact Nat.mod_mod ..
  case recover =>
    intro s t d n v hn h hm h6
    refine completes_cancPort (t := t) (fun s => s.canModeWrite d n (v ||| 4096)) hn h rfl ?_
    have hbit : (v ||| 4096).testBit 12 = true := by rw [Nat.testBit_or, show Nat.testBit 4096 12 = true from rfl, Bool.or_true]
    have hreq : (v ||| 4096) % 16 = v % 16 := by
      have := Nat.or_mod_two_pow (a := v) (b := 4096) (n := 4)
      simpa using this
    rw [canModeWrite_recover (by simpa using hm) (hreq.symm ▸ h6) hbit, hreq]
    refine ⟨?_, ?_, ?_, (((OnlyRegs.refl ..).setFld _).setFld 10).setFld 3 |>.effect.keptWithQueues⟩
    · simp (disch := decide) only [State.canMode_queueOf, canMode_setFld, canMode_setCanMode]
    · exact (State.queueOf_fld ..).trans (State.fld_setFld_same _ _ _ _ (by decide))
    · simp (disch := decide) only [State.queueOf_fld, State.setCanMode, State.fld_setFld_apart, State.fld_setFld_same]
      exact Nat.mod_mod ..
  case integrated =>
    intro s t n hn hclk hm hf h6
    refine completes_canRun (t := t) (f := fun s => if s.canMode n ≠ 8 then s else if s.frozen (pCANC n) then s.canFreezeNow n
      else s.canEnter n (s.canWants n)) rfl hn hclk ?_
    obtain ⟨hmode, hk⟩ := enter_effect s t n
    simp only [State.canMode_advance, hm, ne_eq, not_true_eq_false, if_false, State.advance_frozen, hf, Bool.false_eq_true,
      State.canWants_advance, canEnter_plain h6]
    exact ⟨hmode, hk.keptWithQueues⟩
  case idle =>
    intro s t n hn hclk hbus h8 ha hc hf hw h6
    refine completes_canRun (t := t) (f := fun s => s.canIdle n) rfl hn hclk ?_
    obtain ⟨hmode, hk⟩ := enter_effect s t n
    rw [canIdle_enters (by simpa) (by simpa) (by simpa) (by simpa) (by simpa) (by simpa), State.canWants_advance,
      canEnter_plain h6]
    exact ⟨hmode, hk.keptWithQueues⟩
  case busOn =>
    intro s t n hn hclk hm h6
    refine completes_canRun (t := t) (f := fun s => if s.canMode n ≠ 10 then s
      else (s.canBusOn n).canEnter n ((s.canErrCleared n).canWants n)) rfl hn hclk ?_
    obtain ⟨-, -, -, hwants, -⟩ := canErrCleared_spec (s.advance t) n
    obtain ⟨htec, hrec, hst, hk⟩ := canBusOn_spec (s.advance t) hn
    rw [if_neg (by simp [hm]), hwants, State.canWants_advance, canEnter_plain h6]
    have hkept : ∀ f : Fld, f.off = Reg.CANC_ERR →
        (s.queueOf (((s.advance t).canBusOn n).setCanMode n (s.canWants n))).fld (pCANC n) f =
          ((s.advance t).canBusOn n).fld (pCANC n) f := fun f hf =>
      (State.queueOf_fld ..).trans (State.fld_setFld_apart _ _ _ _ _ (by decide) (by rw [Fld.apart, hf]; rfl))
    obtain ⟨-, htabs, hbytes⟩ := (hk.setCanMode n (s.canWants n)).effect
    exact ⟨(State.canMode_queueOf ..).trans (canMode_setCanMode _ _ canWants_lt), (hkept _ rfl).trans htec,
      (hkept _ rfl).trans hrec, (hkept _ rfl).trans hst, htabs, hbytes⟩
  case dwell =>
    intro s t n k hn hclk hm hdwell hfind
    refine completes_canRun (t := t) (f := fun s =>
      if s.canMode n = 6 && (s.can n).ardFrom + s.fld (pCANC n) Fd.CANC_ARD_CFG_DWELL_MS * 1000000 ≤ s.now then
        s.ardTry n (s.fld (pCANC n) Fd.CANC_ARD_STATUS_INDEX + 1)
      else s) rfl hn hclk ?_
    have hk : k < 8 := List.mem_range.mp (List.mem_of_find?_eq_some hfind)
    rw [if_pos (by simp [hm, hdwell]), ardTry_found (by simpa using hfind)]
    refine ⟨?_, ?_, by simp, by simp, (((OnlyRegs.refl ..).setFld k).setCan ..).effect.keptWithQueues⟩
    · rw [State.queueOf_fld]
      exact (State.fld_setFld_same (s.advance t) _ _ k (by decide)).trans (Nat.mod_eq_of_lt hk)
    · simp (disch := decide) only [State.canMode_queueOf, State.canMode_setCan, canMode_setFld, State.canMode_advance, hm]
  case lock =>
    intro s t n hn hclk hm hmatch
    refine completes_canRun (t := t) (f := fun s =>
      if s.canMode n = 6 && s.fld (pCANC n) Fd.CANC_ARD_CFG_MATCH ≤ (s.can n).ardMatch then
        (s.ardLocked n (s.ent (pCANC n) 4 0 (s.fld (pCANC n) Fd.CANC_ARD_STATUS_INDEX))).ardRestart n
      else s) rfl hn hclk ?_
    rw [if_pos (by simp [hm, hmatch]), State.ent_advance, State.fld_advance]
    obtain ⟨hlock, hnb, hdb, hk⟩ :=
      ardLocked_spec (s.advance t) hn (s.ent (pCANC n) 4 0 (s.fld (pCANC n) Fd.CANC_ARD_STATUS_INDEX))
    generalize (s.advance t).ardLocked n _ = u at hlock hnb hdb hk
    obtain ⟨hmode, hk'⟩ := ardRestart_spec u n
    have he := hk'.event
    obtain ⟨-, htabs, hbytes⟩ :=
      ((hk.mono (List.subset_cons_self (pCANC n * 4096 + Reg.CANC_MODE) _)).trans (he.mono (by simp))).effect
    refine ⟨(State.canMode_queueOf ..).trans hmode, ?_, ?_, ?_, htabs, hbytes⟩
    · exact (State.queueOf_flag ..).trans ((he.flag (reg_not_mem_singleton (by decide))).trans hlock)
    · exact (State.queueOf_rd ..).trans ((he.rd (reg_not_mem_singleton (by decide))).trans hnb)
    · exact (State.queueOf_rd ..).trans ((he.rd (reg_not_mem_singleton (by decide))).trans hdb)

end Sys2Proof.Machine
end

section
/-!
CAN transmission: host buffers, the router queue, arbitration and its end, and the transceivers' protections (R100 to R107, R542,
R546, Table 6 of *CAN Controllers*).
-/

namespace Sys2Proof.Machine

/-! ### Folds that act once -/

theorem foldN_eq_self {α : Type} {n : Nat} {f : Nat → α → α} {a : α} (h : ∀ i, i < n → ∀ x, f i x = x) : foldN n f a = a :=
  foldN_induction (P := (· = a)) rfl fun i x hi hx => (h i hi x).trans hx

/-- A fold in which every step but the one at `b` changes nothing. -/
theorem foldN_single {α : Type} {n b : Nat} {f : Nat → α → α} {a : α} (hb : b < n)
    (h : ∀ i, i < n → i ≠ b → ∀ x, f i x = x) : foldN n f a = f b a := by
  induction n with
  | zero => omega
  | succ n ih =>
    rw [foldN_succ]
    by_cases hbn : b = n
    · subst hbn
      rw [foldN_eq_self fun i hi => h i (by omega) (by omega)]
    · rw [ih (by omega) fun i hi => h i (by omega), h n (by omega) (Ne.symm hbn)]

/-! ### Interrupts leave the frames sent and the channel's counters -/

theorem deliver_out (s : State) (d v : Nat) : s.out <+: (s.deliver d v).out := by
  unfold State.deliver
  dsimp only
  split
  · split
    · exact List.prefix_refl _
    · exact List.prefix_append _ _
  · exact List.prefix_refl _

/-- What has left the block stays there when an interrupt is raised. -/
theorem raise_out (s : State) (p b : Nat) : s.out <+: (s.raise p b).out := by
  unfold State.raise State.notify
  split
  · exact deliver_out (s.wr p Reg.IRQ_STAT _) _ _
  · exact List.prefix_refl _

/-- An interrupt counts at most a message of HDOM. -/
theorem raise_count (s : State) (p b : Nat) {q off : Nat} (h : q * 4096 + off < pHDOM 0 * 4096) :
    (s.raise p b).count q off = s.count q off := by
  have hne : ∀ d, q * 4096 + off ≠ pHDOM d * 4096 + Cn.HDOM_MSGS := fun d => by unfold pHDOM at h ⊢; omega
  unfold State.raise State.notify
  split
  · unfold State.deliver
    dsimp only
    split
    · split
      · rfl
      · exact State.count_addCnt_ne _ _ _ _ _ _ (hne _)
    · rfl
  · rfl

section
variable (s u : State) (t n b : Nat)

/-! ### Host buffers -/

@[simp] theorem State.txb_advance : (s.advance t).txb n b = s.txb n b := by simp [State.txb]
@[simp] theorem State.txb_queueOf : (s.queueOf u).txb n b = u.txb n b := rfl
@[simp] theorem State.txbState_advance : (s.advance t).txbState n b = s.txbState n b := State.fld_advance ..
@[simp] theorem State.txbState_queueOf : (s.queueOf u).txbState n b = u.txbState n b := State.queueOf_fld ..
@[simp] theorem State.nmOwnsTxb_advance : (s.advance t).nmOwnsTxb n b = s.nmOwnsTxb n b := by
  unfold State.nmOwnsTxb State.entF
  rw [State.ent_advance]
@[simp] theorem State.txbReqCheck_advance : (s.advance t).txbReqCheck n b = s.txbReqCheck n b := by
  simp [State.txbReqCheck, State.canFmtOn]

theorem State.can_congr {s u : State} (h : u.cans = s.cans) (n : Nat) : u.can n = s.can n := by simp only [State.can, h]

@[simp] theorem State.can_raise (p c : Nat) : (s.raise p c).can n = s.can n := by simp [State.can]

theorem State.txb_setTxb_same (x : Txb) : (s.setTxb n b x).txb n b = x := by simp [State.txb, State.setTxb]

theorem txbState_setTxbState {b x : Nat} (hb : b < 3) (hx : x < 16) : (s.setTxbState n b x).txbState n b = x := by
  unfold State.txbState State.setTxbState
  rw [State.fld_setFld_same _ _ _ _ (by simp only [txbFld]; omega)]
  exact Nat.mod_eq_of_lt hx

/-- A new state of a buffer changes CANC_TXB_STAT alone. -/
theorem OnlyRegs.setTxbState {s u : State} (h : OnlyRegs s u [pCANC n * 4096 + Reg.CANC_TXB_STAT]) (x : Nat) :
    OnlyRegs s (u.setTxbState n b x) [pCANC n * 4096 + Reg.CANC_TXB_STAT] := h.setFld x (List.mem_singleton_self _)

theorem setTxb_onlyRegs (x : Txb) (as : List Nat) : OnlyRegs s (s.setTxb n b x) as := (OnlyRegs.refl s as).setCan n _

/-- A buffer made PENDING (R101). -/
theorem txbPend_spec {b : Nat} (hb : b < 3) :
    (s.txbPend n b).txbState n b = 1 ∧ (s.txbPend n b).txb n b = { enq := s.now } ∧
      OnlyRegs s (s.txbPend n b) [pCANC n * 4096 + Reg.CANC_TXB_STAT] :=
  ⟨txbState_setTxbState _ _ hb (by decide), State.txb_setTxb_same .., (setTxb_onlyRegs ..).setTxbState ..⟩

/-- A buffer of the host in a final state: the state is stored and TXB_DONE raised (Table 6). -/
theorem txbFinal_host {s : State} {n b st : Nat} (h : (s.can n).nmBuf = 0) :
    s.txbFinal n b st = ((s.setTxb n b {}).setTxbState n b st).raise (pCANC n) (Iq.CANC_TXB_DONE + b) := by
  simp [State.txbFinal, h]

/-- What a final state leaves of a buffer of the host. -/
theorem txbFinal_host_spec {s : State} {n b st : Nat} (hn : n < 24) (hb : b < 3) (hst : st < 16) (h : (s.can n).nmBuf = 0) :
    (s.txbFinal n b st).txbState n b = st ∧ ((s.txbFinal n b st).can n).attempt = (s.can n).attempt ∧
      s.out <+: (s.txbFinal n b st).out ∧
      (∀ off, off < 4096 → (s.txbFinal n b st).count (pCANC n) off = s.count (pCANC n) off) ∧
      (s.txbFinal n b st).wqs = s.wqs ∧
      EventOnly s (s.txbFinal n b st) [pCANC n * 4096 + Reg.CANC_TXB_STAT, pCANC n * 4096 + Reg.IRQ_STAT] := by
  have hk := ((setTxb_onlyRegs s n b {} _).setTxbState n b st).event.mono
    (bs := [pCANC n * 4096 + Reg.CANC_TXB_STAT, pCANC n * 4096 + Reg.IRQ_STAT]) (by simp)
  have hstate := txbState_setTxbState (s.setTxb n b {}) n hb hst
  rw [txbFinal_host h]
  refine ⟨?_, ?_, raise_out ((s.setTxb n b {}).setTxbState n b st) _ _, fun off ho => ?_,
    by simp [State.setTxbState, State.setTxb], hk.raise _ (by simp)⟩
  · have hne : pCANC n * 4096 + Reg.CANC_TXB_STAT ≠ pCANC n * 4096 + Reg.IRQ_STAT := fun e =>
      absurd (Nat.add_left_cancel e) (by decide)
    exact (congrArg (fget · (txbFld b)) (State.raise_reg _ _ _ _ hne)).trans hstate
  · simp [State.setTxbState, State.setTxb]
  · exact raise_count ((s.setTxb n b {}).setTxbState n b st) _ _ (by unfold pCANC pHDOM; omega)

/-! ### Writes of CANC_TXB_CMD -/

/-- REQ of one buffer whose check passes makes it PENDING (R101). -/
theorem txbCmd_req {s : State} {d n b : Nat} (hb : b < 3) (hnm : s.nmOwnsTxb n b = false) (hc : s.txbReqCheck n b = none) :
    s.txbCmd d n (2 ^ b) = s.txbPend n b := by
  unfold State.txbCmd
  dsimp only
  rw [foldN_single hb fun i hi hib x => ?noReq, foldN_eq_self fun i hi x => ?noCancel]
  · simp [hnm, hc]
  case noCancel => simp [show b ≠ 8 + i by omega]
  case noReq => simp [Ne.symm hib]

/-- CANCEL of one PENDING buffer ends it as CANCELLED (R107). -/
theorem txbCmd_cancel {s : State} {d n b : Nat} (hb : b < 3) (hnm : s.nmOwnsTxb n b = false) (hp : s.txbState n b = 1) :
    s.txbCmd d n (2 ^ (8 + b)) = s.txbFinal n b 4 := by
  unfold State.txbCmd
  dsimp only
  rw [foldN_eq_self fun i hi x => ?noReq, foldN_single hb fun i hi hib x => ?noCancel]
  · simp [hnm, State.txbCancel, hp]
  case noCancel => simp [Ne.symm hib]
  case noReq => simp [show 8 + b ≠ i by omega]

/-! ### The router queue -/

/-- A frame that the queue does not refuse goes to its end (R103). -/
theorem rtqEnter_accepted {s : State} {n : Nat} (h : s.rtqRefuses n = false) (f : CanFrame) (stamp ctm : Nat) :
    s.rtqEnter n f stamp ctm = s.setRtq n ((s.can n).rtq ++ [⟨f, stamp, 0, ctm⟩]) := by
  simp only [State.rtqRefuses, Bool.or_eq_false_iff, decide_eq_false_iff_not] at h
  obtain ⟨⟨⟨hoff, hboff⟩, hrec⟩, hlen⟩ := h
  simp [State.rtqEnter, hoff, hboff, hrec, hlen]

theorem setRtq_spec {q : List Rtq} (hq : q.length < 64) :
    ((s.setRtq n q).can n).rtq = q ∧ (s.setRtq n q).fld (pCANC n) Fd.CANC_RTQ_STAT_LEVEL = q.length ∧
      OnlyRegs s (s.setRtq n q) [pCANC n * 4096 + Reg.CANC_RTQ_STAT] := by
  unfold State.setRtq State.setFlag
  refine ⟨by simp, ?_, (((OnlyRegs.refl ..).setCan n _).setFld _).setFld _⟩
  simp (disch := decide) only [State.fld_setFld_apart, State.fld_setFld_same]
  exact Nat.mod_eq_of_lt hq

/-! ### Arbitration -/

/-- The attempt starts with the chosen frame; a host buffer becomes ACTIVE (R104). -/
def State.canStarted (s : State) (n : Nat) (a : Attempt) : State :=
  let u := s.setCan n { s.can n with attempt := some a }
  if a.src < 3 then u.setTxbState n a.src 2 else u

theorem canStart_chosen {s : State} {n : Nat} {a : Attempt} (hs : canSends (s.canMode n) = true)
    (ha : (s.can n).attempt = none) (hf : s.frozen (pCANC n) = false) (hc : (s.can n).comma = false)
    (hw : s.canWants n = s.canMode n) (hch : s.canChoose n = some a) : s.canStart n = s.canStarted n a := by
  simp [State.canStart, State.canStarted, hs, ha, hf, hc, hw, hch]

theorem canStarted_spec (a : Attempt) :
    ((s.canStarted n a).can n).attempt = some a ∧ (a.src < 3 → (s.canStarted n a).txbState n a.src = 2) ∧
      OnlyRegs s (s.canStarted n a) [pCANC n * 4096 + Reg.CANC_TXB_STAT] := by
  have hk := (OnlyRegs.refl s [pCANC n * 4096 + Reg.CANC_TXB_STAT]).setCan n { s.can n with attempt := some a }
  unfold State.canStarted
  dsimp only
  split
  · next hsrc => exact ⟨by simp [State.setTxbState], fun _ => txbState_setTxbState _ _ hsrc (by decide), hk.setTxbState ..⟩
  · next hsrc => exact ⟨by simp, fun h => absurd h hsrc, hk⟩

/-- The attempt ends without a frame: it has lost arbitration (R104). -/
def State.arbLost (s : State) (n : Nat) : State := (s.setCan n { s.can n with attempt := none }).inc (pCANC n) Cn.CANC_ARB_LOST

/-- A frame of the router queue that loses arbitration waits in its place (R104, R105). -/
theorem canLost_router {s : State} {n : Nat} {a : Attempt} (h : a.src = 3) : s.canLost n a = s.arbLost n := by
  simp [State.canLost, State.arbLost, h]

theorem arbLost_spec :
    ((s.arbLost n).can n).attempt = none ∧ ((s.arbLost n).can n).rtq = (s.can n).rtq ∧
      (s.arbLost n).count (pCANC n) Cn.CANC_ARB_LOST = (s.count (pCANC n) Cn.CANC_ARB_LOST + 1) % 2 ^ 64 ∧
      (s.arbLost n).wqs = s.wqs ∧ EventOnly s (s.arbLost n) [] := by
  have hcan : (s.arbLost n).can n = { s.can n with attempt := none } := State.can_setCan_same s n _
  exact ⟨by rw [hcan], by rw [hcan], State.count_inc_same (s.setCan n _) _ _, rfl,
    ((OnlyRegs.refl ..).setCan ..).event.inc ..⟩

/-! ### The end of a transmission -/

/-- CANC_TDC_STAT is all that the transmitter delay changes (R86). -/
theorem canTdc_spec (f : CanFrame) (tdcv : Nat) :
    OnlyRegs s (s.canTdc n f tdcv) [pCANC n * 4096 + Reg.CANC_TDC_STAT] ∧ (s.canTdc n f tdcv).cans = s.cans := by
  have hk := OnlyRegs.refl s [pCANC n * 4096 + Reg.CANC_TDC_STAT]
  unfold State.canTdc
  dsimp only
  split
  · split
    · exact ⟨(hk.setFld _).setFlag _, rfl⟩
    · exact ⟨hk, rfl⟩
  · split
    · exact ⟨(hk.setFld _).setFlag _, rfl⟩
    · exact ⟨hk, rfl⟩

/-- The frame has reached its EOF: the attempt is over, TX_OK counts it, and the transmitter delay is recorded (R86, R107). -/
def State.canEof (s : State) (n : Nat) (a : Attempt) (tdcv : Nat) : State :=
  ((s.setCan n { s.can n with attempt := none }).inc (pCANC n) Cn.CANC_TX_OK).canTdc n a.frame tdcv

theorem canEof_spec (a : Attempt) (tdcv : Nat) :
    (s.canEof n a tdcv).can n = { s.can n with attempt := none } ∧
      (s.canEof n a tdcv).count (pCANC n) Cn.CANC_TX_OK = (s.count (pCANC n) Cn.CANC_TX_OK + 1) % 2 ^ 64 ∧
      (s.canEof n a tdcv).wqs = s.wqs ∧ EventOnly s (s.canEof n a tdcv) [pCANC n * 4096 + Reg.CANC_TDC_STAT] := by
  have hc := ((OnlyRegs.refl s [pCANC n * 4096 + Reg.CANC_TDC_STAT]).setCan n { s.can n with attempt := none }).event.inc
    (pCANC n) Cn.CANC_TX_OK
  obtain ⟨hk, hcans⟩ :=
    canTdc_spec ((s.setCan n { s.can n with attempt := none }).inc (pCANC n) Cn.CANC_TX_OK) n a.frame tdcv
  refine ⟨?_, (hk.counts ..).trans (State.count_inc_same ..), hk.wqs, hc.trans hk.event⟩
  exact (State.can_congr hcans n).trans (State.can_setCan_same s n _)

/-- A frame of the host is sent: no error counter, record or echo takes part, and its buffer is SENT (R91, R107). -/
theorem canSent_host {s : State} {n : Nat} {a : Attempt} (hn : n < 24) (sof eof tdcv : Nat) (he : a.ent = none)
    (hcancel : (s.txb n a.src).cancel = none) (hnm : (s.can n).nmBuf = 0) (htec : s.fld (pCANC n) Fd.CANC_ERR_TEC = 0)
    (hecho : s.flag (pCANC n) Fd.CANC_CFG_TX_ECHO = false) (htap : (s.fld pTRN Fd.TRN_TAP_CANTX_TX).testBit n = false) :
    s.canSent n a sof eof tdcv = ((s.canEof n a tdcv).emit (.can n a.src a.frame)).txbFinal n a.src 3 := by
  obtain ⟨hcan, -, -, hk⟩ := canEof_spec s n a tdcv
  have htec' : (s.canEof n a tdcv).fld (pCANC n) Fd.CANC_ERR_TEC = 0 :=
    (hk.fld (reg_not_mem_singleton (by decide))).trans htec
  have hecho' : (s.canEof n a tdcv).flag (pCANC n) Fd.CANC_CFG_TX_ECHO = false :=
    (hk.flag (reg_not_mem_singleton (by decide))).trans hecho
  have htap' : ((s.canEof n a tdcv).fld pTRN Fd.TRN_TAP_CANTX_TX).testBit n = false := by
    have hpage : pTRN * 4096 + Fd.TRN_TAP_CANTX_TX.off ∉ [pCANC n * 4096 + Reg.CANC_TDC_STAT] := fun hm => by
      have := List.mem_singleton.mp hm
      unfold pTRN pCANC Fd.TRN_TAP_CANTX_TX Reg.CANC_TDC_STAT at this
      omega
    rwa [hk.fld hpage]
  have hcan' : ((s.canEof n a tdcv).emit (.can n a.src a.frame)).can n = { s.can n with attempt := none } := hcan
  have hcancel' : (((s.canEof n a tdcv).emit (.can n a.src a.frame)).txb n a.src).cancel = none := by
    rw [State.txb, hcan']
    exact hcancel
  unfold State.canSent
  dsimp only
  rw [show ((s.setCan n { s.can n with attempt := none }).inc (pCANC n) Cn.CANC_TX_OK).canTdc n a.frame tdcv =
    s.canEof n a tdcv from rfl]
  simp [State.canTap, htec', hecho', htap', hcancel', hcan', he, hnm]

/-- What the end of a frame of the host leaves. -/
theorem canSent_host_spec {s : State} {n : Nat} {a : Attempt} (hn : n < 24) (tdcv : Nat) (hb : a.src < 3)
    (hnm : (s.can n).nmBuf = 0) {u : State}
    (hu : u = ((s.canEof n a tdcv).emit (.can n a.src a.frame)).txbFinal n a.src 3) :
    (u.can n).attempt = none ∧ u.txbState n a.src = 3 ∧ Out.can n a.src a.frame ∈ u.out ∧
      u.count (pCANC n) Cn.CANC_TX_OK = (s.count (pCANC n) Cn.CANC_TX_OK + 1) % 2 ^ 64 ∧ u.wqs = s.wqs ∧
      EventOnly s u [pCANC n * 4096 + Reg.CANC_TDC_STAT, pCANC n * 4096 + Reg.CANC_TXB_STAT, pCANC n * 4096 + Reg.IRQ_STAT] := by
  obtain ⟨hcan, hcount, hwqs, hk⟩ := canEof_spec s n a tdcv
  have hnm' : (((s.canEof n a tdcv).emit (.can n a.src a.frame)).can n).nmBuf = 0 := (congrArg Can.nmBuf hcan).trans hnm
  obtain ⟨hstate, hatt, hout, hcnt, hwqs', hk'⟩ := txbFinal_host_spec (st := 3) hn hb (by decide) hnm'
  subst hu
  exact ⟨hatt.trans (congrArg Can.attempt hcan), hstate, hout.subset (List.mem_append_right _ (List.mem_singleton_self _)),
    (hcnt _ (by decide)).trans hcount, hwqs'.trans hwqs, (hk.mono (by simp)).emit _ |>.trans (hk'.mono (by simp))⟩

/-! ### Transceiver protections -/

/-- What the line die holds beside the registers is no register, entry, counter, byte or word queue. -/
theorem setLdie_onlyRegs (x : Ldie) : OnlyRegs s { s with ldie := x } [] := ⟨fun _ _ => rfl, rfl, rfl, rfl, rfl, rfl⟩

end

/-- The drivers that are off after driver `n` has switched off or on again (R546). -/
def driversOff (n : Nat) (off : Bool) (l : List Nat) : List Nat := if off then n :: l.filter (· ≠ n) else l.filter (· ≠ n)

theorem mem_driversOff_same (n : Nat) (off : Bool) (l : List Nat) : n ∈ driversOff n off l ↔ off = true := by
  cases off <;> simp [driversOff]

theorem mem_driversOff_other {n k : Nat} (h : k ≠ n) (off : Bool) (l : List Nat) : k ∈ driversOff n off l ↔ k ∈ l := by
  cases off <;> simp [driversOff, h]

/-! ### The commands -/

/-- Settles O20: each command by what it makes of the buffer, the queue, the attempt or the driver it names. -/
theorem canTransmission : Obligations.CanTransmission := by
  refine ⟨?request, ?cancel, ?entry, ?selected, ?won, ?lost, ?sent, ?dominant, ?canHot, ?linHot⟩
  case request =>
    intro s t d n b hn hb h hnm hc
    refine completes_cancPort (t := t) (fun s => s.txbCmd d n (2 ^ b)) hn h rfl ?_
    rw [txbCmd_req hb (by simpa using hnm) (by simpa using hc)]
    obtain ⟨hstate, htxb, hk⟩ := txbPend_spec (s.advance t) n hb
    exact ⟨(State.txbState_queueOf ..).trans hstate, by simp [htxb], hk.effect.keptWithQueues⟩
  case cancel =>
    intro s t d n b hn hb h hnm hbuf hp
    refine completes_cancPort (t := t) (fun s => s.txbCmd d n (2 ^ (8 + b))) hn h rfl ?_
    rw [txbCmd_cancel hb (by simpa using hnm) (by simpa using hp)]
    obtain ⟨hstate, -, -, -, hwqs, hk⟩ :=
      txbFinal_host_spec (s := s.advance t) (st := 4) hn hb (by decide) (by simpa using hbuf)
    obtain ⟨hregs, htabs, hbytes⟩ := hk.effect
    exact ⟨(State.txbState_queueOf ..).trans hstate, hregs, htabs, hbytes, .of_eq (hwqs.trans (by simp))⟩
  case entry =>
    intro s t n f hn hclk h
    refine completes_canRun (t := t) (f := fun s => s.rtqEnter n f s.now 0) rfl hn hclk ?_
    have hlen : (s.can n).rtq.length < 32 := by simpa [State.rtqRefuses] using (Bool.or_eq_false_iff.mp h).2
    obtain ⟨hrtq, hlevel, hk⟩ :=
      setRtq_spec (s.advance t) n (q := (s.can n).rtq ++ [⟨f, (s.advance t).now, 0, 0⟩]) (by simp; omega)
    rw [rtqEnter_accepted (by simpa [State.rtqRefuses] using h), State.can_advance]
    exact ⟨hrtq, (State.queueOf_fld ..).trans (by rw [hlevel, List.length_append]; rfl), hk.effect.keptWithQueues⟩
  case selected =>
    intro s t n a hn hclk hsends ha hf hc hw hch
    refine completes_of (execTxArbitration t n 0 s) rfl ?_
    unfold execTxArbitration
    refine next_canRun hn hclk ?_
    simp only [State.can_advance, ha, if_true]
    rw [canStart_chosen (by simpa) (by simpa) (by simpa) (by simpa) (by simpa) hch]
    obtain ⟨hatt, hstate, hk⟩ := canStarted_spec (s.advance t) n a
    exact ⟨hatt, fun hsrc => (State.txbState_queueOf ..).trans (hstate hsrc), hk.effect.keptWithQueues⟩
  case won =>
    intro s t n a hn hclk ha hw
    refine completes_of (execTxArbitration t n 1 s) rfl ?_
    unfold execTxArbitration
    refine next_canRun hn hclk ?_
    simp only [State.can_advance, ha, hw, Nat.one_ne_zero, decide_false, Bool.or_self, Bool.false_eq_true, if_false, if_true]
    exact ⟨by simp, ((OnlyRegs.refl ..).setCan ..).effect.keptWithQueues⟩
  case lost =>
    intro s t n a hn hclk ha hw hsrc
    refine completes_of (execTxArbitration t n 2 s) rfl ?_
    unfold execTxArbitration
    refine next_canRun hn hclk ?_
    simp only [State.can_advance, ha, hw, show ¬ 2 = 0 by decide, show ¬ 2 = 1 by decide, decide_false, Bool.or_self,
      Bool.false_eq_true, if_false]
    rw [canLost_router hsrc]
    obtain ⟨hatt, hrtq, hcount, hwqs, hk⟩ := arbLost_spec (s.advance t) n
    obtain ⟨hregs, htabs, hbytes⟩ := hk.effect
    exact ⟨hatt, hrtq.trans (by simp), hcount.trans (by simp), hregs, htabs, hbytes, .of_eq (hwqs.trans (by simp))⟩
  case sent =>
    intro s t n sof eof tdcv a hn hclk ha hw he hsrc hcancel hbuf htec hecho htap
    refine completes_of (execCanTxSuccess t n sof eof tdcv s) rfl ?_
    unfold execCanTxSuccess
    refine next_canRun hn hclk ?_
    simp only [State.can_advance, ha, hw, if_true]
    rw [canSent_host hn _ _ _ he (by simpa) (by simpa) (by simpa) (by simpa) (by simpa)]
    obtain ⟨hatt, hstate, hout, hcount, hwqs, hk⟩ :=
      canSent_host_spec (s := s.advance t) (a := a) hn tdcv hsrc (by simpa) rfl
    obtain ⟨-, htabs, hbytes⟩ := hk.effect
    exact ⟨hatt, (State.txbState_queueOf ..).trans hstate, hout, hcount.trans (by simp), htabs, hbytes,
      .of_eq (hwqs.trans (by simp))⟩
  case dominant =>
    intro s t n hn hmem
    refine completes_of (execCanDominantTimeout t n s) rfl ?_
    unfold execCanDominantTimeout
    refine next_always ?_
    rw [if_pos (by simp [hn, hmem])]
    exact ⟨by simp, (setLdie_onlyRegs ..).effect.kept⟩
  case canHot =>
    intro s t n k off hn
    refine completes_of (execDriverThermalShutdown t false n off s) rfl (next_always (f := fun s =>
      if n < 16 then { s with ldie := { s.ldie with canHot := driversOff n off s.ldie.canHot } } else s) ?_)
    rw [if_pos hn]
    refine ⟨mem_driversOff_same .., fun hk => ?_, by simp, (setLdie_onlyRegs ..).effect.kept⟩
    exact (mem_driversOff_other hk ..).trans (by simp)
  case linHot =>
    intro s t n k off hn
    refine completes_of (execDriverThermalShutdown t true n off s) rfl (next_always (f := fun s =>
      if n < 8 then { s with ldie := { s.ldie with linHot := driversOff n off s.ldie.linHot } } else s) ?_)
    rw [if_pos hn]
    refine ⟨mem_driversOff_same .., fun hk => ?_, by simp, (setLdie_onlyRegs ..).effect.kept⟩
    exact (mem_driversOff_other hk ..).trans (by simp)

end Sys2Proof.Machine
end

section
/-!
Pipeline entry of a packet that no Predicate, tap, mirror or sampler touches: what its classification reads, the destination that
the database gives it, and the decided packet that waits for its enqueue (R200, R206, R212, R233 to R235).
-/

namespace Sys2Proof.Machine

/-! ### States that differ in their packets, counts and time alone -/

/-- From `s` to `u` no register, table entry, database, memory byte or word queue changes: a classification reads the same in
both. -/
structure PacketsOnly (s u : State) : Prop where
  regs : u.regs = s.regs
  tabs : u.tabs = s.tabs
  fdbs : u.fdbs = s.fdbs
  mram : u.mram = s.mram
  dram : u.dram = s.dram
  wqs : u.wqs = s.wqs

namespace PacketsOnly
variable {s u : State}

theorem refl (s : State) : PacketsOnly s s := ⟨rfl, rfl, rfl, rfl, rfl, rfl⟩

theorem trans {m : State} (h : PacketsOnly s m) (h' : PacketsOnly m u) : PacketsOnly s u :=
  ⟨h'.regs.trans h.regs, h'.tabs.trans h.tabs, h'.fdbs.trans h.fdbs, h'.mram.trans h.mram, h'.dram.trans h.dram,
    h'.wqs.trans h.wqs⟩

theorem advance (s : State) (t : Nat) : PacketsOnly s (s.advance t) := ⟨by simp, by simp, by simp, by simp, by simp, by simp⟩

theorem queueOf (h : PacketsOnly s u) (v : State) : PacketsOnly s (v.queueOf u) := ⟨h.regs, h.tabs, h.fdbs, h.mram, h.dram, h.wqs⟩

theorem addCnt (h : PacketsOnly s u) (p off n : Nat) : PacketsOnly s (u.addCnt p off n) :=
  ⟨h.regs, h.tabs, h.fdbs, h.mram, h.dram, h.wqs⟩

theorem inc (h : PacketsOnly s u) (p off : Nat) : PacketsOnly s (u.inc p off) := h.addCnt p off 1

theorem endRun (h : PacketsOnly s u) (p code place : Nat) : PacketsOnly s (u.endRun p code place) :=
  ⟨h.regs, h.tabs, h.fdbs, h.mram, h.dram, h.wqs⟩

theorem setPipe (h : PacketsOnly s u) (i : Nat) (x : Pipe) : PacketsOnly s (u.setPipe i x) :=
  ⟨h.regs, h.tabs, h.fdbs, h.mram, h.dram, h.wqs⟩

theorem setSwc (h : PacketsOnly s u) (x : Swc) : PacketsOnly s { u with swc := x } :=
  ⟨h.regs, h.tabs, h.fdbs, h.mram, h.dram, h.wqs⟩

theorem kept (h : PacketsOnly s u) : RegsKept s u [] ∧ TablesKept s u ∧ BytesKept s u ∧ QueuesKept s u :=
  ⟨fun a _ => State.reg_congr h.regs a, .of_eq h.tabs, .of_eq h.mram h.dram, .of_eq h.wqs⟩

theorem fld (h : PacketsOnly s u) (p : Nat) (f : Fld) : u.fld p f = s.fld p f := State.fld_congr h.regs p f

theorem flag (h : PacketsOnly s u) (p : Nat) (f : Fld) : u.flag p f = s.flag p f := State.flag_congr h.regs p f

theorem enabled (h : PacketsOnly s u) (p : Nat) : u.enabled p = s.enabled p := h.flag p _

theorem frozen (h : PacketsOnly s u) (p : Nat) : u.frozen p = s.frozen p := h.flag p _

theorem ent (h : PacketsOnly s u) (p tab bank idx : Nat) : u.ent p tab bank idx = s.ent p tab bank idx :=
  State.ent_congr h.tabs p tab bank idx

theorem entF (h : PacketsOnly s u) (p tab bank idx : Nat) (f : Fld) : u.entF p tab bank idx f = s.entF p tab bank idx f := by
  simp only [State.entF, h.ent]

theorem pportF (h : PacketsOnly s u) (i port : Nat) (f : Fld) : u.pportF i port f = s.pportF i port f := h.entF ..

theorem parse (h : PacketsOnly s u) (i port : Nat) (bs : List Nat) : u.parse i port bs = s.parse i port bs := by
  simp only [State.parse, h.pportF, h.flag, h.fld]

theorem tagOfHdr (h : PacketsOnly s u) (i port : Nat) (x : Hdr) : u.tagOfHdr i port x = s.tagOfHdr i port x := by
  simp only [State.tagOfHdr, h.pportF]

theorem vlanFor (h : PacketsOnly s u) (i port vid : Nat) : u.vlanFor i port vid = s.vlanFor i port vid := by
  simp only [State.vlanFor, h.ent, h.flag]

theorem fdbBank (h : PacketsOnly s u) (i : Nat) : u.fdbBank i = s.fdbBank i := h.fld ..

theorem slotAt (h : PacketsOnly s u) (i bank idx : Nat) : u.slotAt i bank idx = s.slotAt i bank idx := h.ent ..

theorem fdbFind (h : PacketsOnly s u) (i bank fid mac : Nat) : u.fdbFind i bank fid mac = s.fdbFind i bank fid mac := by
  have hseed : ∀ side, u.fdbSeed i bank side = s.fdbSeed i bank side := fun side => by
    simp only [State.fdbSeed, State.rd64, State.rd, State.reg_congr h.regs, h.fdbBank]
  have hholds : u.slotHolds i bank fid mac = s.slotHolds i bank fid mac := by
    funext idx
    simp only [State.slotHolds, h.slotAt, State.fdb, h.fdbs]
  simp only [State.fdbFind, State.keySlots, State.fdbBucket, hseed, hholds]

end PacketsOnly

/-! ### Admission -/

section
variable {s : State} {i : Nat}

/-- The only packet `c` at the front of pipeline `i` leaves its place (R200). -/
def State.frontTaken (s : State) (i : Nat) (c : Copy) : State :=
  { s with swc := { s.swc with front := smSet [] i [] s.swc.front } }.setPipe i { s.pipe i with last := c.info.port }

theorem frontTaken_only (s : State) (i : Nat) (c : Copy) : PacketsOnly s (s.frontTaken i c) :=
  ((PacketsOnly.refl s).setSwc _).setPipe _ _

/-- The rotation over the 37 ingress ports reaches every one of them. -/
theorem rotation_reaches {port : Nat} (last : Nat) (hp : port < 37) : ∃ k ∈ List.range 37, port = (last + 1 + k) % 37 :=
  ⟨(port + 36 * (last + 1)) % 37, List.mem_range.mpr (Nat.mod_lt _ (by decide)), by omega⟩

theorem admitFront_single {c : Copy} (hq : (s.queue 288).h = []) (hf : smGet [] i s.swc.front = [c]) (hp : c.info.port < 37) :
    s.admitFront i = some (c, s.frontTaken i c) := by
  have hfind : ((List.range 37).findSome? fun k => [c].find? fun c => c.info.port = ((s.pipe i).last + 1 + k) % 37) = some c := by
    obtain ⟨k, hk, hport⟩ := rotation_reaches (s.pipe i).last hp
    cases hx : (List.range 37).findSome? fun k => [c].find? fun c => c.info.port = ((s.pipe i).last + 1 + k) % 37 with
    | none => exact absurd (List.findSome?_eq_none_iff.mp hx k hk) (by simp [← hport])
    | some x =>
      obtain ⟨j, -, hj⟩ := List.exists_of_findSome?_eq_some hx
      rw [List.mem_singleton.mp (List.mem_of_find?_eq_some hj)]
  simp only [State.admitFront, hq, hf, List.find?_nil, hfind, Option.map_some, List.erase_cons_head]
  rfl

/-! ### The stages that leave such a packet alone -/

@[simp] theorem fget_zero {n : Nat} (f : Fld) : fget 0#n f = 0 := by simp [fget, bitsOf]

/-- Without a winner in any lane there is no action, and none to carry on. -/
theorem mergeActs_none : mergeActs actGroups [] = 0#256 := rfl

theorem mergeActs_zero : mergeActs actGroups [0#256, mergeActs carriedGroups [0#256]] = 0#256 := by decide

theorem rxTap_off {m : Meta} (bs : List Nat) (h : s.entF pTRN 0 0 m.port En.ETAP_RX_MODE = 0) : s.rxTap bs m 0 = s := by
  simp [State.rxTap, State.ethTap, h]

theorem gptpTrap_off (port : Nat) (h : Hdr) (hg : s.enabled pGPTP = false) : s.gptpTrap port h = ([], false) := by
  simp [State.gptpTrap, hg]

/-- A VLAN that does not learn takes no note of a source that the database does not hold (R238). -/
theorem learnFrom_absent {sa : Nat} {v : Entry} (port fin : Nat) (on : Bool) (hv : fget v En.VLAN_LEARN_EN = 0)
    (hsa : s.fdbFind i (s.fdbBank i) (fget v En.VLAN_FID) sa = none) : s.learnFrom i port sa fin v on = (false, s) := by
  simp [State.learnFrom, hv, hsa]

/-- The database of pipeline `i` holds address `da` in slot `idx`, learned here and for the one port `q`: a member of the VLAN of
entry `v`, not the ingress port `port`, and none of ports 35 and 36. -/
structure State.LeadsTo (s : State) (i port da : Nat) (v : Entry) (idx q : Nat) : Prop where
  on : s.enabled (pFDB i) = true
  found : s.fdbFind i (s.fdbBank i) (fget v En.VLAN_FID) da = some idx
  own : isXlrn (s.slotAt i (s.fdbBank i) idx) = false
  keep : fget (s.slotAt i (s.fdbBank i) idx) En.FENT_DROP = 0
  single : fget (s.slotAt i (s.fdbBank i) idx) En.FENT_GROUP = 0
  dest : fget (s.slotAt i (s.fdbBank i) idx) En.FENT_DEST = q
  other : q ≠ port
  external : q < 35
  member : (fget v En.VLAN_MEMBER).testBit q = true

theorem State.LeadsTo.mono {w : State} {port da idx q : Nat} {v : Entry} (hs : s.LeadsTo i port da v idx q) (hw : PacketsOnly s w) :
    w.LeadsTo i port da v idx q := by
  obtain ⟨h1, h2, h3, h4, h5, h6, h7, h8, h9⟩ := hs
  constructor <;> simpa only [hw.enabled, hw.fdbBank, hw.fdbFind, hw.slotAt]

/-- Such an entry gives exactly that port (R235). -/
theorem destSet_entry {port da idx q : Nat} {v : Entry} (hs : s.LeadsTo i port da v idx q) :
    s.destSet i port da (fget v En.VLAN_FID) v none = (.ok [q], s) := by
  have h35 : q ≠ 35 := by have := hs.external; omega
  have h36 : q ≠ 36 := by have := hs.external; omega
  simp [State.destSet, hs.on, hs.found, hs.own, hs.keep, hs.single, hs.dest, hs.other, hs.member, keepPorts, h35, h36]

/-- A packet waits, decided, behind those decided before. -/
def State.decidedPut (s : State) (k : Packet) : State := { s with swc := { s.swc with decided := s.swc.decided ++ [k] } }

/-- Without an action a packet with destinations is decided with them and the untagged set of its VLAN (R212, R235). -/
theorem actOn_noAction {q : Nat} {l : List Nat} {v : Entry} {k : Packet} {h : Hdr} (bank : Nat) (dei : Bool) (bad : Nat → Nat → Bool)
    (hd : s.destSet i k.info.port h.da (fget v En.VLAN_FID) v none = (.ok (q :: l), s)) :
    s.actOn i bank false false 0 0 h dei (some v) k bad =
      s.decidedPut { k with dei := b2n dei, dests := q :: l, untag := fget v En.VLAN_UNTAG &&& fget v En.VLAN_MEMBER } := by
  simp [State.actOn, hd, State.settle, State.decidedPut]

/-! ### Classification -/

/-- Packet `c` with headers `h` parses cleanly on its first pass; its port has no lanes, taps, mirrors and samples, and its VLAN,
of entry `v`, does not learn its source, which the database does not hold. -/
structure State.Plain (s : State) (i : Nat) (c : Copy) (h : Hdr) (v : Entry) : Prop where
  firstPass : c.info.act = none
  parses : s.parse i c.info.port c.bytes = (h, none)
  whole : h.bad = false
  shallow : h.deep = false
  accepts : s.pportF i c.info.port En.PPORT_ACCEPT = 0
  laneless : s.pportF i c.info.port En.PPORT_LANE_MASK = 0
  unmirrored : s.entF pSWC 0 0 c.info.port En.SPORT_RX_MIRROR_EN = 0
  unsampled : s.entF pSWC 0 0 c.info.port En.SPORT_RX_SAMPLE_EN = 0
  noGptp : s.enabled pGPTP = false
  untapped : s.entF pTRN 0 0 c.info.port En.ETAP_RX_MODE = 0
  vlan : s.vlanFor i c.info.port (s.tagOfHdr i c.info.port h).1 = some v
  noLearn : fget v En.VLAN_LEARN_EN = 0
  noSource : s.fdbFind i (s.fdbBank i) (fget v En.VLAN_FID) h.sa = none

theorem State.Plain.mono {w : State} {c : Copy} {h : Hdr} {v : Entry} (hs : s.Plain i c h v) (hw : PacketsOnly s w) :
    w.Plain i c h v := by
  obtain ⟨h1, h2, h3, h4, h5, h6, h7, h8, h9, h10, h11, h12, h13⟩ := hs
  constructor <;> simpa only [hw.parse, hw.pportF, hw.entF, hw.enabled, hw.tagOfHdr, hw.vlanFor, hw.fdbBank, hw.fdbFind]

/-- A packet that parses cleanly and that no Predicate matches is counted in NO_HIT. -/
def State.unmatched (s : State) (i port : Nat) : State :=
  (s.endRun (pPIPE i) Er.PIPE_PARSE_ERR port).inc (pPIPE i) Cn.PIPE_NO_HIT

theorem unmatched_only (s : State) (i port : Nat) : PacketsOnly s (s.unmatched i port) :=
  ((PacketsOnly.refl s).endRun ..).inc ..

/-- What the pipeline hands on of a packet with headers `h`: no rewrite but its own tag, and the class of its PCP (R206). -/
def State.plainPacket (s : State) (i : Nat) (c : Copy) (h : Hdr) : Packet :=
  let (vid, pcp, dei) := s.tagOfHdr i c.info.port h
  { side := i, pkt := c.pkt.getD 0, mem := c.mem, bytes := c.bytes, info := c.info,
    tc := s.pportF i c.info.port En.PPORT_PCP_TO_TC / 2 ^ (3 * pcp) % 8, seq := h.seq, vid := vid, pcp := pcp, dei := dei,
    ctagAt := h.ctag.map (·.1), stagAt := h.stag.map (·.1), tagEnd := h.tagEnd, rtagAt := h.seqAt, decided := s.now }

theorem classify_plain {c : Copy} {h : Hdr} {v : Entry} (bank : Nat) (bad : Nat → Nat → Bool) (hs : s.Plain i c h v) :
    s.classify i bank c bad = (s.unmatched i c.info.port).actOn i bank false false 0 0 h
      ((s.tagOfHdr i c.info.port h).2.2 = 1) (some v) (s.plainPacket i c h) bad := by
  have he : PacketsOnly s (s.endRun (pPIPE i) Er.PIPE_PARSE_ERR c.info.port) := (PacketsOnly.refl s).endRun ..
  have hu := unmatched_only s i c.info.port
  have hp := hs.mono hu
  have hwins : ∀ f : Nat → Option Nat, ((List.range 4).filter (Nat.testBit 0)).filterMap f = [] := fun f => by simp
  have htap := rxTap_off c.bytes hp.untapped
  have hgptp := gptpTrap_off c.info.port h hp.noGptp
  have hlearn := learnFrom_absent c.info.port c.info.fin true hp.noLearn hp.noSource
  simp only [State.unmatched] at *
  simp [State.classify, State.plainPacket, hs.parses, hs.firstPass, hs.whole, hs.shallow, hs.accepts, hs.laneless, hs.unmirrored,
    hs.unsampled, hs.vlan, he.pportF, he.tagOfHdr, hu.pportF, hu.entF, hu.vlanFor, hwins, mergeActs_none, mergeActs_zero, htap,
    hgptp, hlearn]
  rfl

/-- A plain packet whose destination the database gives leaves the classification decided, for exactly that port. -/
theorem classify_decides {c : Copy} {h : Hdr} {v : Entry} {idx q : Nat} (bank : Nat) (bad : Nat → Nat → Bool)
    (hs : s.Plain i c h v) (hd : s.LeadsTo i c.info.port h.da v idx q) :
    s.classify i bank c bad = (s.unmatched i c.info.port).decidedPut { s.plainPacket i c h with
      dei := b2n ((s.tagOfHdr i c.info.port h).2.2 = 1), dests := [q],
      untag := fget v En.VLAN_UNTAG &&& fget v En.VLAN_MEMBER } := by
  rw [classify_plain bank bad hs]
  exact actOn_noAction bank _ bad (destSet_entry (hd.mono (unmatched_only s i c.info.port)))

/-! ### The command -/

/-- Packet `c` is admitted and counted in PKTS, and no ECC event with it. -/
def State.admitted (s : State) (i : Nat) (c : Copy) : State :=
  ((s.frontTaken i c).addCnt (pPIPE i) Cn.PIPE_ECC_CORR 0).inc (pPIPE i) Cn.PIPE_PKTS

theorem admitted_only (s : State) (i : Nat) (c : Copy) : PacketsOnly s (s.admitted i c) :=
  ((frontTaken_only s i c).addCnt ..).inc ..

theorem pipelineEntry_first {c : Copy} (t : Nat) (hr : s.runs? = true) (hi : i < 2) (hon : s.enabled (pPIPE i) = true)
    (hfz : s.frozen (pPIPE i) = false) (hact : c.info.act = none)
    (hadm : (s.advance t).admitFront i = some (c, (s.advance t).frontTaken i c)) :
    execPipelineEntry t i [] 0 [] s = .next (s.queueOf (((s.advance t).admitted i c).classify i
      (((s.advance t).admitted i c).entryBank i c.info) c fun a b => [].contains (a, b))) := by
  have hw : PacketsOnly s (((s.advance t).frontTaken i c).addCnt (pPIPE i) Cn.PIPE_ECC_CORR 0) :=
    ((PacketsOnly.advance s t).trans (frontTaken_only ..)).addCnt ..
  unfold execPipelineEntry
  rw [running_of s hr, if_neg (by omega)]
  simp only [hadm, List.foldl_nil, hw.enabled, hw.frozen, hon, hfz, hact, Option.isSome_none, List.contains_nil, Bool.not_true,
    Bool.or_false, Bool.false_and, Bool.false_eq_true, if_false]
  rfl

/-- The packet is counted once in PKTS and once in NO_HIT. -/
theorem admitted_unmatched_counts (s : State) (i port : Nat) (c : Copy) :
    ((s.admitted i c).unmatched i port).count (pPIPE i) Cn.PIPE_PKTS = (s.count (pPIPE i) Cn.PIPE_PKTS + 1) % 2 ^ 64 ∧
      ((s.admitted i c).unmatched i port).count (pPIPE i) Cn.PIPE_NO_HIT = (s.count (pPIPE i) Cn.PIPE_NO_HIT + 1) % 2 ^ 64 := by
  have hne : ∀ {u : State} {a b : Nat} (n : Nat), a ≠ b → (u.addCnt (pPIPE i) b n).count (pPIPE i) a = u.count (pPIPE i) a :=
    fun n h => State.count_addCnt_ne _ _ _ n _ _ fun h' => h (Nat.add_left_cancel h')
  constructor
  · calc _ = (s.admitted i c).count (pPIPE i) Cn.PIPE_PKTS := hne 1 (by decide)
      _ = _ := State.count_inc_same ..
      _ = _ := by rw [hne 0 (by decide)]; rfl
  · calc _ = ((s.admitted i c).count (pPIPE i) Cn.PIPE_NO_HIT + 1) % 2 ^ 64 := State.count_inc_same ..
      _ = ((s.frontTaken i c).count (pPIPE i) Cn.PIPE_NO_HIT + 1) % 2 ^ 64 := by
        rw [State.admitted, State.inc, hne 1 (by decide), hne 0 (by decide)]

/-- A plain packet at the front of an operating pipeline waits, decided, for exactly the port the database gives. -/
theorem pipelineEntry_decides {c : Copy} {h : Hdr} {v : Entry} {idx q : Nat} (t : Nat) (hr : s.runs? = true) (hi : i < 2)
    (hon : s.enabled (pPIPE i) = true) (hfz : s.frozen (pPIPE i) = false) (hq : (s.queue 288).h = [])
    (hf : smGet [] i s.swc.front = [c]) (hp : c.info.port < 37) (hs : s.Plain i c h v)
    (hd : s.LeadsTo i c.info.port h.da v idx q) :
    ∃ k : Packet, execPipelineEntry t i [] 0 [] s =
        .next (s.queueOf ((((s.advance t).admitted i c).unmatched i c.info.port).decidedPut k)) ∧
      k.dests = [q] ∧ k.bytes = c.bytes ∧ k.side = i ∧ k.vid = (s.tagOfHdr i c.info.port h).1 ∧
      k.untag = fget v En.VLAN_UNTAG &&& fget v En.VLAN_MEMBER ∧
      k.tc = s.pportF i c.info.port En.PPORT_PCP_TO_TC / 2 ^ (3 * (s.tagOfHdr i c.info.port h).2.1) % 8 := by
  have hadm : (s.advance t).admitFront i = some (c, (s.advance t).frontTaken i c) :=
    admitFront_single (by simpa [State.queue] using hq) (by simpa using hf) hp
  have hw : PacketsOnly s ((s.advance t).admitted i c) := (PacketsOnly.advance s t).trans (admitted_only ..)
  rw [pipelineEntry_first t hr hi hon hfz hs.firstPass hadm, classify_decides _ _ (hs.mono hw) (hd.mono hw)]
  exact ⟨_, rfl, rfl, rfl, rfl, congrArg (·.1) (hw.tagOfHdr ..), rfl, by simp only [State.plainPacket, hw.tagOfHdr, hw.pportF]⟩

theorem admitted_unmatched_swc (s : State) (port : Nat) (c : Copy) :
    ((s.admitted i c).unmatched i port).swc = { s.swc with front := smSet [] i [] s.swc.front } := rfl

end

end Sys2Proof.Machine
end

section
/-!
Enqueue of a decided packet's one copy: its admission, the queue it joins, and the packet's end (R237, R264, R266, R267, R310).
-/

namespace Sys2Proof.Machine

/-! ### What the switch core leaves alone -/

/-- From `s` to `u` no register changes but those at `as`, and no queue, decided packet, entry or count of the switch core, memory
byte or word queue. -/
structure SwitchFrame (s u : State) (as : List Nat) : Prop where
  regs : RegsKept s u as
  ents : ∀ tab idx, tab < 16 → idx < 2 ^ 24 → u.ent pSWC tab 0 idx = s.ent pSWC tab 0 idx
  queues : u.swc.queues = s.swc.queues
  decided : u.swc.decided = s.swc.decided
  counts : ∀ off, off < 4096 → u.count pSWC off = s.count pSWC off
  mram : u.mram = s.mram
  dram : u.dram = s.dram
  wqs : u.wqs = s.wqs

namespace SwitchFrame
variable {s u w : State} {as : List Nat}

theorem refl (s : State) (as : List Nat) : SwitchFrame s s as :=
  ⟨fun _ _ => rfl, fun _ _ _ _ => rfl, rfl, rfl, fun _ _ => rfl, rfl, rfl, rfl⟩

theorem trans (h : SwitchFrame s u as) (h' : SwitchFrame u w as) : SwitchFrame s w as :=
  ⟨fun a ha => (h'.regs a ha).trans (h.regs a ha), fun tab idx ht hi => (h'.ents tab idx ht hi).trans (h.ents tab idx ht hi),
    h'.queues.trans h.queues, h'.decided.trans h.decided, fun off ho => (h'.counts off ho).trans (h.counts off ho),
    h'.mram.trans h.mram, h'.dram.trans h.dram, h'.wqs.trans h.wqs⟩

theorem ite {c : Prop} [Decidable c] (h : SwitchFrame s u as) (h' : SwitchFrame s w as) :
    SwitchFrame s (if c then u else w) as := by
  split <;> assumption

theorem setFld (h : SwitchFrame s u as) {p : Nat} {f : Fld} (x : Nat) (hm : p * 4096 + f.off ∈ as := by decide) :
    SwitchFrame s (u.setFld p f x) as :=
  h.trans ⟨fun _ ha => State.reg_setFld_ne _ _ _ _ _ (ne_of_mem_of_not_mem hm ha).symm, fun _ _ _ _ => rfl, rfl, rfl,
    fun _ _ => rfl, rfl, rfl, rfl⟩

theorem setFlag (h : SwitchFrame s u as) {p : Nat} {f : Fld} (b : Bool) (hm : p * 4096 + f.off ∈ as := by decide) :
    SwitchFrame s (u.setFlag p f b) as := h.setFld _ hm

theorem raise (h : SwitchFrame s u as) (b : Nat) (hm : pSWC * 4096 + Reg.IRQ_STAT ∈ as := by decide) :
    SwitchFrame s (u.raise pSWC b) as :=
  h.trans ⟨fun _ ha => State.raise_reg _ _ _ _ (ne_of_mem_of_not_mem hm ha).symm,
    fun _ _ _ _ => State.ent_congr (by simp) .., by simp, by simp,
    fun off ho => raise_count _ _ _ (by simp only [pSWC, pHDOM]; omega), by simp, by simp, by simp⟩

theorem endRun (h : SwitchFrame s u as) (p code place : Nat) : SwitchFrame s (u.endRun p code place) as :=
  h.trans ⟨fun _ _ => rfl, fun _ _ _ _ => rfl, rfl, rfl, fun _ _ => rfl, rfl, rfl, rfl⟩

theorem setEgr (h : SwitchFrame s u as) (p : Nat) (x : Egress) : SwitchFrame s (u.setEgr p x) as :=
  h.trans ⟨fun _ _ => rfl, fun _ _ _ _ => rfl, rfl, rfl, fun _ _ => rfl, rfl, rfl, rfl⟩

theorem setCells (h : SwitchFrame s u as) (x : SMap Cells) :
    SwitchFrame s { u with swc := { u.swc with cells := x } } as :=
  h.trans ⟨fun _ _ => rfl, fun _ _ _ _ => rfl, rfl, rfl, fun _ _ => rfl, rfl, rfl, rfl⟩

/-- An entry of EGR is none of the switch core. -/
theorem setEgrEntF (h : SwitchFrame s u as) (tab idx : Nat) (f : Fld) (x : Nat) :
    SwitchFrame s (u.setEntF pEGR tab 0 idx f x) as :=
  h.trans ⟨fun _ _ => rfl, fun tab' idx' ht hi => State.ent_setEnt_ne _ _ _ _ _ _ _ _ _ _
    (by simp only [tkey, pSWC, pEGR]; omega), rfl, rfl, fun _ _ => rfl, rfl, rfl, rfl⟩

theorem fld (h : SwitchFrame s u as) {p : Nat} {f : Fld} (ha : p * 4096 + f.off ∉ as := by decide) : u.fld p f = s.fld p f := by
  simp only [State.fld, h.regs _ ha]

theorem flag (h : SwitchFrame s u as) {p : Nat} {f : Fld} (ha : p * 4096 + f.off ∉ as := by decide) :
    u.flag p f = s.flag p f := by
  simp only [State.flag, h.fld ha]

theorem queue (h : SwitchFrame s u as) (k : Nat) : u.queue k = s.queue k := by simp only [State.queue, h.queues]

theorem entF (h : SwitchFrame s u as) {tab idx : Nat} (f : Fld) (ht : tab < 16 := by decide) (hi : idx < 2 ^ 24) :
    u.entF pSWC tab 0 idx f = s.entF pSWC tab 0 idx f := by
  simp only [State.entF, h.ents tab idx ht hi]

theorem qstate (h : SwitchFrame s u as) {k : Nat} (hk : k < 2 ^ 24) : u.qstate k = s.qstate k := h.entF _ (by decide) hk

end SwitchFrame

/-! ### Cells, queue entries and credits -/

section
variable (s : State)

/-- The registers that follow the free cells. -/
def freeRegs : List Nat := [Reg.SWC_FREE, Reg.SWC_FREE_MIN, Reg.SWC_SPILL_STAT, Reg.IRQ_STAT].map (pSWC * 4096 + ·)

theorem setFree_frame (f : Nat) : SwitchFrame s (s.setFree f) freeRegs := by
  unfold State.setFree
  extract_lets old s₁ s₂ warn s₃ on
  have h₂ : SwitchFrame s s₂ freeRegs := ((SwitchFrame.refl ..).setFld _).setFld _
  have h₃ : SwitchFrame s s₃ freeRegs := .ite (h₂.raise _) h₂
  exact .ite (.ite h₃ ((h₃.setFlag _).raise _)) (.ite (h₃.setFlag _) h₃)

theorem pktUnref_frame (id n : Nat) : SwitchFrame s (s.pktUnref id n) freeRegs :=
  ((SwitchFrame.refl ..).setCells _).trans (setFree_frame ..)

theorem pktRef_frame (id n : Nat) : SwitchFrame s (s.pktRef id n) [] := (SwitchFrame.refl ..).setCells _

/-- The registers that follow the free queue entries. -/
def qentryRegs : List Nat := [Reg.SWC_QENTRY_FREE, Reg.IRQ_STAT].map (pSWC * 4096 + ·)

theorem qentryTake_frame : SwitchFrame s s.qentryTake qentryRegs :=
  .ite (((SwitchFrame.refl ..).setFld _).raise _) ((SwitchFrame.refl ..).setFld _)

theorem creditSync_frame (p : Nat) : SwitchFrame s (s.creditSync p) [] := by
  unfold State.creditSync
  extract_lets
  exact List.foldlRecOn (motive := fun u => SwitchFrame s u []) _ _ ((SwitchFrame.refl ..).setEgr _ _)
    fun u hu q _ => hu.setEgrEntF ..

end

/-! ### The copy joins its queue -/

section
variable {s : State} {k : Nat} {c : Copy}

theorem queue_setQueue_same (q : Queue) : (s.setQueue k q).queue k = q := by
  unfold State.setQueue
  extract_lets used u₁ u₂
  have hu : u₂.queue k = q := smGet_smSet_same ..
  split
  · exact hu
  · exact hu

/-- A queue's state entry mirrors its segments; QST_STATE stays. -/
theorem qstOf_state (e : Entry) (q : Queue) : fget (qstOf e q) En.QST_STATE = fget e En.QST_STATE := by
  simp (disch := decide) only [qstOf, fget_fput_ne]

/-- The queue `k` of an egress port but 36 replaced: its state entry and SPILL_STAT.USED alone follow. -/
theorem setQueue_port (q : Queue) (hk : k < 288) : ∃ used, s.setQueue k q =
    (({ s with swc := { s.swc with queues := smSet {} k q s.swc.queues } } : State).setEnt pSWC 1 0 k
      (qstOf (s.ent pSWC 1 0 k) q)).setFld pSWC Fd.SWC_SPILL_STAT_USED used :=
  ⟨_, if_neg (by omega)⟩

/-- From `s` to `u` the state of queue `k`, the spill ACTIVE flag, the switch core's port entries, its decided packets, the memory
bytes and the word queues stay: all that a copy that joins the queue leaves alone, and that its own enqueue reads afterwards. -/
structure QueueFrame (s u : State) (k : Nat) : Prop where
  state : u.qstate k = s.qstate k
  active : u.flag pSWC Fd.SWC_SPILL_STAT_ACTIVE = s.flag pSWC Fd.SWC_SPILL_STAT_ACTIVE
  ports : ∀ p, p < 2 ^ 24 → u.ent pSWC 0 0 p = s.ent pSWC 0 0 p
  decided : u.swc.decided = s.swc.decided
  mram : u.mram = s.mram
  dram : u.dram = s.dram
  wqs : u.wqs = s.wqs

theorem QueueFrame.trans {u w : State} (h : QueueFrame s u k) (h' : QueueFrame u w k) : QueueFrame s w k :=
  ⟨h'.state.trans h.state, h'.active.trans h.active, fun p hp => (h'.ports p hp).trans (h.ports p hp), h'.decided.trans h.decided,
    h'.mram.trans h.mram, h'.dram.trans h.dram, h'.wqs.trans h.wqs⟩

theorem SwitchFrame.queueFrame {u : State} {as : List Nat} (h : SwitchFrame s u as) (hk : k < 2 ^ 24)
    (ha : pSWC * 4096 + Reg.SWC_SPILL_STAT ∉ as := by decide) : QueueFrame s u k :=
  ⟨h.qstate hk, h.flag ha, fun p hp => h.ents 0 p (by decide) hp, h.decided, h.mram, h.dram, h.wqs⟩

theorem ports_setEnt (p : Nat) (e : Entry) (hp : p < 2 ^ 24) : (s.setEnt pSWC 1 0 k e).ent pSWC 0 0 p = s.ent pSWC 0 0 p :=
  State.ent_setEnt_ne _ _ _ _ _ _ _ _ _ _ (by simp only [tkey]; omega)

theorem setQueue_frame (q : Queue) (hk : k < 288) : QueueFrame s (s.setQueue k q) k := by
  obtain ⟨used, hset⟩ := setQueue_port (s := s) q hk
  rw [hset]
  refine ⟨?_, ?_, fun p hp => ports_setEnt p _ hp, rfl, rfl, rfl, rfl⟩
  · exact (congrArg (fget · En.QST_STATE) (State.ent_setEnt_same ..)).trans (qstOf_state ..)
  · exact State.flag_setFld_apart _ _ _ _ _ (by decide) (by decide)

theorem qCount_frame {f : Fld} (hf : f.lo + f.w ≤ 256) (hne : En.QST_STATE.lo + En.QST_STATE.w ≤ f.lo) :
    QueueFrame s (s.qCount k f) k :=
  ⟨(congrArg (fget · En.QST_STATE) (State.ent_setEnt_same ..)).trans (fget_fput_ne _ _ _ _ hf (.inl hne)), rfl,
    fun p hp => ports_setEnt p _ hp, rfl, rfl, rfl, rfl⟩

/-- An admitted copy at the end of the head of queue `k`, before Table 3 is followed. -/
def State.headPut (s : State) (k : Nat) (c : Copy) : State :=
  (((s.setQueue k { s.queue k with h := (s.queue k).h ++ [c] }).qentryTake).qCount k En.QST_ENQ).inc pSWC Cn.SWC_ENQ

theorem headPut_frame (hk : k < 288) : QueueFrame s (s.headPut k c) k := by
  have h := ((setQueue_frame (s := s) { s.queue k with h := (s.queue k).h ++ [c] } hk).trans
    ((qentryTake_frame _).queueFrame (by omega))).trans (qCount_frame (f := En.QST_ENQ) (by decide) (by decide))
  exact ⟨h.state, h.active, h.ports, h.decided, h.mram, h.dram, h.wqs⟩

theorem headPut_queue : ((s.headPut k c).queue k).h = (s.queue k).h ++ [c] :=
  congrArg Queue.h (((qentryTake_frame _).queue k).trans (queue_setQueue_same _))

theorem headPut_count (hk : k < 288) : (s.headPut k c).count pSWC Cn.SWC_ENQ = (s.count pSWC Cn.SWC_ENQ + 1) % 2 ^ 64 := by
  obtain ⟨used, hset⟩ := setQueue_port (s := s) { s.queue k with h := (s.queue k).h ++ [c] } hk
  refine (State.count_inc_same ..).trans (congrArg (fun n => (n + 1) % 2 ^ 64) ?_)
  refine ((qentryTake_frame _).counts _ (by decide)).trans ?_
  rw [hset]
  rfl

/-- A LOCAL queue takes the copy at the end of its head and stays LOCAL while no spilling is asked for (Tables 2 and 3). -/
theorem qPut_local (hk : k < 288) (hst : s.qstate k = 0) (ha : s.flag pSWC Fd.SWC_SPILL_STAT_ACTIVE = false) :
    s.qPut k c = s.headPut k c := by
  have hf := headPut_frame (s := s) (c := c) hk
  have hput : s.qPut k c = (s.headPut k c).qEval k := by simp only [State.qPut, hst, if_true]; rfl
  rw [hput, State.qEval]
  simp [hf.state, hst, hf.active, ha]

end

/-! ### Admission -/

section
variable {s : State} {p : Nat} {k : Packet} {c : Copy}

/-- Table 1 admits a copy of `cells` cells and `len` bytes to queue `q` of port `p`, which is UP, without a push-out. -/
structure State.Room (s : State) (p q cells len : Nat) : Prop where
  on : s.enabled pSWC = true
  running : s.frozen pSWC = false
  up : s.ethSt p = 2
  fits : len ≤ s.fld (pEPRT p) Fd.EPRT_CFG_MAX_LEN
  entry : s.fld pSWC Fd.SWC_QENTRY_FREE_FREE ≠ 0
  room : (s.queue (qkey p q)).occupancy + cells ≤ s.fld pSWC (Fd.SWC_CLASS_QMAX_QMAX.at 8 q)
  floor : s.fld pSWC (Fd.SWC_CLASS_CFG_FLOOR.at 8 q) ≤ s.free

theorem State.Room.mono {u : State} {q cells len : Nat} (h : s.Room p q cells len) (hu : PacketsOnly s u)
    (hq : ∀ key, u.queue key = s.queue key) : u.Room p q cells len := by
  obtain ⟨h1, h2, h3, h4, h5, h6, h7⟩ := h
  constructor <;> simpa only [hu.enabled, hu.frozen, State.ethSt, State.free, hu.fld, hq]

/-- A copy that is admitted ends the runs of a full entry store and of push-outs. -/
def State.roomFound (s : State) : State := (s.endRun pSWC Er.SWC_QENTRY_FULL 0).endRun pSWC Er.SWC_PUSHOUT 0

theorem roomFound_frame (s : State) : SwitchFrame s s.roomFound [] := ((SwitchFrame.refl ..).endRun ..).endRun ..

theorem admission_room {q cells len : Nat} (h : s.Room p q cells len) : s.admission p q cells len = (true, s.roomFound) := by
  have hfld : ∀ p f, (s.endRun pSWC Er.SWC_QENTRY_FULL 0).fld p f = s.fld p f := fun _ _ => rfl
  have hqueue : ∀ k, (s.endRun pSWC Er.SWC_QENTRY_FULL 0).queue k = s.queue k := fun _ => rfl
  have hroom := h.room
  have hfits := h.fits
  have hfree : (s.endRun pSWC Er.SWC_QENTRY_FULL 0).free = s.free := rfl
  simp [State.admission, h.on, h.running, h.up, h.entry, h.floor, hqueue, hfld, hfree, Nat.not_lt.mpr hroom,
    Nat.not_lt.mpr hfits, State.roomFound]

/-- The state in which an admitted copy of packet `k` joins a queue of port `p`: credits are current and the packet has one more
reference. -/
def State.referenced (s : State) (p : Nat) (k : Packet) (c : Copy) : State := (s.roomFound.creditSync p).pktRef k.pkt c.mem

theorem referenced_frame (s : State) (p : Nat) (k : Packet) (c : Copy) : SwitchFrame s (s.referenced p k c) [] :=
  ((roomFound_frame s).trans (creditSync_frame ..)).trans (pktRef_frame ..)

/-- A copy that Table 1 admits to a LOCAL queue is at the end of its head. -/
theorem enqueue_local {q : Nat} (hk : qkey p q < 288) (hr : s.Room p q c.mem c.bytes.length) (hst : s.qstate (qkey p q) = 0)
    (ha : s.flag pSWC Fd.SWC_SPILL_STAT_ACTIVE = false) :
    s.enqueue p q k c = (true, (s.referenced p k c).headPut (qkey p q) c) := by
  have hf := referenced_frame s p k c
  have hput := qPut_local (c := c) hk ((hf.qstate (by omega)).trans hst) (hf.flag.trans ha)
  simp only [State.enqueue, admission_room hr, if_true]
  exact congrArg (Prod.mk true) hput

/-! ### The copies of a packet with one destination -/

theorem qkey_lt {q : Nat} (hp : p < 32) (hq : q < 8) : qkey p q < 288 := by
  rw [qkey, if_neg (by omega)]
  omega

/-- The copy of a packet for port `p`, tagged as the VLAN asks (R237, R310). -/
def State.portCopy (s : State) (p : Nat) (k : Packet) : Copy := { k.plain s.now 0 0 with bytes := s.copyBytes p k }

theorem forward_single (hp : p < 32) (hk : qkey p k.tc < 288) (hr : s.Room p k.tc k.mem (s.copyBytes p k).length)
    (hst : s.qstate (qkey p k.tc) = 0) (ha : s.flag pSWC Fd.SWC_SPILL_STAT_ACTIVE = false)
    (hm : s.entF pSWC 0 0 p En.SPORT_TX_MIRROR_EN = 0) (used : List Nat) :
    s.forward k [p] used = (s.referenced p k (s.portCopy p k)).headPut (qkey p k.tc) (s.portCopy p k) := by
  have henq : s.enqueue p k.tc k (s.portCopy p k) = _ := enqueue_local hk hr hst ha
  have hm' : ((s.referenced p k (s.portCopy p k)).headPut (qkey p k.tc) (s.portCopy p k)).entF pSWC 0 0 p
      En.SPORT_TX_MIRROR_EN = 0 :=
    (congrArg (fget · En.SPORT_TX_MIRROR_EN) (((headPut_frame hk).ports p (by omega)).trans
      ((referenced_frame ..).ents 0 p (by decide) (by omega)))).trans hm
  unfold State.portCopy at *
  simp [State.forward, henq, hm']

theorem copies_single (hbad : k.info.bad = false) (ht : k.traps = []) (hm : k.mirrors = []) (hs : k.samples = [])
    (hr : k.recirc = none) (hd : k.dests = [p]) (hsf : k.sf = none) : s.copies k [] = (s.forward k [p] []).pktDone k := by
  simp [State.copies, hbad, ht, hm, hs, hr, hd, State.frProcess, State.frGenAll, hsf, State.forwardAll]

/-! ### The command -/

theorem PacketsOnly.copyBytes {u : State} (h : PacketsOnly s u) (p : Nat) (k : Packet) : u.copyBytes p k = s.copyBytes p k := by
  simp only [State.copyBytes, State.rtagEdit, h.entF]

/-- The decided packet is taken: no other one waits. -/
def State.decidedTaken (s : State) : State :=
  { s.addCnt pEGR Cn.EGR_ECC_CORR 0 with swc := { s.swc with decided := [] } }

theorem decidedTaken_only (s : State) : PacketsOnly s s.decidedTaken := ((PacketsOnly.refl s).addCnt ..).setSwc _

theorem decidedTaken_queue (s : State) (key : Nat) : s.decidedTaken.queue key = s.queue key := rfl

theorem copyEnqueue_single (t : Nat) (hr : s.runs? = true) (hd : s.swc.decided = [k]) (hfin : k.info.fin ≤ (s.advance t).now) :
    execCopyEnqueue t [] 0 s = .next (s.queueOf ((s.advance t).decidedTaken.copies k [])) := by
  have hl : ((s.advance t).addCnt pEGR Cn.EGR_ECC_CORR 0).swc.decided = [k] := (congrArg Swc.decided (by simp)).trans hd
  have hfin' : k.info.fin ≤ ((s.advance t).addCnt pEGR Cn.EGR_ECC_CORR 0).now := hfin
  unfold execCopyEnqueue
  rw [running_of s hr]
  simp only [State.egrEcc, List.foldl_nil, hl, List.filter_cons, hfin', decide_true, if_true, List.filter_nil,
    List.mergeSort_singleton, List.erase_cons_head]
  rfl

/-- What the enqueue of a packet's only copy `c` in queue `key` leaves: the copy at the end of the head, counted in ENQ. -/
theorem copyPut_spec {key : Nat} (hk : key < 288) :
    let u := ((s.referenced p k c).headPut key c).pktDone k
    u.swc.decided = s.swc.decided ∧ (u.queue key).h = (s.queue key).h ++ [c] ∧
      u.count pSWC Cn.SWC_ENQ = (s.count pSWC Cn.SWC_ENQ + 1) % 2 ^ 64 ∧ u.mram = s.mram ∧ u.dram = s.dram ∧ u.wqs = s.wqs := by
  have href := referenced_frame s p k c
  have hput := headPut_frame (s := s.referenced p k c) (c := c) hk
  have hdone : SwitchFrame _ (((s.referenced p k c).headPut key c).pktDone k) freeRegs := pktUnref_frame ..
  refine ⟨?_, ?_, ?_, ?_, ?_, ?_⟩
  · exact hdone.decided.trans (hput.decided.trans href.decided)
  · rw [hdone.queue, headPut_queue, href.queue]
  · rw [hdone.counts _ (by decide), headPut_count hk, href.counts _ (by decide)]
  · exact hdone.mram.trans (hput.mram.trans href.mram)
  · exact hdone.dram.trans (hput.dram.trans href.dram)
  · exact hdone.wqs.trans (hput.wqs.trans href.wqs)

end

/-- Settles O29: a plain packet is decided for the one port that the database gives; the copy of a decided packet that Table 1 admits
joins the head of its LOCAL queue. -/
theorem packetsAreDecidedAndEnqueued : Obligations.PacketsAreDecidedAndEnqueued := by
  refine ⟨?entry, ?enqueue⟩
  case entry =>
    intro s t i q idx c h v hr hi hon hfz hq hf hp hact hparse hbad hdeep hacc hmask hmir hsam hgptp htap hvlan hlearn hsa hfdb hda
      hx hdrop hgroup hdest hne hlt hmem
    obtain ⟨k, hexec, hk⟩ := pipelineEntry_decides t hr hi hon hfz hq hf hp
      ⟨hact, hparse, hbad, hdeep, hacc, hmask, hmir, hsam, hgptp, htap, hvlan, hlearn, hsa⟩
      ⟨hfdb, hda, hx, hdrop, hgroup, hdest, hne, hlt, hmem⟩
    refine completes_of _ rfl ⟨_, hexec, ?_⟩
    obtain ⟨hpkts, hnohit⟩ := admitted_unmatched_counts (s.advance t) i c.info.port c
    have hw : PacketsOnly s (((s.advance t).admitted i c).unmatched i c.info.port) :=
      ((PacketsOnly.advance s t).trans (admitted_only ..)).trans (unmatched_only ..)
    have hswc := admitted_unmatched_swc (i := i) (s.advance t) c.info.port c
    refine ⟨⟨k, ?_, hk⟩, ?_, hpkts.trans (by simp), hnohit.trans (by simp), ((hw.setSwc _).queueOf s).kept⟩
    · simp [State.decidedPut, hswc]
    · simp [State.decidedPut, hswc]
  case enqueue =>
    intro s t p k hr hd hfin hbad htraps hmirs hsams hrec hdest hsf hp htc hon hfz hup hlen hent hroom hfloor hst hact htx
    have hw : PacketsOnly s (s.advance t).decidedTaken := (PacketsOnly.advance s t).trans (decidedTaken_only ..)
    have hqueue : ∀ key, (s.advance t).decidedTaken.queue key = s.queue key := fun key =>
      (decidedTaken_queue ..).trans (by simp [State.queue])
    have hk : qkey p k.tc < 288 := qkey_lt hp htc
    have hroom' : (s.advance t).decidedTaken.Room p k.tc k.mem ((s.advance t).decidedTaken.copyBytes p k).length := by
      rw [hw.copyBytes]
      exact State.Room.mono ⟨hon, hfz, hup, hlen, hent, hroom, hfloor⟩ hw hqueue
    refine completes_of _ rfl ⟨_, copyEnqueue_single t hr hd hfin, ?_⟩
    rw [copies_single hbad htraps hmirs hsams hrec hdest hsf,
      forward_single hp hk hroom' ((hw.entF ..).trans hst) ((hw.flag ..).trans hact) ((hw.entF ..).trans htx)]
    obtain ⟨hdec, hh, hcount, hmram, hdram, hwqs⟩ :=
      copyPut_spec (s := (s.advance t).decidedTaken) (p := p) (k := k) (c := (s.advance t).decidedTaken.portCopy p k) hk
    refine ⟨hdec, ⟨_, hh.trans (by rw [hqueue]), hw.copyBytes p k, rfl, rfl⟩, hcount.trans ?_, ?_, ?_⟩
    · rw [show (s.advance t).decidedTaken.count pSWC Cn.SWC_ENQ = _ from State.count_addCnt_ne _ _ _ _ _ _ (by decide),
        State.count_advance]
    · exact .of_eq (hmram.trans hw.mram) (hdram.trans hw.dram)
    · exact .of_eq (hwqs.trans hw.wqs)

end Sys2Proof.Machine
end
